-- ==== Sys2Proof/Word.lean ====
section
/-! DEFINITION. The word types of the floor controller: the 32-bit register word (R122), the byte of
the data SRAM and the 64-bit word of lanes, points and time stamps (R228, R153). -/

namespace Sys2Proof

/-- One register word (R122). -/
abbrev Word := BitVec 32

/-- One byte of memory. -/
abbrev Byte := BitVec 8

/-- One 64-bit value: a lane register (R228), a point value (R153), a stamp. -/
abbrev Dword := BitVec 64

end Sys2Proof
end

