-- ==== Sys2Proof/Syntax.lean ====
section
/-! DEFINITION. The commands of the block: one constructor of `Instr` for each row of
spec/opcode_table.json, with the operands that the row's rule names, and the types of those operands.
The table gives no bits, so an operand is the fact itself: the path that acts, an address, a data word,
the fields of a scan instruction (Table ISA-2), a received frame, a measured value. -/

namespace Sys2Proof

/-- An access path (R142, R145). -/
inductive Path where
  | supervisor
  | tunnel (s : Nat)
  | mirror
  | spi
  | lane (n : Nat)
deriving DecidableEq, Repr

/-- The alias of an access, address bits [13:12] (R121, Table REG-8). -/
inductive Alias where
  | plain | set | clear | toggle
deriving DecidableEq, Repr

/-- The fields of a scan instruction word (Table ISA-2), the opcode apart. -/
structure Fields where
  d : BitVec 5
  a : BitVec 5
  b : BitVec 5
  i : Bool
  x : BitVec 8
  imm : BitVec 32
deriving DecidableEq, Repr

/-- Facts that the boot code and the supervisor find during a start (R493, R535): whether the save
record reads without an uncorrectable error, whether its CRC-32 verifies, and the chunks that mismatch in a
staging copy. -/
structure BootFacts where
  readable : Bool
  crcOk : Bool
  badChunks : List Nat
deriving DecidableEq, Repr

/-- The anchor generator that reaches an occurrence (Table ARCH-3). -/
inductive Anchor where
  | loopGroup (g : Nat)
  | meterSample
  | halfCycle
  | turnHalf
  | classRef (c : Nat)
  | daliSlot (ch : Nat)
  | osdpSlot (port : Nat)
deriving DecidableEq, Repr

/-- A word that errors may strike (R421, R423, R35): of the data SRAM or the code store by its number; the held stores of a lane; a loop
with its sections and state; what holds a conserved quantity (Table ARCH-6), which is total q of a meter channel with its residue, the pulses
that an output owes, the credits of a context, the LOST count of a context, a counter of a bus page; the oldest message of a channel's
queue; a word that the supervisor or the key vault reads; a payload word of the frame that the Col link brings. -/
inductive EccWord where
  | sram (w : Nat)
  | code (w : Nat)
  | held (l : Nat)
  | loop (n : Nat)
  | total (c q : Nat)
  | owed (n : Nat)
  | credits (c : Nat)
  | lost (c : Nat)
  | counter (page n : Nat)
  | message (ch k : Nat)
  | supervisor
  | col (i : Nat)
deriving DecidableEq, Repr

/-- What a scrubber's turn brings: the flips, by bank, in the words that it reads, and the errors that have struck words since its last
turn (R421). -/
structure Errors where
  flips : List (Nat × Nat) := []
  strikes : List (EccWord × Nat) := []
deriving DecidableEq, Repr

/-- A datagram that reaches the tunnel port (R393): the port that received it, its bytes, and the address and port of its source. -/
structure Gram where
  via : Nat
  bytes : List Byte
  addr : Nat
  port : Nat
deriving DecidableEq, Repr

/-- What the tracker's comparator path sees of one phase against PE around a crossing (R95): the tick of the first sample, the samples in
mV, 16 ft apart, and the magnitude in V of the negative peak of the half-cycle before. -/
structure Passage where
  first : Nat
  mV : List Int
  negPeak : Nat
deriving DecidableEq, Repr

/-- An up frame of a sense head as it is received (Table SNS-3), CRC-16 included. -/
structure UpFrame where
  seq : Nat
  stat : Byte
  samples : List Int
  rstat : Nat
  rdata : Word
  crc : Nat
deriving DecidableEq, Repr

/-- A validated bus frame: its ID word (Table BUS-2), whether it is a classical remote frame, its payload. -/
structure BusFrame where
  id : Word
  remote : Bool
  payload : List Byte
deriving DecidableEq, Repr

/-- The outcome of a DALI backward window (R371). -/
inductive Backward where
  | frame (b : Byte)
  | none
  | corrupt
deriving DecidableEq, Repr

/-- A HEALTH frame (Table PAR-3). -/
structure HealthFrame where
  word : Word
  fw : Word
  proto : BitVec 16
  cfgSum : Word
  copySeq : Dword
  stf : Byte
  devId : BitVec 128
deriving DecidableEq, Repr

/-- A TIME frame (Table PAR-2) and the ft in which its SOF arrived (R507). -/
structure TimeFrame where
  cycle : Word
  epoch : BitVec 16
  turn : Word
  lag : Word
  arrival : Nat
deriving DecidableEq, Repr

/-- The commands: the rows of spec/opcode_table.json, in the table's order. -/
inductive Instr where
  /-- MAINS_APPLIED (R532): Mains reaches an unpowered module: power-on reset, rails come up and the start sequence of Table SYS-2 begins. -/
  | mainsApplied (b : BootFacts)
  /-- SYSTEM_RESET (R531): A system reset resets every master, engine and port except Ridgeline, the tick counter, power, RTC, Cairn MRAM and the Col link, then starts at step 4. -/
  | systemReset (cause : Nat) (b : BootFacts)
  /-- V_START_REACHED (R86): The hold-up store reaches V_START and PWR_STATE becomes NORMAL. -/
  | vStartReached
  /-- RAIL_OUT_OF_TOLERANCE (R73): A 3.3 V, 1.8 V or core rail stays outside tolerance for 10 µs: module fault RAIL and a rail reset, recorded in RAIL_STAT. -/
  | railOutOfTolerance (rails : BitVec 3)
  /-- CLOCK_FAILURE (R544): The clock monitor finds the crystal stopped or off by more than 5 % for 2 µs: module fault CLOCK and a power-on reset. -/
  | clockFailure
  /-- CLOCK_RECOVERED (R544): The crystal has been within 1 % for 10 ms and the module leaves the clock reset. -/
  | clockRecovered (b : BootFacts)
  /-- POWER_FAIL_DECISION (R79): The supply RMS stays below PF_VOLTS for PF_HC half-cycles or the 12 V rail falls below 10.5 V: shedding starts and the decision is recorded. -/
  | powerFailDecision (byRms by12V : Bool) (rms mV : Nat)
  /-- SHED_STAGE (R82): A shed delay expires after the decision and its stage of loads takes its unpowered state. -/
  | shedStage (stage : Nat)
  /-- V_SAVE_REACHED (R85): The store reaches V_SAVE: every remaining stage and 24V_SNS are shed and the orderly save starts. -/
  | vSaveReached
  /-- SAVE_COMPLETE (R85): The save completes and the module enters DOWN, or restarts if mains is good. -/
  | saveComplete (tenths : Nat) (b : BootFacts)
  /-- V_MIN_REACHED (R85): The store reaches V_MIN, the converter stops and the module becomes unpowered. -/
  | vMinReached
  /-- HOLDUP_CAP_MEASURE (R77): The daily measurement of store capacitance updates HOLDUP_CAP and the LOW flag. -/
  | holdupCapMeasure (mF : Nat)
  /-- FRONT_END_OVERTEMP (R89): The front end passes 105 °C or falls below 95 °C, setting or clearing OVERTEMP and suspending the charger. -/
  | frontEndOvertemp (temp : Int)
  /-- DALI_SUPPLY_SETTING (R75): A DAL.PWR write is checked against the power budget and applied or refused with CAPACITY. -/
  | daliSupplySetting (p : Path) (ch : Nat) (data : Word)
  /-- ZERO_CROSSING_EVALUATION (R96): A valid reference crossing is evaluated 64 ft after its stamp, accepted or rejected, and may change Ridgeline state and rate. -/
  | zeroCrossingEvaluation (l1 l2 l3 n : Passage)
  /-- CROSSING_MISS (R99): The prediction window closes with no accepted crossing: a miss is counted and HOLD may be entered. -/
  | crossingMiss
  /-- HOLD_LONG (R102): A HOLD lasts HOLD_LONG seconds and PHT.STATE.HOLD_LONG sets. -/
  | holdLong
  /-- SEEK_LONG (R103): SEEK lasts 2 s and PHT.STATE.SEEK_LONG sets. -/
  | seekLong
  /-- TURN_BOUNDARY (R90): The phase angle wraps through 0: CYCLE and possibly EPOCH increment and turn-boundary work takes place. -/
  | turnBoundary
  /-- ANCHOR_OCCURRENCE (R106): An anchor generator reaches an occurrence and its scheduled activity starts. -/
  | anchorOccurrence (g : Anchor)
  /-- ANN_CYCLE_WRITE (R114): A write of PHT.ANN_CYCLE arms a cycle-number announcement, accepted or rejected by state and angle. -/
  | annCycleWrite (p : Path) (data : Word)
  /-- REGISTER_WRITE (R128): A write, through any alias, to a register with no row of its own acts on each field by its access code and is clamped. -/
  | registerWrite (p : Path) (addr data : Word)
  /-- READ_CLEAR (R136): A read of an RC counter returns its value and clears it in the same ft. -/
  | readClear (p : Path) (addr : Word)
  /-- LO_READ_LATCH (R124): A read of a LO word latches the HI word in the path's latch. -/
  | loReadLatch (p : Path) (addr : Word)
  /-- HI_WRITE_APPLY (R124): A write of a HI word applies both words of a 64-bit RW value from the path's latch and empties the latch. -/
  | hiWriteApply (p : Path) (addr data : Word)
  /-- INDIRECT_ACCESS (R139): An IND_DATA access reaches the indirect register at the path's IND_ADDR and increments it under AUTOINC. -/
  | indirectAccess (p : Path) (page : Nat) (al : Alias) (write : Bool) (data : Word)
  /-- INDIRECT_COMPLETE (R140): An indirect access to a slow domain completes and frees the page port. -/
  | indirectComplete (page : Nat)
  /-- INDIRECT_TIMEOUT (R140): An indirect access passes its bound: it ends TIMEOUT and IND_ERR sets. -/
  | indirectTimeout (page : Nat)
  /-- SHADOW_COMMIT (R134): A write of SHADOW_COMMIT.COMMIT applies every shadow of the page together, or refuses with COMMIT_REFUSED. -/
  | shadowCommit (p : Path) (page : Nat)
  /-- SHADOW_DISCARD (R135): A write of SHADOW_COMMIT.DISCARD reloads every shadow from the values in force. -/
  | shadowDiscard (p : Path) (page : Nat)
  /-- SNAP (R137): A write of SNAP_CTL.SNAP takes a snapshot of the page's counters. -/
  | snap (p : Path) (page : Nat)
  /-- FENCE_WRITE (R146): A write of SYS.FENCE stalls the path until all its earlier accesses have applied. -/
  | fenceWrite (p : Path)
  /-- SPI_WRITE (R144): A WRITE frame on the service SPI port queues a register write. -/
  | spiWrite (addr data : Word)
  /-- SPI_READ (R144): A READ frame on the service SPI port queues a register read. -/
  | spiRead (addr : Word)
  /-- SPI_FETCH (R144): A FETCH frame returns the result of the last completed READ and clears RD_DONE. -/
  | spiFetch
  /-- SPI_STATUS (R144): A STATUS frame returns the status word and clears OVF, EARLY and FRAME_ERR. -/
  | spiStatus
  /-- SPI_BAD_FRAME (R144): A frame of wrong length or unknown command is discarded and sets FRAME_ERR. -/
  | spiBadFrame
  /-- SPI_ACCESS_COMPLETE (R144): A queued SPI access is granted and completes, updating RD_DONE and LAST. -/
  | spiAccessComplete
  /-- POINT_WINDOW_WRITE (R155): A write through the point value window places a value in a TUNNEL point's latch or is refused. -/
  | pointWindowWrite (p : Path) (j : Nat) (hi : Bool) (data : Word)
  /-- PT_TUN_WRITE (R156): A write of PT_TUN sets or clears the TUNNEL writer of a point, checked whole. -/
  | ptTunWrite (p : Path) (pt : Nat) (data : Word)
  /-- PT_DEF_WRITE (R182): A PT_DEF write defines, retypes or frees a point, checked whole. -/
  | ptDefWrite (p : Path) (pt : Nat) (data : Word)
  /-- PT_FORCE_WRITE (R169): A PT_FORCE write forces a point to the latched forced value or releases it. -/
  | ptForceWrite (p : Path) (pt : Nat) (data : Word)
  /-- CTX_DEF_WRITE (R158): A CTX_DEF write sets a context's state, class and rights, refused when freeing a context in use. -/
  | ctxDefWrite (p : Path) (c : Nat) (data : Word)
  /-- CTX_WIN_WRITE (R168): A CTX_WIN write moves or resizes a context's window, checked under R167 and R168. -/
  | ctxWinWrite (p : Path) (c : Nat) (data : Word)
  /-- GRANT_WRITE (R165): A GR_DST write applies a share grant entry, checked whole. -/
  | grantWrite (p : Path) (g : Nat) (data : Word)
  /-- CR_DEF_WRITE (R178): A CR_DEF write applies a credential entry, checked for duplicates and ownership. -/
  | crDefWrite (p : Path) (n : Nat) (data : Word)
  /-- ENTRY_LATCH_WRITE (R180): A write of a latched entry word is held in the path's entry latch until an effect word. -/
  | entryLatchWrite (p : Path) (page : Nat) (al : Alias) (ia : Nat) (data : Word)
  /-- HWM_CLR (R186): A HWM_CLR pulse sets a high-water mark to the current count. -/
  | hwmClr (p : Path) (page : Nat) (data : Word)
  /-- BASE_ANCHOR (R197): A base anchor starts a base cycle for its due set, or counts an overrun and skips. -/
  | baseAnchor
  /-- INPUT_COMMIT (R197): At a+T_IN every staged input value becomes its point's value in one ft. -/
  | inputCommit
  /-- PROGRAM_DISPATCH (R197): A lane starts its next due cyclic program after 2 ft of dispatch. -/
  | programDispatch (l : Nat)
  /-- EVENT_TASK_DISPATCH (R210): A lane finds a bound source pending, takes it and runs the event task. -/
  | eventTaskDispatch (l : Nat)
  /-- OUTPUT_COMMIT (R197): When the last lane finishes, held stores become point values and retained copies are committed. -/
  | outputCommit
  /-- OUTPUT_PHASE_END (R197): Output building and levelling end after T_OUT and COPY starts or the cycle ends. -/
  | outputPhaseEnd
  /-- EVB_WRITE (R209): A write of SCN.EVB_e binds or unbinds an event task, checked for INVALID and BUDGET. -/
  | evbWrite (p : Path) (e : Nat) (data : Word)
  /-- LANE_HALT (R225): Setting LANE_CTL.HALT stops the lane at its next instruction boundary. -/
  | laneHalt (p : Path) (l : Nat)
  /-- LANE_STEP (R225): A STEP pulse executes one instruction of a halted lane. -/
  | laneStep (p : Path) (l : Nat)
  /-- PATH_ACQ (R213): A path writes LCK.PATH_ACQ to request a lock, receiving GRANTED, BUSY, ORDER or DENIED. -/
  | pathAcq (p : Path) (data : Word)
  /-- PATH_REL (R215): A path writes LCK.PATH_REL to release a lock. -/
  | pathRel (p : Path) (data : Word)
  /-- LOCK_QUEUE_GRANT (R215): The head of a lock queue is granted the lock the ft after a release. -/
  | lockQueueGrant (n : Nat)
  /-- LOCK_TIMEOUT (R215): A queued lock request's timeout expires and it returns TIMEOUT. -/
  | lockTimeout (l : Nat)
  /-- LOCK_HOLD_EXPIRY (R217): A hold passes HOLD_MAX: the lock is released BROKEN and a holding program faults LOCK_HOLD. -/
  | lockHoldExpiry (n : Nat)
  /-- LOCK_CFG_WRITE (R214): A LOCK_CFGn write sets owner and HOLD_MAX, checked for IN_USE and BUDGET. -/
  | lockCfgWrite (p : Path) (n : Nat) (data : Word)
  /-- NOP (R236): Instruction NOP does nothing. -/
  | nop (l : Nat) (f : Fields)
  /-- ADD (R233): Instruction ADD adds two operands modulo 2^64. -/
  | add (l : Nat) (f : Fields)
  /-- SUB (R233): Instruction SUB subtracts modulo 2^64. -/
  | sub (l : Nat) (f : Fields)
  /-- MUL (R233): Instruction MUL keeps the low 64 bits of the product. -/
  | mul (l : Nat) (f : Fields)
  /-- MULHS (R233): Instruction MULHS keeps the high 64 bits of the signed product. -/
  | mulhs (l : Nat) (f : Fields)
  /-- DIVS (R237): Instruction DIVS divides signed, faulting ARITH on division by zero. -/
  | divs (l : Nat) (f : Fields)
  /-- DIVU (R237): Instruction DIVU divides unsigned, faulting on division by zero. -/
  | divu (l : Nat) (f : Fields)
  /-- REMS (R237): Instruction REMS gives the signed remainder, faulting on division by zero. -/
  | rems (l : Nat) (f : Fields)
  /-- REMU (R237): Instruction REMU gives the unsigned remainder, faulting on division by zero. -/
  | remu (l : Nat) (f : Fields)
  /-- AND (R236): Instruction AND takes the bitwise and. -/
  | and (l : Nat) (f : Fields)
  /-- OR (R236): Instruction OR takes the bitwise or. -/
  | or (l : Nat) (f : Fields)
  /-- XOR (R236): Instruction XOR takes the bitwise exclusive or. -/
  | xor (l : Nat) (f : Fields)
  /-- SHL (R236): Instruction SHL shifts left by b mod 64. -/
  | shl (l : Nat) (f : Fields)
  /-- SHR (R236): Instruction SHR shifts right with zero fill. -/
  | shr (l : Nat) (f : Fields)
  /-- SAR (R236): Instruction SAR shifts right with sign fill. -/
  | sar (l : Nat) (f : Fields)
  /-- MINS (R236): Instruction MINS takes the signed minimum. -/
  | mins (l : Nat) (f : Fields)
  /-- MAXS (R236): Instruction MAXS takes the signed maximum. -/
  | maxs (l : Nat) (f : Fields)
  /-- ADDSAT (R233): Instruction ADDSAT adds signed with saturation. -/
  | addsat (l : Nat) (f : Fields)
  /-- SUBSAT (R233): Instruction SUBSAT subtracts signed with saturation. -/
  | subsat (l : Nat) (f : Fields)
  /-- LDI (R236): Instruction LDI loads the sign-extended immediate. -/
  | ldi (l : Nat) (f : Fields)
  /-- LDHI (R236): Instruction LDHI places the immediate in the high word. -/
  | ldhi (l : Nat) (f : Fields)
  /-- CEQ (R236): Instruction CEQ writes 1 if equal. -/
  | ceq (l : Nat) (f : Fields)
  /-- CNE (R236): Instruction CNE writes 1 if not equal. -/
  | cne (l : Nat) (f : Fields)
  /-- CLTS (R236): Instruction CLTS compares signed less-than. -/
  | clts (l : Nat) (f : Fields)
  /-- CLES (R236): Instruction CLES compares signed less-or-equal. -/
  | cles (l : Nat) (f : Fields)
  /-- CLTU (R236): Instruction CLTU compares unsigned less-than. -/
  | cltu (l : Nat) (f : Fields)
  /-- CLEU (R236): Instruction CLEU compares unsigned less-or-equal. -/
  | cleu (l : Nat) (f : Fields)
  /-- FADD (R233): Instruction FADD adds binary64 values. -/
  | fadd (l : Nat) (f : Fields)
  /-- FSUB (R233): Instruction FSUB subtracts binary64 values. -/
  | fsub (l : Nat) (f : Fields)
  /-- FMUL (R233): Instruction FMUL multiplies binary64 values. -/
  | fmul (l : Nat) (f : Fields)
  /-- FDIV (R233): Instruction FDIV divides binary64 values. -/
  | fdiv (l : Nat) (f : Fields)
  /-- FMIN (R238): Instruction FMIN takes the smaller value with NaN and zero rules. -/
  | fmin (l : Nat) (f : Fields)
  /-- FMAX (R238): Instruction FMAX takes the larger value with NaN and zero rules. -/
  | fmax (l : Nat) (f : Fields)
  /-- FSQRT (R233): Instruction FSQRT takes the square root. -/
  | fsqrt (l : Nat) (f : Fields)
  /-- FABS (R233): Instruction FABS clears the sign bit. -/
  | fabs (l : Nat) (f : Fields)
  /-- FNEG (R233): Instruction FNEG inverts the sign bit. -/
  | fneg (l : Nat) (f : Fields)
  /-- FCEQ (R238): Instruction FCEQ compares floating equality. -/
  | fceq (l : Nat) (f : Fields)
  /-- FCLT (R238): Instruction FCLT compares floating less-than. -/
  | fclt (l : Nat) (f : Fields)
  /-- FCLE (R238): Instruction FCLE compares floating less-or-equal. -/
  | fcle (l : Nat) (f : Fields)
  /-- CVTIF (R233): Instruction CVTIF converts INT64 to FLOAT64. -/
  | cvtif (l : Nat) (f : Fields)
  /-- CVTFI (R238): Instruction CVTFI truncates FLOAT64 to INT64 with clamping. -/
  | cvtfi (l : Nat) (f : Fields)
  /-- CVTSD (R233): Instruction CVTSD converts FLOAT32 to FLOAT64. -/
  | cvtsd (l : Nat) (f : Fields)
  /-- CVTDS (R233): Instruction CVTDS rounds FLOAT64 to FLOAT32. -/
  | cvtds (l : Nat) (f : Fields)
  /-- BR (R239): Instruction BR branches forward. -/
  | br (l : Nat) (f : Fields)
  /-- BZ (R239): Instruction BZ branches if the register is zero. -/
  | bz (l : Nat) (f : Fields)
  /-- BNZ (R239): Instruction BNZ branches if the register is non-zero. -/
  | bnz (l : Nat) (f : Fields)
  /-- LOOP (R240): Instruction LOOP runs its body a counted number of times. -/
  | loop (l : Nat) (f : Fields)
  /-- LEXIT (R239): Instruction LEXIT leaves the innermost loop. -/
  | lexit (l : Nat) (f : Fields)
  /-- CALL (R241): Instruction CALL pushes a frame and jumps to a declared function. -/
  | call (l : Nat) (f : Fields)
  /-- RET (R241): Instruction RET pops the frame and returns. -/
  | ret (l : Nat) (f : Fields)
  /-- END (R241): Instruction END ends the run at any depth, completing an event task's source. -/
  | endRun (l : Nat) (f : Fields)
  /-- LD (R242): Instruction LD loads a 64-bit word from a data section through the fabric. -/
  | ld (l : Nat) (f : Fields)
  /-- ST (R242): Instruction ST stores a 64-bit word to a data section. -/
  | st (l : Nat) (f : Fields)
  /-- STS (R243): Instruction STS ORs bits into a word atomically at the bank. -/
  | sts (l : Nat) (f : Fields)
  /-- STC (R243): Instruction STC clears bits of a word atomically at the bank. -/
  | stc (l : Nat) (f : Fields)
  /-- LDQ (R242): Instruction LDQ loads a 256-bit word into four registers. -/
  | ldq (l : Nat) (f : Fields)
  /-- STQ (R242): Instruction STQ stores four registers as a 256-bit word. -/
  | stq (l : Nat) (f : Fields)
  /-- PLD (R245): Instruction PLD loads a point by relative index. -/
  | pld (l : Nat) (f : Fields)
  /-- PLDX (R244): Instruction PLDX loads a point at an indexed relative index. -/
  | pldx (l : Nat) (f : Fields)
  /-- PST (R245): Instruction PST holds a value for a point until OUTPUT. -/
  | pst (l : Nat) (f : Fields)
  /-- PSTX (R244): Instruction PSTX holds a value for an indexed point. -/
  | pstx (l : Nat) (f : Fields)
  /-- TMR_TON (R247): Timer sub-operation TON. -/
  | tmrTon (l : Nat) (f : Fields)
  /-- TMR_TOF (R247): Timer sub-operation TOF. -/
  | tmrTof (l : Nat) (f : Fields)
  /-- TMR_TP (R247): Timer sub-operation TP. -/
  | tmrTp (l : Nat) (f : Fields)
  /-- TMR_TRD (R247): Timer sub-operation TRD reads elapsed time. -/
  | tmrTrd (l : Nat) (f : Fields)
  /-- TMR_TRST (R247): Timer sub-operation TRST resets the timer. -/
  | tmrTrst (l : Nat) (f : Fields)
  /-- EDG_RISE (R248): Edge sub-operation RISE. -/
  | edgRise (l : Nat) (f : Fields)
  /-- EDG_FALL (R248): Edge sub-operation FALL. -/
  | edgFall (l : Nat) (f : Fields)
  /-- EDG_BOTH (R248): Edge sub-operation BOTH. -/
  | edgBoth (l : Nat) (f : Fields)
  /-- LOCK_ACQUIRE (R250): LOCK with X = 0 requests a lock from the lock unit and waits for the decision. -/
  | lockAcquire (l : Nat) (f : Fields)
  /-- LOCK_RELEASE (R250): LOCK with X = 1 releases a held lock. -/
  | lockRelease (l : Nat) (f : Fields)
  /-- FENCE (R251): Instruction FENCE stalls until every posted write has applied. -/
  | fence (l : Nat) (f : Fields)
  /-- REGR (R252): Instruction REGR reads a register with the program's context. -/
  | regr (l : Nat) (f : Fields)
  /-- REGW (R252): Instruction REGW writes a register, posted when D is G0. -/
  | regw (l : Nat) (f : Fields)
  /-- POSTED_WRITE_END (R252): A posted REGW applies or ends, raising REG_DENIED against its program when denied. -/
  | postedWriteEnd (l : Nat)
  /-- MSG (R253): Instruction MSG copies a message image into buffers of a transmit queue. -/
  | msg (l : Nat) (f : Fields)
  /-- MSGR (R254): Instruction MSGR takes the oldest message of a receive queue. -/
  | msgr (l : Nat) (f : Fields)
  /-- EVT (R256): Instruction EVT presents an event record to Cairn. -/
  | evt (l : Nat) (f : Fields)
  /-- CRED (R257): Instruction CRED issues a credential lookup and waits for the result. -/
  | cred (l : Nat) (f : Fields)
  /-- CRED_LOOKUP (R175): The lookup unit accepts a lookup, evaluates the entry and decrements USES in its last ft. -/
  | credLookup (l : Nat)
  /-- NOW_CAPTURE (R258): NOW with X = 0 returns the capture-ft tick count. -/
  | nowCapture (l : Nat) (f : Fields)
  /-- NOW_TICK (R258): NOW with X = 1 returns the current tick count. -/
  | nowTick (l : Nat) (f : Fields)
  /-- NOW_CYCLE (R258): NOW with X = 2 returns the cycle stamp of the base anchor. -/
  | nowCycle (l : Nat) (f : Fields)
  /-- LOAD_BUFFER_WRITE (R267): A write to the program load buffer stores container bytes, ignored while BUSY. -/
  | loadBufferWrite (p : Path) (ofs : Nat) (data : Word)
  /-- LOAD (R269): Loader command LOAD verifies a container and places it in a FREE slot. -/
  | load (p : Path) (slot : Nat)
  /-- CHANGE (R273): Loader command CHANGE verifies new code into a beside slot for a running slot. -/
  | change (p : Path) (slot : Nat) (auto : Bool)
  /-- SWITCH (R273): Loader command SWITCH arms a READY change, checked for budget. -/
  | switch (p : Path) (slot : Nat)
  /-- ABORT (R273): Loader command ABORT frees a change's beside holder. -/
  | abort (p : Path) (slot : Nat)
  /-- UNLOAD (R280): Loader command UNLOAD frees a slot at its next switch cycle. -/
  | unload (p : Path) (slot : Nat)
  /-- RESTART (R280): Loader command RESTART makes a FAULTED slot ACTIVE. -/
  | restart (p : Path) (slot : Nat)
  /-- LOADER_COMMAND_COMPLETE (R272): A loader command completes after archiving and mirroring, and BUSY clears. -/
  | loaderCommandComplete
  /-- SWITCH_FT (R275): After the carry, the slot takes the new code and points are redefined. -/
  | switchFt
  /-- LOOP_SAMPLE_DONE (R287): The computation of a group's sample completes and its interrupt source fires. -/
  | loopSampleDone (g : Nat)
  /-- LOOP_ENABLE (R299): Setting LP_CTL.EN makes a loop RUNNING at its next group anchor. -/
  | loopEnable (p : Path) (n : Nat)
  /-- LOOP_DISABLE (R301): Clearing LP_CTL.EN stops a loop in its own ft. -/
  | loopDisable (p : Path) (n : Nat)
  /-- RECOVER (R306): A RECOVER pulse returns a FAULTED loop to RUNNING at the next anchor. -/
  | recover (p : Path) (n : Nat)
  /-- LP_DEF_CONFIGURE (R308): An LP_DEF write configures a loop entry, checked whole. -/
  | lpDefConfigure (p : Path) (n : Nat) (data : Word)
  /-- LP_DEF_FREE (R308): An LP_DEF write frees a STOPPED loop entry and removes its writer. -/
  | lpDefFree (p : Path) (n : Nat) (data : Word)
  /-- PID_TUNING_WRITE (R297): A write of a PID coefficient recomputes the derived words. -/
  | pidTuningWrite (p : Path) (n : Nat) (which : Nat) (data : Word)
  /-- SOS_CTL_WRITE (R295): An SOS_CTL write applies a section's coefficients at the next anchor. -/
  | sosCtlWrite (p : Path) (s : Nat) (data : Word)
  /-- OUT_LIMIT_WRITE (R292): A write of LP_OUT_MIN or LP_OUT_MAX is clamped against the other limit. -/
  | outLimitWrite (p : Path) (n : Nat) (isMax : Bool) (data : Word)
  /-- SAMPLE_PROCESSING (R317): The sample set of anchor n is processed at anchor n + 8: elements, quanta, totals, RMS and events. -/
  | sampleProcessing (codes : List Int)
  /-- PULSE_EMIT (R341): An output with pulses owed and T_OFF elapsed switches on and OWED decreases. -/
  | pulseEmit (n : Nat)
  /-- PULSE_OFF (R341): T_ON expires and the pulse output switches off. -/
  | pulseOff (n : Nat)
  /-- CH_DEF_WRITE (R348): A CH_DEF write configures a meter channel, checked for K, ledger and pulse use. -/
  | chDefWrite (p : Path) (c : Nat) (data : Word)
  /-- CH_WRAP_CLEAR (R326): A clear-alias write clears CH_WRAP bits. -/
  | chWrapClear (p : Path) (c : Nat) (data : Word)
  /-- PLS_CTL_WRITE (R342): A PLS_CTLn write enables or stops conversion of a pulse output. -/
  | plsCtlWrite (p : Path) (n : Nat) (data : Word)
  /-- PLS_SRC_WRITE (R342): A PLS_SRCn or PLS_WEIGHTn write, refused unless DRAINED. -/
  | plsSrcWrite (p : Path) (n : Nat) (weight : Bool) (data : Word)
  /-- HEAD_DETECTED (R331): A link in DETECT sees an MS-12 presence load and switches on the supply. -/
  | headDetected (k : Nat)
  /-- LINK_TRAINED (R332): Echo round trips measured: LNK_DELAY set and the link enters RUN. -/
  | linkTrained (k : Nat) (rounds : List Nat)
  /-- LINK_TIME_LIMIT (R331): POWER or TRAIN passes its time limit and the link returns to DETECT. -/
  | linkTimeLimit (k : Nat)
  /-- UP_FRAME (R334): An up frame from a head is received and checked for CRC and SEQ. -/
  | upFrame (k : Nat) (fr : UpFrame)
  /-- SENSE_SUPPLY_TRIP (R331): A sense-head supply trips its limit and the link enters FAULT. -/
  | senseSupplyTrip (k : Nat)
  /-- SENSE_LINK_RETRY (R53): 2 s after a failure the link retries detection. -/
  | senseLinkRetry (k : Nat)
  /-- CAN_FRAME_VALIDATED (R361): A validated CAN frame is filtered into a slot, queue or discard. -/
  | canFrameValidated (ch : Nat) (fr : BusFrame)
  /-- RX_QUEUE_ENTRY (R357): A filtered frame enters its receive queue within 16 ft. -/
  | rxQueueEntry (ch k : Nat)
  /-- TAKE_FOR_TRANSMISSION (R360): A channel takes the next transmission by priority and credits go in flight. -/
  | takeForTransmission (ch : Nat)
  /-- TRANSMISSION_END (R357): A transmission completes or is discarded and its credits return to AVAIL. -/
  | transmissionEnd (ch : Nat) (sent : Bool)
  /-- CAN_RECOVER (R368): CMD.RECOVER starts bus-off recovery. -/
  | canRecover (p : Path) (ch : Nat)
  /-- CAN_RECOVERED (R368): 128 occurrences of 11 recessive bits end recovery and the channel is ERROR_ACTIVE. -/
  | canRecovered (ch : Nat)
  /-- DALI_BACKWARD_FRAME (R371): A backward frame, or its absence at the end of the window, is queued with a status. -/
  | daliBackwardFrame (ch : Nat) (r : Backward)
  /-- DALI_EVENT_FRAME (R361): A received DALI event frame is filtered. -/
  | daliEventFrame (ch : Nat) (frame : BitVec 24)
  /-- DALI_COLLISION (R370): A detected collision abandons the transaction for retry. -/
  | daliCollision (ch : Nat)
  /-- BUS_FAIL (R372): The DALI bus stays low 500 ms: BUS_FAIL sets and the channel goes down. -/
  | busFail (ch : Nat)
  /-- BUS_FAIL_CLEAR (R372): The bus has been high 2.4 ms and BUS_FAIL clears. -/
  | busFailClear (ch : Nat)
  /-- OVERVOLT (R372): Overvoltage on a DALI channel sets OVERVOLT and switches the supply off. -/
  | overvolt (ch : Nat)
  /-- OVERVOLT_CLEAR (R372): A clear-alias write of OVERVOLT restores the supply. -/
  | overvoltClear (p : Path) (ch : Nat)
  /-- UART_MESSAGE_END (R374): GAP idle character times end a received UART message, placed in queue 8. -/
  | uartMessageEnd (port : Nat) (bytes : List Byte)
  /-- OSDP_REPLY (R375): A valid OSDP reply is queued or counted as POLL_ACK. -/
  | osdpReply (port : Nat) (addr : Nat) (bytes : List Byte)
  /-- OSDP_REPLY_TIMEOUT (R375): REPLY_TO passes with no reply: resent, or the entry goes offline. -/
  | osdpReplyTimeout (port : Nat)
  /-- QCFG_WRITE (R358): A QCFGk write configures a queue, refused IN_USE when it holds messages. -/
  | qcfgWrite (p : Path) (ch k : Nat) (data : Word)
  /-- CRD_ALLOC_WRITE (R356): A CRD_ALLOC write moves credits between the free pool and a context. -/
  | crdAllocWrite (p : Path) (c : Nat) (data : Word)
  /-- MAP_DEF_WRITE (R363): A MAP_DEF write applies a bus mapping, checked whole. -/
  | mapDefWrite (p : Path) (ch m : Nat) (data : Word)
  /-- FLT_ACT_WRITE (R361): A FLT_ACT write applies a filter entry. -/
  | fltActWrite (p : Path) (ch fl : Nat) (data : Word)
  /-- OF_CFG_WRITE (R363): An OF_CFG write applies an output frame entry. -/
  | ofCfgWrite (p : Path) (ch o : Nat) (data : Word)
  /-- POLL_DEF_WRITE (R379): A POLL_DEF write applies a poll entry, checking the key slot owner. -/
  | pollDefWrite (p : Path) (port e : Nat) (data : Word)
  /-- BIT_TIMING_WRITE (R367): An NBT, DBT or TDC write, refused unless MODE is OFF. -/
  | bitTimingWrite (p : Path) (ch : Nat) (which : Nat) (data : Word)
  /-- ETH_LINK_CHANGE (R384): An Ethernet port's link goes up or down. -/
  | ethLinkChange (port : Nat) (up : Bool) (gigabit eee : Bool)
  /-- PORT_CTL_WRITE (R384): A PORT_CTL write that changes SPEED or ANEG restarts the link. -/
  | portCtlWrite (p : Path) (port : Nat) (data : Word)
  /-- SFP_PRESENCE_CHANGE (R56): A transceiver is inserted or removed, accepted or refused. -/
  | sfpPresenceChange (present optical : Bool)
  /-- SFP_CACHE_REFRESH (R385): Once a second the SFF-8472 pages are read into the cache. -/
  | sfpCacheRefresh (bytes : List Byte)
  /-- LPI_ENTRY (R386): The transmit queue stays empty LPI_IDLE µs and UPL1 enters low-power idle. -/
  | lpiEntry
  /-- LLDP_EEE_TLV (R387): A received LLDP EEE TLV updates the resolved wake time. -/
  | lldpEeeTlv (wake : Nat)
  /-- T1S_COLLISION (R388): A collision on a T1S port starts back-off or drops the frame. -/
  | t1sCollision (port : Nat) (late : Bool)
  /-- PLCA_WRITE (R390): A PLCA_CFG or PLCA_BURST write, refused unless MODE is OFF. -/
  | plcaWrite (p : Path) (port : Nat) (burst : Bool) (data : Word)
  /-- TUNNEL_DATAGRAM (R393): A received tunnel datagram is checked and discarded or queued as authentic. -/
  | tunnelDatagram (g : Gram)
  /-- TUNNEL_REQUEST (R395): The engine takes an authentic request and executes, holds, resends or answers it by sequence. -/
  | tunnelRequest
  /-- REORDER_TIMEOUT (R396): A held request's gap stays open REORDER_MS and held requests are discarded. -/
  | reorderTimeout (s : Nat)
  /-- SESSION_IDLE (R400): No authentic request for IDLE_S seconds closes the session. -/
  | sessionIdle (s : Nat)
  /-- SES_DEF_WRITE (R399): A SES_DEF write configures a session, checked whole. -/
  | sesDefWrite (p : Path) (s : Nat) (data : Word)
  /-- SES_CTL_CLOSE (R400): A SES_CTL.CLOSE pulse closes a session. -/
  | sesCtlClose (p : Path) (s : Nat)
  /-- FABRIC_REQUEST (R410): A master raises a fabric request and enters the queue. -/
  | fabricRequest (m beats addr : Nat)
  /-- PATH_GRANT (R407): A data path frees or is free and the queue head is granted it. -/
  | pathGrant
  /-- STARVATION (R415): A request waits longer than STARVE_TH and is counted once. -/
  | starvation (m : Nat)
  /-- SIDEBAND_ASSERT (R413): A master's sideband line asserts and its request and parking are removed. -/
  | sidebandAssert (m : Nat) (on : Bool)
  /-- BANK_PWR_WRITE (R418): A BANK_PWR write changes bank power states, refused for allocated banks. -/
  | bankPwrWrite (p : Path) (which : Nat) (data : Word)
  /-- BANK_STATE_REACHED (R419): A bank reaches its new power state after 400 or 16,384 ft. -/
  | bankStateReached (b : Nat)
  /-- SCRUB (R424): Every DIV ft the scrubber reads and corrects one word of each ON bank. -/
  | scrub (e : Errors)
  /-- BT_REGION_START (R426): The background test starts a region: copy, March C− test and copy back. -/
  | btRegionStart
  /-- BT_REGION_END (R426): A region test completes and redirection ends. -/
  | btRegionEnd (fail : Option (Nat × Nat))
  /-- SWSET (R428): A write of INT.SWSET fires software sources. -/
  | swset (p : Path) (data : Word)
  /-- TAKE (R430): A write of INT.TAKE takes a pending source. -/
  | take (p : Path) (data : Word)
  /-- DONE (R430): A write of INT.DONE completes an active source. -/
  | done (p : Path) (data : Word)
  /-- ROUTE_WRITE (R429): A ROUTEn write sets the consumer of a source, checked. -/
  | routeWrite (p : Path) (n : Nat) (data : Word)
  /-- EN_EFFECT (R432): An INT.EN write takes effect 3 ft later, possibly redelivering. -/
  | enEffect
  /-- SECOND_ROLLOVER (R439): The RTC divider completes a second and the time advances, or the roll-over is held. -/
  | secondRollover
  /-- TIME_REGISTER_WRITE (R440): A write of a time register reaches its shadow, loading all shadows on the first write. -/
  | timeRegisterWrite (p : Path) (ofs : Nat) (data : Word)
  /-- RTC_COMMIT_INSTANT (R441): The backup domain applies a time commit, restarting the divider and evaluating alarms. -/
  | rtcCommitInstant
  /-- TIME_READ (R442): A read of SUBSEC to HOUR and date starts or continues a freeze. -/
  | timeRead (p : Path) (ofs : Nat)
  /-- CENT_READ (R443): A read of CENT ends the freeze and applies held roll-overs. -/
  | centRead (p : Path)
  /-- ALARM_CTL_WRITE (R445): An ALa_CTL write re-arms an alarm and clears DONE. -/
  | alarmCtlWrite (p : Path) (a : Nat) (data : Word)
  /-- BACKUP_SUPPLY_LOST (R449): VBAK falls below 1.8 V and the clock stops, becoming INVALID at the next power-on. -/
  | backupSupplyLost
  /-- TEMP_COMPENSATION (R450): Once a second the on-die sensor updates the compensation value. -/
  | tempCompensation (temp : Int)
  /-- VBAK_LOW (R448): VBAK falls below 2.20 V and VBAK_LOW sets. -/
  | vbakLow (mV : Nat)
  /-- RECORD_WRITTEN (R456): A buffered record is written to MRAM and becomes visible. -/
  | recordWritten
  /-- HOURLY_MARK (R453): Every 3,600 s of tick count Cairn writes a MARK. -/
  | hourlyMark
  /-- CAIRN_FREEZE (R459): A write of CTL.FREEZE = 1 freezes the log. -/
  | cairnFreeze (p : Path) (data : Word)
  /-- CAIRN_UNFREEZE (R460): A write of CTL.FREEZE = 0 ends the freeze and writes the queue to the ring. -/
  | cairnUnfreeze (p : Path) (data : Word)
  /-- FREEZE_MAX_EXPIRY (R460): FREEZE_MAX seconds pass and the freeze ends with FRZ_TMO. -/
  | freezeMaxExpiry
  /-- CAIRN_RELEASE (R458): A write of CRN.RELEASE releases records before a boundary. -/
  | cairnRelease (p : Path) (data : Word)
  /-- QUOTA_WRITE (R455): A QUOTA write sets a context's Cairn quota, checked. -/
  | quotaWrite (p : Path) (c : Nat) (data : Word)
  /-- LC_ADV (R468): A write of KEY.LC_ADV starts a lifecycle transition or is refused. -/
  | lcAdv (p : Path) (data : Word)
  /-- LIFECYCLE_TRANSITION_END (R467): The lifecycle transition completes: slots resealed, fuse blown, old area erased. -/
  | lifecycleTransitionEnd (trng : BitVec 256)
  /-- SUBMIT (R477): KUM_CMD.SUBMIT hands a key-update message to the vault. -/
  | submit (p : Path)
  /-- KEY_UPDATE_COMPLETE (R478): The vault completes a message, applying LOAD, DERIVE, ERASE or RETURN or refusing it. -/
  | keyUpdateComplete (trng : BitVec 256)
  /-- ATTEST (R470): KUM_CMD.ATTEST signs the attestation digest with the identity key. -/
  | attest (p : Path)
  /-- PLAIN_KEY_GO (R475): A PLAIN_CTL write with GO seals a plain key into a FREE slot. -/
  | plainKeyGo (p : Path) (data : Word)
  /-- FUSE_BLOW (R479): A write to an RW fuse register starts blowing the bits written as 1. -/
  | fuseBlow (p : Path) (ofs : Nat) (data : Word)
  /-- FUSE_BLOW_COMPLETE (R479): A fuse blow completes and the new value takes effect. -/
  | fuseBlowComplete
  /-- CLAIM (R488): UPD command CLAIM makes the path the buffer owner. -/
  | claim (p : Path)
  /-- RELEASE (R488): UPD command RELEASE ends buffer ownership. -/
  | release (p : Path)
  /-- BEGIN (R488): UPD command BEGIN discards staging content and awaits a manifest. -/
  | updBegin (p : Path)
  /-- MANIFEST_CHUNK (R489): UPD command MANIFEST_CHUNK stores a manifest chunk, checking the manifest when complete. -/
  | manifestChunk (p : Path) (i : Nat) (readBackOk : Bool)
  /-- CHUNK (R490): UPD command CHUNK checks and stores an image chunk. -/
  | chunk (p : Path) (i : Nat) (readBackOk : Bool)
  /-- IMAGE_DIGEST_CHECK (R491): After the last chunk the staging slot is checked against IMAGE_DIGEST. -/
  | imageDigestCheck (unread bad : List Nat)
  /-- INSTALL (R493): UPD command INSTALL arms the staging image. -/
  | install (p : Path)
  /-- UPD_ABORT (R488): UPD command ABORT discards the staging content. -/
  | updAbort (p : Path)
  /-- CONFIRM (R495): UPD command CONFIRM provides external confirmation of a trial image. -/
  | confirm (p : Path)
  /-- REVERT (R496): UPD command REVERT falls back from a trial image. -/
  | revert (p : Path)
  /-- BUFFER_OWNER_TIMEOUT (R488): 60 s without a buffer access by the owner ends ownership. -/
  | bufferOwnerTimeout
  /-- HEALTH_LEFT_TICK (R494): Each second on trial HEALTH_LEFT decreases, and at 0 the module falls back. -/
  | healthLeftTick
  /-- TRIAL_CONFIRMATION (R495): A trial image confirms itself once all health conditions hold. -/
  | trialConfirmation
  /-- COL_LINK_TRAINED (R505): The Col link trains, measures LINK_DELAY and becomes UP. -/
  | colLinkTrained (rounds : List Nat)
  /-- COL_LINK_DOWN (R505): The Col link loses K28.5 or sees invalid symbols and goes down. -/
  | colLinkDown
  /-- HEALTH (R517): A received HEALTH frame updates partner status and may decide roles. -/
  | health (h : HealthFrame)
  /-- TIME (R508): A received TIME frame gives SKEW and realigns a standby's counters and origin. -/
  | time (t : TimeFrame)
  /-- COPY_START (R514): COPY captures up to 13,312 dirty words and sends them. -/
  | copyStart
  /-- COPY_DATA (R516): A received COPY_DATA frame is written in place or to the receive log. -/
  | copyData (seq : Word) (index : Nat) (words : List (Nat × BitVec 256))
  /-- COPY_END (R516): A received COPY_END is checked and answered with ACK or NAK, and the log applied. -/
  | copyEnd (seq : Word) (sent : Nat) (final : Bool)
  /-- COPY_ACK (R515): A received COPY_ACK ends the COPY, or a NAK marks all words dirty. -/
  | copyAck (seq : Word) (nak : Bool)
  /-- COPY_ACK_TIMEOUT (R515): No ACK within 440,000 ft: the COPY ends as a NAK. -/
  | copyAckTimeout
  /-- LOG_APPLY_COMPLETE (R516): The standby finishes applying its receive log. -/
  | logApplyComplete
  /-- MIRROR_REQ (R522): A received MIRROR_REQ is executed as the Col link mirror path. -/
  | mirrorReq (req : Word) (write : Bool) (addr data : Word)
  /-- MIRROR_RSP (R522): A received MIRROR_RSP completes a mirror access. -/
  | mirrorRsp (req : Word) (data : Word) (status : BitVec 8)
  /-- ARCHIVE_LIST (R523): A received ARCHIVE_LIST lets the primary send differing containers. -/
  | archiveList (items : List (Nat × Nat × Word))
  /-- ARCHIVE_DATA (R523): A received ARCHIVE_DATA frame stores container bytes. -/
  | archiveData (slot gen ofs : Nat) (bytes : List Byte)
  /-- ECHO (R505): An ECHO frame is turned round for delay measurement. -/
  | echo
  /-- COL_FRAME_ERROR (R506): A frame with bad CRC or unknown TYPE is discarded and counted. -/
  | colFrameError
  /-- MIR_READ (R522): MIR_CMD.READ issues a mirror read to the partner. -/
  | mirRead (p : Path)
  /-- MIR_WRITE (R522): MIR_CMD.WRITE issues a mirror write to the partner. -/
  | mirWrite (p : Path)
  /-- MIRROR_TIMEOUT (R522): No MIRROR_RSP within 2 ms: the access ends TIMEOUT. -/
  | mirrorTimeout
  /-- HEARTBEAT_DECISION (R518): After HB_WIN, or the guard delay, the standby decides whether to take over. -/
  | heartbeatDecision
  /-- PEER_LOST (R517): No HEALTH frame for LOST_N half-cycles: the primary declares the standby lost. -/
  | peerLost
  /-- JOIN_WAIT_EXPIRY (R512): JOIN_WAIT passes with no HEALTH frame and the module runs SOLO. -/
  | joinWaitExpiry
  /-- FAULT_DELAY_EXPIRY (R541): FAULT_DELAY passes and the module resets with cause FAULT or enters HALTED. -/
  | faultDelayExpiry (b : BootFacts)
  /-- SYS_RESTART (R547): A SYS.RESTART write starts a save and a COMMAND reset. -/
  | sysRestart (p : Path) (data : Word)
  /-- SUPERVISOR_WATCHDOG_EXPIRY (R542): The supervisor watchdog is not kicked for 500 ms: module fault and system reset. -/
  | supervisorWatchdogExpiry (b : BootFacts)
  /-- DI_EDGE (R63): A filtered digital-input edge is stamped, counted and made pending. -/
  | diEdge (n : Nat) (rising : Bool) (stamp : Nat)
  /-- DI_STAMP_READ (R64): A read of DI_TSn_HI marks the stamp as read. -/
  | diStampRead (p : Path) (n : Nat)
  /-- DI_MAP_WRITE (R66): A DI_MAPn write ties an input to a point, checked whole. -/
  | diMapWrite (p : Path) (n : Nat) (data : Word)
  /-- DO_MAP_WRITE (R66): A DO_MAPm write ties an output to a point. -/
  | doMapWrite (p : Path) (m : Nat) (data : Word)
  /-- DO_TRIP (R67): An output trips on overcurrent or over-temperature and switches off. -/
  | doTrip (m : Nat)
  /-- DO_FAULT_CLEAR (R67): A clear-alias write of DO_FAULT lets the output follow its source again. -/
  | doFaultClear (p : Path) (data : Word)
  /-- OPEN_LOAD (R67): Open-load detection on an off output sets its open-load bit. -/
  | openLoad (m : Nat)
  /-- MAINS_GOOD_IN_DOWN (R85): In DOWN, the power supervisor sees mains good and the module restarts as after SAVE. -/
  | mainsGoodInDown (b : BootFacts)
  /-- V_READY_CROSSING (R76): The store voltage rises through V_READY or falls below 5.00 V, changing HOLDUP_STAT.READY, setting PWR.IRQ_PEND bit 3 and ending the start-up capacitance measurement. -/
  | vReadyCrossing (mV : Nat)
  /-- RAIL_RECOVERED (R73): After a rail reset the 3.3 V, 1.8 V and core rails have been back in tolerance for 10 µs and the power-on reset is released. -/
  | railRecovered (b : BootFacts)
  /-- DIO_SUPPLY_CHANGE (R61): J15 crosses 18.0 V or 17.0 V, or the 24V_SNS supply enters or leaves regulation or current limit, changing DIO_SUP and setting IRQ_PEND bit 2. -/
  | dioSupplyChange (ext sns limit : Bool)
  /-- CABLE_PRESENCE_CHANGE (R56): A CLC cable is inserted into or removed from J10, and its identity is accepted or refused, setting PAR.IRQ_PEND bit 5 on refusal. -/
  | cablePresenceChange (metres : Nat) (present clc : Bool)
  /-- DALI_SUPPLY_CUTOFF (R51): A J4 DALI bus supply trips its overcurrent or over-temperature cut-off and reports in its DAL page. -/
  | daliSupplyCutoff (ch : Nat)
  /-- HEAD_IDLE_SYMBOLS (R331): A sense link in POWER receives idle symbols from the head and enters TRAIN. -/
  | headIdleSymbols (k : Nat)
  /-- CAN_INTEGRATED (R366): A CAN channel leaving OFF has seen 11 recessive bits and begins to take part on the bus. -/
  | canIntegrated (ch : Nat)
  /-- CAN_BUS_ERROR (R368): A CAN channel detects a bus error and raises its error counters, possibly entering ERROR_PASSIVE (IRQ_PEND bit 1) or BUS_OFF. -/
  | canBusError (ch : Nat) (tec rec : Nat)
  /-- PLCA_STATUS_CHANGE (R389): The clause 148 PLCA status of a T1S port becomes true or false, switching between PLCA and CSMA/CD and counting BEACON_LOSS. -/
  | plcaStatusChange (port : Nat) (ok : Bool)
  /-- ETH_FRAME_RECEIVED (R382): An Ethernet port receives a frame other than a tunnel datagram or an LLDP EEE TLV (ARP, NDP, DHCP and others), counted in its statistics. -/
  | ethFrameReceived (port : Nat) (octets : Nat) (fcsOk : Bool)
  /-- HANDOVER_TIMEOUT (R519): 1 s after a power-fail decision or a commanded restart with no acknowledged FINAL COPY, the primary proceeds without HANDOVER or LEAVING. -/
  | handoverTimeout
  /-- GRATUITOUS_ARP_REPEAT (R521): A new primary sends its second and third gratuitous ARP and unsolicited neighbour advertisements 1 s apart. -/
  | gratuitousArpRepeat
  /-- UPD_COMMAND_COMPLETE (R488): A UPD command in progress completes and STATE.BUSY clears. -/
  | updCommandComplete
  /-- ATTEST_COMPLETE (R470): The vault completes an ATTEST command and places the signature in ATT_SIG. -/
  | attestComplete (k : BitVec 256)
  /-- SUPERVISOR_CONSISTENCY_FAULT (R538): A consistency check of the supervisor firmware raises the module fault SOFTWARE. -/
  | supervisorConsistencyFault
deriving DecidableEq, Repr

end Sys2Proof
end

