-- ==== Sys2Proof/Config.lean ====
section
/-! DEFINITION. What one hardware issue fixes (Tables DOC-2, ARCH-2, FAB-1, SYS-1), the page index of Table REG-2,
the access statuses of Table REG-10, and the one free value of the model. -/

namespace Sys2Proof.Config

/-- The value of something the spec leaves open, drawn once per draw number (`State.fresh`, log entry 5).
It has no body, so a statement that holds, holds for every value. -/
opaque freeValue : Nat → BitVec 64

/-- The next output of a Rogowski integrator (R316), in codes, from CTL.FNOM, the ft since the sample before, its last output and its
input: the spec gives its corner and its gain at FNOM and no recurrence, so it is a free function (log entry 57). -/
opaque integrator : Bool → Nat → Int → Int → Int

/-- The voltage of a DALI bus as DAL.BUS_V measures it (Table DAL-1), in mV, by channel and tick: nothing that the block is told settles it
(log entry 59). -/
opaque busVoltage : Nat → Nat → BitVec 16

/-- The image-signing public keys that the boot ROM holds (R487), x · 2^256 + y by KEY_ID: the spec gives their number and no value
(log entry 16). -/
opaque signingKey : Nat → BitVec 512

/-- ft in one microsecond, millisecond and second (Table DOC-3: one ft is 2.5 ns). -/
abbrev ftPerUs : Nat := 400
abbrev ftPerMs : Nat := 400000
abbrev ftPerS : Nat := 400000000

/-- One turn and one half-cycle in angle units (Table DOC-3). -/
abbrev turn : Nat := 4294967296
abbrev halfCycle : Nat := 2147483648

/-- Access statuses (Table REG-10). -/
abbrev stOk : Nat := 0x00
abbrev stDenied : Nat := 0x01
abbrev stAbsent : Nat := 0x02
abbrev stTimeout : Nat := 0x03
abbrev stCapacity : Nat := 0x10
abbrev stWriterConflict : Nat := 0x11
abbrev stForcedPointRemoved : Nat := 0x12
abbrev stCommitRefused : Nat := 0x13

/-- Refusal statuses of the block chapters (Tables PTM-11, SCN-5, LPE-4, KEY-6, UPD-7). -/
abbrev stDuplicate : Nat := 0x14
abbrev stInUse : Nat := 0x15
abbrev stInvalid : Nat := 0x16

/-- Statuses of the scan engine and the loader (Tables SCN-1, ISA-10 and LDR-12). -/
abbrev stBudget : Nat := 0x20
abbrev stEncoding : Nat := 0x21
abbrev stFlow : Nat := 0x22
abbrev stCallDepth : Nat := 0x23
abbrev stLockSpan : Nat := 0x24
abbrev stContainer : Nat := 0x25
abbrev stGeneration : Nat := 0x26
abbrev stCarry : Nat := 0x27
abbrev stSlotState : Nat := 0x28
abbrev stLoaderBusy : Nat := 0x29
abbrev stPidRight : Nat := 0x2A

/-- Statuses of the vault (Table KEY-6). -/
abbrev stKumAuth : Nat := 0x30
abbrev stKumCounter : Nat := 0x31
abbrev stSlotLocked : Nat := 0x32
abbrev stLifecycle : Nat := 0x33
abbrev stFuseLocked : Nat := 0x34
abbrev stVaultBusy : Nat := 0x35
abbrev stNotReady : Nat := 0x36

/-- Statuses of the update engine (Table UPD-7). -/
abbrev stManSig : Nat := 0x38
abbrev stManFormat : Nat := 0x39
abbrev stChunkHash : Nat := 0x3A
abbrev stUpdState : Nat := 0x3B
abbrev stSecVersion : Nat := 0x3C
abbrev stUpdBusy : Nat := 0x3D

/-- Page numbers (Table REG-2). -/
abbrev pgCAP : Nat := 0x00
abbrev pgSYS : Nat := 0x01
abbrev pgPWR : Nat := 0x02
abbrev pgPHT : Nat := 0x03
abbrev pgFAB : Nat := 0x04
abbrev pgINT : Nat := 0x05
abbrev pgPTM : Nat := 0x06
abbrev pgSCN : Nat := 0x07
abbrev pgSCL (l : Nat) : Nat := 0x08 + l
abbrev pgLCK : Nat := 0x10
abbrev pgLPE : Nat := 0x11
abbrev pgMTR : Nat := 0x12
abbrev pgMLG : Nat := 0x13
abbrev pgPLS : Nat := 0x14
abbrev pgPQE : Nat := 0x15
abbrev pgCAN (n : Nat) : Nat := 0x18 + n
abbrev pgDAL (n : Nat) : Nat := 0x20 + n
abbrev pgRSB (n : Nat) : Nat := 0x24 + n
abbrev pgT1S (n : Nat) : Nat := 0x28 + n
abbrev pgUPL (n : Nat) : Nat := 0x2A + n
abbrev pgTUN : Nat := 0x2C
abbrev pgKEY : Nat := 0x2D
abbrev pgUPD : Nat := 0x2E
abbrev pgPAR : Nat := 0x2F
abbrev pgRTC : Nat := 0x30
abbrev pgCRN : Nat := 0x31
abbrev pgFUS : Nat := 0x32
abbrev pgSNS : Nat := 0x33
abbrev pgDIO : Nat := 0x34

/-- PAGE_ID.TYPE of a page (Table REG-2); 0 for an unassigned page (R123). -/
def pageType (pg : Nat) : Nat :=
  if pg ≤ 0x07 then pg + 1
  else if pg ≤ 0x0F then 0x0009
  else if pg ≤ 0x15 then pg - 6
  else if pg ≤ 0x17 then 0
  else if pg ≤ 0x1D then 0x0010
  else if pg ≤ 0x1F then 0
  else if pg ≤ 0x23 then 0x0011
  else if pg ≤ 0x27 then 0x0012
  else if pg ≤ 0x29 then 0x0013
  else if pg ≤ 0x34 then pg - 0x16
  else 0

/-- The digit of a page's mnemonic (PAGE_ID.INSTANCE, Table REG-4). -/
def pageInstance (pg : Nat) : Nat :=
  if 0x08 ≤ pg ∧ pg ≤ 0x0F then pg - 0x08
  else if 0x18 ≤ pg ∧ pg ≤ 0x1D then pg - 0x18
  else if 0x20 ≤ pg ∧ pg ≤ 0x23 then pg - 0x20
  else if 0x24 ≤ pg ∧ pg ≤ 0x27 then pg - 0x24
  else if pg = 0x29 ∨ pg = 0x2B then 1
  else 0

/-- The pages of method Indirect (Table REG-2). -/
abbrev pageIndirect (pg : Nat) : Bool := pg = pgPWR ∨ pg = pgRTC ∨ pg = pgFUS ∨ pg = pgSNS

/-- The permission classes of Table REG-2, numbered as Table FUS-2 numbers them. -/
inductive PageClass where
  | id | system | control | meter | comms | secure
deriving DecidableEq, Repr

/-- The permission class of a page (Table REG-2). -/
def pageClass (pg : Nat) : PageClass :=
  if pg = pgCAP then .id
  else if pg ≤ pgINT ∨ pg = pgPAR ∨ pg = pgRTC ∨ pg = pgCRN then .system
  else if pg ≤ pgLPE ∨ pg = pgDIO then .control
  else if pg ≤ 0x17 ∨ pg = pgSNS then .meter
  else if pg ≤ 0x2B then .comms
  else .secure

/-- The pages absent on the MF2048-A (R5). -/
abbrev absentOnSmall (pg : Nat) : Bool := (0x0C ≤ pg ∧ pg ≤ 0x0F) ∨ pg = pgSNS

/-- IRQ_PEND bits 0 to IRQ_BITS − 1 are defined (Table REG-5); the counts that the block chapters state. -/
def irqBits (pg : Nat) : Nat :=
  if pg = pgSYS then 4 else if pg = pgPWR then 6 else if pg = pgPHT then 9
  else if pg = pgFAB then 6 else if pg = pgPTM then 5 else if pg = pgSCN then 5
  else if pg ≤ pgINT then 0
  else if pg ≤ 0x0F then 3
  else if pg = pgLCK then 4 else if pg = pgLPE then 4 else if pg = pgMTR then 6
  else if pg ≤ pgPQE then 3
  else if pg = 0x18 then 6
  else if pg ≤ 0x27 then 5
  else if pg ≤ 0x2C then 4
  else if pg = pgKEY then 5 else if pg = pgUPD then 6 else if pg = pgPAR then 7
  else if pg = pgRTC then 5 else if pg = pgCRN then 4 else if pg = pgFUS then 2
  else if pg = pgSNS then 3 else if pg = pgDIO then 4 else 0

/-- The live counters that a snapshot of the page copies (R136): the indirect or direct offset of the first,
and how many words follow it, 4 apart. SNS holds four counters for each of three links and is listed apart. -/
def snapSpan (pg : Nat) : Nat × Nat :=
  if pg = pgSYS then (0x100, 6) else if pg = pgPHT then (0x0A0, 7)
  else if pg = pgFAB then (0x200, 72) else if pg = pgINT then (0x200, 130)
  else if pg = pgPTM then (0x080, 5) else if pg = pgSCN then (0x100, 27)
  else if pg ≤ pgSCN then (0, 0)
  else if pg ≤ 0x0F then (0x100, 5)
  else if pg = pgLCK then (0x080, 6) else if pg = pgLPE then (0x200, 6)
  else if pg = pgMTR then (0x080, 5) else if pg = pgMLG then (0x090, 1)
  else if pg = pgPLS then (0x200, 8) else if pg = pgPQE then (0x100, 12)
  else if pg ≤ 0x1D then (0x100, 15)
  else if pg ≤ 0x23 then (0x100, 13)
  else if pg ≤ 0x27 then (0x100, 12)
  else if pg ≤ 0x29 then (0x100, 12)
  else if pg ≤ 0x2B then (0x100, 11)
  else if pg = pgTUN then (0x100, 12) else if pg = pgKEY then (0x200, 4)
  else if pg = pgUPD then (0x100, 6) else if pg = pgPAR then (0x100, 12)
  else if pg = pgRTC then (0x200, 3) else if pg = pgCRN then (0x080, 5)
  else if pg = pgDIO then (0x100, 16) else (0, 0)

/-- Holding words in use from 0xC00 (PAGE_CAP.SNAP_WORDS). CAN0 also holds CRD_SNAP0 to CRD_SNAP3 at 0xC80 (Table BUS-8),
SNS four counters for each link (Table SNS-4). -/
def snapWords (pg : Nat) : Nat :=
  if pg = 0x18 then 36 else if pg = pgSNS then 12 else (snapSpan pg).2

/-- The pages with shadowed registers (PAGE_CAP.SHD). -/
abbrev pageShadowed (pg : Nat) : Bool :=
  pg = pgPHT ∨ pg = pgFAB ∨ pg = pgSCN ∨ pg = pgLPE ∨ pg = pgMLG ∨ (0x20 ≤ pg ∧ pg ≤ 0x27) ∨ pg = pgRTC

/-- Variant limits (Table DOC-2); `small` is the MF2048-A. -/
abbrev pointLimit (small : Bool) : Nat := if small then 2048 else 8192
abbrev ctxLimit (small : Bool) : Nat := if small then 128 else 512
abbrev laneLimit (small : Bool) : Nat := if small then 4 else 8
abbrev slotLimit (small : Bool) : Nat := if small then 256 else 1024
abbrev grantLimit (small : Bool) : Nat := if small then 512 else 2048
abbrev credLimit (small : Bool) : Nat := if small then 3072 else 12288
abbrev lockLimit (small : Bool) : Nat := if small then 64 else 256
abbrev cascadeLimit (small : Bool) : Nat := if small then 256 else 1024
abbrev sosLimit (small : Bool) : Nat := if small then 1024 else 4096
abbrev pidLimit (small : Bool) : Nat := if small then 16 else 64
abbrev channelLimit (small : Bool) : Nat := if small then 12 else 48
abbrev keyLimit (small : Bool) : Nat := if small then 256 else 1024
abbrev creditTotal (small : Bool) : Nat := if small then 1024 else 4096
abbrev cairnBytes (small : Bool) : Nat := if small then 0x80000 else 0x200000

end Sys2Proof.Config
end

