-- ==== Sys2Proof/Machine/Bits.lean ====
section
/-! DEFINITION. Reading and placing bit fields of a register word ([msb:lsb] with bit 0 least significant, the
notation of file 00), two's-complement readings, and little-endian bytes. -/

namespace Sys2Proof.Machine

/-- The field of `len` bits at bit `lo`. -/
def fld (w : Word) (lo len : Nat) : Nat := w.toNat / 2 ^ lo % 2 ^ len

/-- Bit `k`. -/
def bit (w : Word) (k : Nat) : Bool := w.getLsbD k

/-- A word from a number, modulo 2^32. -/
abbrev word (n : Nat) : Word := BitVec.ofNat 32 n

/-- The word with only bit `k` set. -/
abbrev bitMask (k : Nat) : Word := word (2 ^ k)

/-- `w` with the field of `len` bits at `lo` replaced by `v` modulo 2^len. -/
def setFld (w : Word) (lo len v : Nat) : Word :=
  (w &&& ~~~ (word ((2 ^ len - 1) * 2 ^ lo))) ||| word (v % 2 ^ len * 2 ^ lo)

/-- `w` with bit `k` set to `b`. -/
def setBit (w : Word) (k : Nat) (b : Bool) : Word :=
  if b then w ||| bitMask k else w &&& ~~~ bitMask k

/-- A Bool as a bit value. -/
abbrev b2n (b : Bool) : Nat := if b then 1 else 0

/-- The two's-complement reading of the low `len` bits of `n`. -/
def sext (len n : Nat) : Int :=
  let m := n % 2 ^ len
  if m < 2 ^ (len - 1) then (m : Int) else (m : Int) - (2 : Int) ^ len

/-- The low `len` bits of an integer as a number. -/
def wrapInt (len : Nat) (i : Int) : Nat := (i % (2 : Int) ^ len).toNat

/-- `i` held between `lo` and `hi`. -/
def clampInt (lo hi i : Int) : Int := if i < lo then lo else if hi < i then hi else i

/-- The high and low word of a 64-bit value, and the value of both. -/
abbrev hiWord (n : Nat) : Word := word (n / 2 ^ 32)
abbrev loWord (n : Nat) : Word := word n
abbrev join64 (hi lo : Word) : Nat := hi.toNat * 2 ^ 32 + lo.toNat

/-- The `len` little-endian bytes of `n`. -/
def leBytes : Nat → Nat → List Byte
  | 0, _ => []
  | k + 1, n => BitVec.ofNat 8 n :: leBytes k (n / 256)

/-- The number that little-endian bytes spell. -/
def ofLeBytes : List Byte → Nat
  | [] => 0
  | b :: t => b.toNat + 256 * ofLeBytes t

/-- One bit of a CRC that is sent highest bit first: `len` bits wide, with its polynomial. -/
def crcShift (len poly c : Nat) (b : Bool) : Nat :=
  let c' := c * 2 % 2 ^ len
  if (decide (2 ^ (len - 1) ≤ c)) = b then c' else Nat.xor c' poly
def crcBits (len poly : Nat) : List Bool → Nat → Nat
  | [], c => c
  | b :: t, c => crcBits len poly t (crcShift len poly c b)

/-- The CRC of bytes, each highest bit first, from an initial value. -/
def crcOf (len poly init : Nat) (bs : List Byte) : Nat :=
  crcBits len poly (bs.flatMap fun b => [7, 6, 5, 4, 3, 2, 1, 0].map fun i => b.getLsbD i) init

/-- Floor division of an integer by a positive number. -/
abbrev floorDiv (a b : Int) : Int := a.fdiv b

/-- Division of an integer by a positive number, to nearest, ties to even. -/
def roundDiv (a : Int) (b : Nat) : Int :=
  let q := a.fdiv b
  let r := (a.fmod b).toNat
  if 2 * r < b then q else if b < 2 * r then q + 1 else if q % 2 = 0 then q else q + 1

/-- Ceiling division. -/
abbrev ceilDiv (a b : Nat) : Nat := (a + b - 1) / b

/-- The integer square root, by `fuel` bits from the top. -/
def isqrtGo : Nat → Nat → Nat → Nat
  | 0, _, r => r
  | k + 1, n, r =>
    let t := r + 2 ^ k
    isqrtGo k n (if t * t ≤ n then t else r)

/-- The integer square root of a number below 2^256. -/
def isqrt (n : Nat) : Nat := isqrtGo 128 n 0

/-- The ring distance from `a` up to `b` modulo `m`. -/
abbrev ringDist (m a b : Nat) : Nat := (b % m + m - a % m) % m

end Sys2Proof.Machine
end

