-- ==== Sys2Proof/Machine/Table.lean ====
section
/-! DEFINITION. Sparse tables in one canonical form: a list of (key, value) pairs with keys strictly rising and no
entry equal to what an unlisted key reads as (`d`). Registers, entry tables and SRAM bytes are such tables, so
equal contents are equal data. -/

namespace Sys2Proof.Machine

/-- A sparse table from keys to values. -/
abbrev Tbl (α : Type) := List (Nat × α)

/-- The value under key `k`; an unlisted key reads as `d k`. -/
def Tbl.get {α : Type} (d : Nat → α) : Tbl α → Nat → α
  | [], k => d k
  | (a, v) :: t, k => if k = a then v else Tbl.get d t k

/-- `t` with (k, v) put in key order before every larger key. -/
def Tbl.put {α : Type} (k : Nat) (v : α) : Tbl α → Tbl α
  | [] => [(k, v)]
  | (a, w) :: t => if k < a then (k, v) :: (a, w) :: t else (a, w) :: Tbl.put k v t

/-- `t` without the key `k`. -/
def Tbl.drop {α : Type} (k : Nat) : Tbl α → Tbl α
  | [] => []
  | (a, w) :: t => if k = a then Tbl.drop k t else (a, w) :: Tbl.drop k t

/-- Set the value under `k`; the value an unlisted key reads as is not listed. -/
def Tbl.set {α : Type} [DecidableEq α] (d : Nat → α) (t : Tbl α) (k : Nat) (v : α) : Tbl α :=
  if v = d k then Tbl.drop k t else Tbl.put k v (Tbl.drop k t)

/-- Return every key of which `p` holds to its unlisted value. -/
def Tbl.clear {α : Type} (p : Nat → Bool) : Tbl α → Tbl α
  | [] => []
  | (a, w) :: t => if p a then Tbl.clear p t else (a, w) :: Tbl.clear p t

/-- Put every listed entry of `src` of whose key `p` holds into `t`. -/
def Tbl.putAll {α : Type} (p : Nat → Bool) : Tbl α → Tbl α → Tbl α
  | [], t => t
  | (a, v) :: r, t => if p a then Tbl.put a v (Tbl.putAll p r t) else Tbl.putAll p r t

/-- `dst` with every key of which `p` holds reading as in `src`. -/
def Tbl.overlay {α : Type} (p : Nat → Bool) (src dst : Tbl α) : Tbl α := Tbl.putAll p src (Tbl.clear p dst)

/-- Apply `f` to every listed value; results equal to the unlisted value are not listed. -/
def Tbl.mapVals {α : Type} [DecidableEq α] (d : Nat → α) (f : α → α) : Tbl α → Tbl α
  | [] => []
  | (a, w) :: t => if f w = d a then Tbl.mapVals d f t else (a, f w) :: Tbl.mapVals d f t

/-- Every listed key is above `k` and the keys rise. -/
def Tbl.rising {α : Type} (k : Option Nat) : Tbl α → Bool
  | [] => true
  | (a, _) :: t => (match k with | none => true | some b => b < a) && Tbl.rising (some a) t

/-- The canonical form: keys strictly rising and no entry equal to its unlisted value. -/
def Tbl.wf {α : Type} [DecidableEq α] (d : Nat → α) (t : Tbl α) : Bool :=
  Tbl.rising none t && t.all (fun e => decide (e.2 ≠ d e.1))

end Sys2Proof.Machine
end

