-- ==== Sys2Proof/Machine/RegMap.lean ====
section
/-! DEFINITION. The register map as data: for each page type the rows of its register tables that are writable, that
clear on read, that form a LO and HI pair or whose reset value is not 0 (every other register is RO, resets to 0 and is
held all the same). The reset value of every register follows from these rows. Keys: register `ofs` of page `pg` is
pg · 4096 + ofs, a loader register 2^30 + ofs, an indirect register 2^32 + pg · 2^24 + its byte address. -/

namespace Sys2Proof.Machine

open Sys2Proof.Config

/-- The keys of the register store. -/
abbrev dkey (pg ofs : Nat) : Nat := pg * 4096 + ofs
abbrev lkey (ofs : Nat) : Nat := 1073741824 + ofs
abbrev ikey (pg addr : Nat) : Nat := 4294967296 + pg * 16777216 + addr

/-- Access codes (Table DOC-4). -/
inductive Acc where
  | rw | ro | rc | wo | w1p | rs
deriving DecidableEq, Repr

/-- The legal range of a field: `len` bits at `lo`, from `min` to `max` (R130). -/
structure Lim where
  lo : Nat
  len : Nat
  min : Nat
  max : Nat
deriving DecidableEq, Repr

/-- One row of a register table: `n` registers `step` apart from `ofs`; `mask` holds the bits a write may change;
`pair` marks the LO word of a LO and HI pair (R124). -/
structure Row where
  ofs : Nat
  n : Nat := 1
  step : Nat := 4
  acc : Acc := .rw
  reset : Nat := 0
  mask : Nat := 0xFFFFFFFF
  lims : List Lim := []
  shadow : Bool := false
  pair : Bool := false
deriving DecidableEq, Repr

namespace RegMap

/-- Row forms. -/
abbrev rw (ofs reset mask : Nat) (lims : List Lim := []) : Row :=
  { ofs := ofs, reset := reset, mask := mask, lims := lims }
abbrev rwN (ofs n step reset mask : Nat) (lims : List Lim := []) : Row :=
  { ofs := ofs, n := n, step := step, reset := reset, mask := mask, lims := lims }
abbrev sh (ofs reset mask : Nat) (lims : List Lim := []) : Row :=
  { ofs := ofs, reset := reset, mask := mask, lims := lims, shadow := true }
abbrev shN (ofs n step reset mask : Nat) (lims : List Lim := []) : Row :=
  { ofs := ofs, n := n, step := step, reset := reset, mask := mask, lims := lims, shadow := true }
abbrev rc (ofs : Nat) (n : Nat := 1) : Row := { ofs := ofs, n := n, acc := .rc }
abbrev rcN (ofs n step : Nat) : Row := { ofs := ofs, n := n, step := step, acc := .rc }
abbrev rs (ofs mask : Nat) : Row := { ofs := ofs, acc := .rs, mask := mask }
abbrev ro (ofs reset : Nat) : Row := { ofs := ofs, acc := .ro, reset := reset }
abbrev act (ofs : Nat) (acc : Acc) (n : Nat := 1) : Row := { ofs := ofs, n := n, acc := acc }
abbrev pair (ofs : Nat) (n : Nat := 1) (step : Nat := 8) (reset : Nat := 0) : Row :=
  { ofs := ofs, n := n, step := step, acc := .ro, reset := reset, pair := true }

/-- Table REG-15, for the unit of log entry 1 (an MF8192-A-S: "MF8192-A-S"). -/
def rowsCAP : List Row :=
  [ro 0x800 0x616A6F4E, ro 0x804 0x6E, ro 0x808 1, ro 0x810 0x3138464D, ro 0x814 0x412D3239, ro 0x818 0x0000532D,
   ro 0x820 0x4100]

/-- Table SYS-7. -/
def rowsSYS : List Row :=
  [ro 0x044 1, rw 0x048 1 3, act 0x04C .wo, act 0x050 .wo,
   rw 0x054 0x0A030A00 0xFF0FFF01 [⟨8, 8, 1, 255⟩, ⟨16, 4, 1, 15⟩, ⟨24, 8, 1, 255⟩],
   pair 0x05C, rw 0x068 0x01F40008 0xFF [⟨0, 8, 2, 255⟩], rc 0x100 6]

/-- Tables PWR-6 to PWR-8 (indirect). -/
def rowsPWR : List Row :=
  [rw 0x044 0x040A024B 0x0FFF0FFF [⟨0, 8, 60, 80⟩, ⟨8, 4, 1, 4⟩, ⟨16, 8, 5, 30⟩, ⟨24, 4, 2, 15⟩],
   rw 0x048 0x100C0801 0xFFFFFF01 [⟨8, 8, 8, 255⟩], ro 0x060 0x6590, ro 0x064 0x9470, pair 0x06C]

/-- Tables PHT-5 to PHT-10. -/
def rowsPHT : List Row :=
  [pair 0x058, pair 0x060, sh 0x074 0 0xFFFFFFFF, sh 0x078 0 3 [⟨0, 2, 0, 2⟩],
   rw 0x07C 0x03240815 0x0FFF3FFF
     [⟨0, 4, 3, 15⟩, ⟨4, 4, 1, 4⟩, ⟨8, 6, 2, 63⟩, ⟨16, 4, 1, 8⟩, ⟨20, 8, 5, 50⟩],
   rw 0x080 0x003C1412 0x00FF1F1F [⟨8, 5, 18, 20⟩, ⟨16, 8, 1, 255⟩],
   rw 0x084 0x0528 0xFFFF [⟨0, 8, 20, 200⟩, ⟨8, 8, 1, 20⟩],
   rw 0x088 0 0xFFFF, act 0x08C .wo, pair 0x094, rc 0x0A0 7, pair 0x0C0]

/-- Table FAB-5. PRIOm resets to m + 1 and MASKED to the absent masters; `resetWord` gives the former. -/
def rowsFAB : List Row :=
  [rw 0x044 0x100 0xFFFF [⟨0, 16, 16, 65535⟩], rs 0x048 0xFFFF,
   shN 0x060 16 4 0 0x1F [⟨0, 5, 1, 16⟩],
   rwN 0x0E0 2 4 0 0xFFFFFFFF, rw 0x0F4 0x1000 0xFFFF [⟨0, 16, 256, 65535⟩],
   rw 0x120 0x1681 0xFFF1 [⟨4, 12, 60, 1440⟩], rc 0x200 64, rc 0x300 8]

/-- Table INT-3; ROUTE64 to ROUTE127 are kept from 0x900 on (log entry 12). -/
def rowsINT : List Row :=
  [rwN 0x060 4 4 0 0xFFFFFFFF, act 0x070 .wo, act 0x074 .wo, act 0x07C .w1p, rwN 0x100 64 4 1 3, rc 0x200 130,
   rwN 0x900 64 4 1 3]

/-- Table PTM-12. -/
def rowsPTM : List Row :=
  [ro 0x048 0x2000, ro 0x04C 1, ro 0x050 1, ro 0x054 0x200, ro 0x060 0x800, ro 0x06C 0x3000, act 0x070 .w1p, rc 0x080 5]

/-- Table SCN-6 and SCN-8. -/
def rowsSCN : List Row :=
  [rw 0x040 0 0x71, sh 0x048 0x19C8 0x1FFF [⟨0, 13, 4500, 6600⟩], ro 0x04C 0x005C03DF,
   shN 0x060 8 8 1 0x1FF [⟨0, 8, 1, 240⟩], shN 0x064 8 8 0 0xFFFFFFFF, pair 0x0A0, rc 0x100 27,
   rwN 0x400 64 4 0x01000000 0x8F07F3FF [⟨24, 4, 1, 8⟩]]

/-- Table SCL-1. -/
def rowsSCL : List Row := [rw 0x044 0 1, rc 0x100 5]

/-- Table LCK-2. -/
def rowsLCK : List Row :=
  [ro 0x040 0x100, act 0x048 .wo, act 0x04C .wo, rc 0x080 6, rwN 0x800 256 4 0x4000 0xFFFFFFFF [⟨0, 23, 1, 8388607⟩]]

/-- Table LPE-8. -/
def rowsLPE : List Row :=
  [sh 0x040 0 1, ro 0x054 0x400, ro 0x060 0x1000, ro 0x06C 0x40, act 0x070 .w1p,
   shN 0x100 16 4 0x40 0x803F1FFF [⟨0, 13, 1, 4096⟩], rc 0x200 6]

/-- Table MTR-4. -/
def rowsMTR : List Row := [rw 0x040 0 1, pair 0x048, rc 0x080 5]

/-- Table MLG-2. -/
def rowsMLG : List Row :=
  [rw 0x040 0x32 0xFFF [⟨0, 12, 1, 3000⟩], shN 0x060 3 16 0 0x8000003F, shN 0x064 3 16 0 0xFFFFFFFF,
   shN 0x068 3 16 0 0xFFFF, rwN 0x06C 3 16 0 0xFFFFFFFF, rc 0x090, pair 0x100 28 8, pair 0x200 28 8, pair 0x300 28 8]

/-- Table PLS-1. -/
def rowsPLS : List Row :=
  [rwN 0x040 8 32 0 0x0007013F [⟨16, 3, 0, 6⟩], rwN 0x044 8 32 1 0xFFFFFF [⟨0, 24, 1, 16777215⟩],
   rwN 0x048 8 32 0x2828 0xFFFF [⟨0, 8, 1, 250⟩, ⟨8, 8, 1, 250⟩], rwN 0x04C 8 32 0 1,
   { ofs := 0x050, n := 8, step := 32, acc := .ro, reset := 2 }, pair 0x058 8 32, rc 0x200 8]

/-- Tables PQE-1 and PQE-2. -/
def rowsPQE : List Row :=
  [rw 0x040 0x8FC 0xFFF [⟨0, 12, 1000, 3050⟩],
   rw 0x044 0x02056E5A 0xFFFFFFFF [⟨0, 8, 50, 98⟩, ⟨8, 8, 102, 150⟩, ⟨16, 8, 1, 20⟩, ⟨24, 8, 1, 5⟩],
   rw 0x048 0 0x3F [⟨0, 2, 0, 2⟩, ⟨2, 2, 0, 2⟩, ⟨4, 2, 0, 2⟩], rc 0x100 12]

/-- Table SNS-4 (indirect). -/
def rowsSNS : List Row :=
  [rwN 0x080 3 64 0x1021 0xFF71 [⟨4, 3, 0, 4⟩, ⟨8, 8, 1, 255⟩],
   rcN 0x090 3 64, rcN 0x094 3 64, rcN 0x098 3 64, rcN 0x09C 3 64]

/-- The rows of Table BUS-7 that are writable. -/
def rowsBus (counters queues rxq : Nat) : List Row :=
  [act 0x078 .w1p, rc 0x100 counters, rwN 0x200 queues 4 0 (0xFF81FF + rxq) [⟨16, 8, 1, 255⟩]]

/-- Tables CAN-1 to CAN-3. -/
def rowsCAN : List Row :=
  rowsBus 15 16 0 ++
  [rw 0x040 0 0x13, act 0x044 .w1p,
   rw 0x048 0x0120207F 0x1F7F7FFF [⟨0, 8, 2, 255⟩, ⟨8, 7, 1, 127⟩, ⟨24, 5, 1, 31⟩],
   rw 0x04C 0x0108081F 0x1F0F0F1F [⟨0, 5, 1, 31⟩, ⟨8, 4, 1, 15⟩, ⟨24, 5, 1, 31⟩],
   rw 0x050 0x1F01 0x3F01, rw 0x060 0 0x3F, rw 0x064 0 0x1FFFFFFF]

/-- Table BUS-8, on CAN0 only. -/
def rowsPool : List Row := [ro 0x300 0x1000, ro 0x304 0x1000, rw 0x314 0x100 0xFFFFFFFF]

/-- Table DAL-1. -/
def rowsDAL : List Row :=
  rowsBus 13 16 0x0F000000 ++
  [rw 0x040 0 3 [⟨0, 2, 0, 2⟩], rw 0x044 0 0x7F [⟨0, 7, 0, 125⟩], rs 0x04C 1,
   sh 0x050 4 0x800000FF [⟨0, 8, 1, 240⟩], sh 0x054 0 0xFFFFFFFF]

/-- Table RSB-1. -/
def rowsRSB : List Row :=
  rowsBus 12 16 0 ++
  [rw 0x040 0 0x733 [⟨0, 2, 0, 2⟩], rw 0x044 0x2B6 0xFFFF [⟨0, 16, 40, 65535⟩], rw 0x048 4 0xFF [⟨0, 8, 2, 255⟩],
   sh 0x04C 0x14 0x800000FF [⟨0, 8, 1, 240⟩], sh 0x050 0 0xFFFFFFFF, rw 0x054 0x3C8 0xFFF [⟨0, 8, 1, 255⟩]]

/-- Table NET-2, for the unit of log entry 1 (MAC address 0). -/
def rowsNet : List Row :=
  [rw 0x080 7 0x1FFF000F [⟨16, 12, 1, 4094⟩], rw 0x084 0 0xFFFFFFFF, rw 0x088 0 0xFFFFFFFF, rw 0x08C 0x18 0x3F [⟨0, 6, 1, 32⟩]]

/-- Table T1S-1. -/
def rowsT1S : List Row :=
  rowsNet ++
  [rw 0x040 0 3 [⟨0, 2, 0, 2⟩], rw 0x044 0x20000801 0xFFFFFFFF [⟨0, 8, 0, 254⟩, ⟨8, 8, 1, 255⟩, ⟨24, 8, 1, 255⟩],
   rw 0x048 0x80 0xFF [⟨0, 8, 1, 255⟩], rc 0x100 12]

/-- Table UPL-1. -/
def rowsUPL : List Row :=
  rowsNet ++ [rw 0x040 0x33 0x3F [⟨2, 2, 0, 2⟩], rc 0x100 11]

/-- EEE_CFG, on UPL1 only (Table UPL-1). -/
def rowsEEE : List Row := [rw 0x048 0x00110064 0xFFFFFFFF [⟨0, 16, 1, 65535⟩, ⟨16, 16, 17, 1000⟩]]

/-- Table TUN-7. -/
def rowsTUN : List Row :=
  [rw 0x040 0xB9140001 0xFFFF0001 [⟨16, 16, 1024, 65535⟩], rw 0x044 0xF 0xF,
   rw 0x048 0x00320258 0x00FFFFFF [⟨0, 16, 10, 65535⟩, ⟨16, 8, 1, 255⟩], rc 0x100 12]

/-- Table KEY-7. -/
def rowsKEY : List Row :=
  [act 0x044 .wo, ro 0x050 0x400, act 0x054 .w1p, act 0x060 .w1p, rc 0x200 4, act 0x300 .wo 8, act 0x320 .wo,
   act 0x400 .wo 30]

/-- Table UPD-6. -/
def rowsUPD : List Row :=
  [act 0x044 .wo, rw 0x048 0 7, rw 0x04C 0x258 0x1FFFF [⟨0, 17, 30, 86400⟩], rc 0x100 6]

/-- Table PAR-9. -/
def rowsPAR : List Row :=
  [rw 0x040 0xD 0xF, rw 0x048 0x320800C8 0xFFFF0FFF [⟨0, 12, 50, 2000⟩, ⟨16, 8, 4, 64⟩, ⟨24, 8, 0, 200⟩],
   rw 0x04C 0x32 0xFF [⟨0, 8, 5, 200⟩], pair 0x074, pair 0x07C, rw 0x0A0 0 0xF, rwN 0x0A4 5 4 0 0xFFFFFFFF,
   rwN 0x0C0 2 4 0 0xFFFFFFFF, act 0x0C8 .w1p, rc 0x100 12]

/-- Tables RTC-2 and RTC-4 (indirect). -/
def rowsRTC : List Row :=
  [shN 0x044 2 4 0 0x7F, sh 0x04C 0 0x3F, sh 0x050 6 7 [⟨0, 3, 1, 7⟩], sh 0x054 1 0x3F, sh 0x058 1 0x1F,
   sh 0x05C 0 0xFF, sh 0x060 0x20 0xFF, rs 0x068 1, rw 0x06C 0x1E00 0x3F1F [⟨0, 5, 0, 20⟩, ⟨8, 6, 0, 50⟩],
   rw 0x074 1 0xFFFF0001, rwN 0x080 33 4 0 0xFFFF, shN 0x140 2 16 0 0x003F7F7F, shN 0x144 2 16 0x20000101 0xFFFF1F3F,
   shN 0x148 2 16 0 0x77 [⟨0, 3, 0, 4⟩, ⟨4, 3, 1, 7⟩],
   { ofs := 0x14C, n := 2, step := 16, acc := .rs, mask := 3 }, rc 0x200 3]

/-- Table CRN-4. -/
def rowsCRN : List Row :=
  [rw 0x040 0x3C00 0xFF01 [⟨8, 8, 1, 255⟩], ro 0x048 0x200000, act 0x058 .wo,
   rw 0x05C 0x180000 0xFFFFFFFF [⟨0, 32, 0, 0x200000⟩], ro 0x068 0x1000, rc 0x080 5]

/-- Table FUS-1 (indirect). A write blows bits (R479), so the mask names the fuses that a write may blow. -/
def rowsFUS : List Row :=
  [rw 0x04C 0 0xF, rw 0x050 0 0xF, rw 0x054 0 0xFFFFFF, rw 0x058 0 0xFFFFFF, rw 0x05C 0 0x3FFFFFFF, rw 0x060 0 0x3FFFF]

/-- Table DIO-1. -/
def rowsDIO : List Row :=
  [rwN 0x044 2 4 0 0xFFFFFFFF, rw 0x04C 0 0xFFFFFFFF, rs 0x050 0xFFFF, rs 0x054 0xFFFF, rw 0x060 0 0xFF,
   rs 0x068 0xFFFF, rw 0x06C 0 0xFF, pair 0x080 16, rc 0x100 16, rwN 0x180 16 4 0 0x80071FFF,
   rwN 0x1C0 8 4 0 0x80071FFF]

/-- Table LDR-11, at 0x047F_F000. -/
def rowsLDR : List Row :=
  [act 0x000 .wo, rw 0x014 0 0x3FF, ro 0x02C 0x400, act 0x030 .w1p, rc 0x040 4]

/-- The block rows of a page. -/
def rows (pg : Nat) : List Row :=
  if pg = pgCAP then rowsCAP else if pg = pgSYS then rowsSYS else if pg = pgPWR then rowsPWR
  else if pg = pgPHT then rowsPHT else if pg = pgFAB then rowsFAB else if pg = pgINT then rowsINT
  else if pg = pgPTM then rowsPTM else if pg = pgSCN then rowsSCN else if pg ≤ 0x0F then rowsSCL
  else if pg = pgLCK then rowsLCK else if pg = pgLPE then rowsLPE else if pg = pgMTR then rowsMTR
  else if pg = pgMLG then rowsMLG else if pg = pgPLS then rowsPLS else if pg = pgPQE then rowsPQE
  else if pg = 0x18 then rowsCAN ++ rowsPool else if pg ≤ 0x1D then rowsCAN
  else if pg ≤ 0x23 then rowsDAL else if pg ≤ 0x27 then rowsRSB else if pg ≤ 0x29 then rowsT1S
  else if pg = 0x2A then rowsUPL else if pg = 0x2B then rowsUPL ++ rowsEEE
  else if pg = pgTUN then rowsTUN else if pg = pgKEY then rowsKEY else if pg = pgUPD then rowsUPD
  else if pg = pgPAR then rowsPAR else if pg = pgRTC then rowsRTC else if pg = pgCRN then rowsCRN
  else if pg = pgFUS then rowsFUS else if pg = pgSNS then rowsSNS else if pg = pgDIO then rowsDIO
  else []

/-- Does a row hold the register at `ofs`? -/
abbrev holds (ofs : Nat) (r : Row) : Bool :=
  r.ofs ≤ ofs && (ofs - r.ofs) % r.step == 0 && (ofs - r.ofs) / r.step < r.n

/-- The row of the register at `ofs` (direct, or indirect on a page of method Indirect). -/
def rowOf (pg ofs : Nat) : Option Row := (rows pg).find? (holds ofs)

/-- Rows of the entries in the on-die indirect spaces: PTM (Tables PTM-5 to PTM-8). -/
def entPoint : List Row :=
  [rw 0x00 0 0x1FFF [⟨0, 4, 0, 9⟩], { rw 0x08 0 0xFFFFFFFF with pair := true }, rw 0x0C 0 0xFFFFFFFF, rw 0x10 0 1, rc 0x18, rw 0x1C 0 0x80000007]
def entCtx : List Row := [rw 0x0 0 0x3FFF1FFF, rw 0x4 0 0x3F [⟨0, 2, 0, 2⟩], rcN 0x8 2 4]
def entGrant : List Row := [rw 0x0 0 0x80001FFF, rw 0x4 0 0x1FFF01FF]
def entCred : List Row :=
  [{ rw 0x00 0 0xFFFFFFFF with pair := true }, rw 0x04 0 0xFFFFFFFF, rw 0x08 0 0xFFFFFFFF, rw 0x0C 0 0xFFFFFFFF, rw 0x10 0 0x1FFFF,
   rw 0x14 0xFFFF 0xFFFF, rw 0x18 0 0x31FF [⟨12, 2, 0, 2⟩], rc 0x1C]

/-- Rows of the loop entries: Tables LPE-10 to LPE-13. -/
def entFront : List Row :=
  [rw 0x00 0 0xC0001FFF, rw 0x04 0 0x80001FFF, rw 0x08 0 0xFFFFFFFF, rw 0x0C 0 0x1FFF, rwN 0x10 2 4 0 0xFFFFFFFF,
   rw 0x18 0x42C80000 0xFFFFFFFF, rw 0x1C 0 0xFFFFFFFF,
   rw 0x20 0x64 0x1FFFFF [⟨0, 16, 1, 65535⟩, ⟨16, 2, 0, 2⟩], rwN 0x24 2 4 0 0xFFFFFFFF, rw 0x2C 0 1, rw 0x30 0 0x1F1FF]
def entCascade : List Row :=
  [rw 0x40 0 0x011F0FFF [⟨16, 5, 0, 16⟩], rwN 0x44 2 4 0x3F800000 0xFFFFFFFF, rw 0x4C 0 0xFFFFFFFF]
def entSos : List Row := [rwN 0x00 5 4 0 0xFFFFFFFF, rw 0x14 0 3]
def entPid : List Row := [rw 0x40 0x3F800000 0xFFFFFFFF, rwN 0x44 3 4 0 0xFFFFFFFF, rw 0x50 0x3F800000 0xFFFFFFFF]

/-- Rows of the meter channel entry: Table MTR-5. -/
def entMeter : List Row :=
  [rw 0x00 0 0x80F171FF [⟨12, 3, 0, 5⟩], rw 0x04 0x3F800000 0xFFFFFFFF, rw 0x08 0x400000 0xFFFFFF [⟨0, 24, 0x200000, 0x7FFFFF⟩],
   rw 0x0C 0 0xFFF, rw 0x10 0 0xFFFFFF, rs 0x1C 0xFF, pair 0x40 8, rcN 0x80 2 4]

/-- Rows of the field-bus entries: Tables BUS-10 to BUS-13 and RSB-2. -/
def entFilter : List Row := [rwN 0x0 2 4 0 0x3FFFFFFF, rw 0x8 0 0x7F03]
def entFilterDali : List Row := [rwN 0x0 2 4 0 0xFFFFFF, rw 0x8 0 0x7F03]
def entImgCfg : List Row := [rw 0x0 0 0x80000007]
def entOut : List Row := [rw 0x0 0 0x1FFFFFFF, rw 0x4 0 0x177F, rw 0x8 0 0x80000007]
def entOutDali : List Row := [rw 0x0 0 0xFFFFFF, rw 0x4 0 0x1071, rw 0x8 0 0x80000007]
def entMap : List Row := [rw 0x0 0 0x1FFF, rw 0x4 0 0x83FFFFFF [⟨17, 7, 1, 64⟩, ⟨24, 2, 0, 2⟩]]
def entPoll : List Row := [rw 0x0 0 0x17F [⟨0, 7, 0, 126⟩], rw 0x4 0 0x3FF, rw 0x8 0 0x80000F00 [⟨8, 4, 8, 15⟩]]
def entQuota : List Row := [rw 0x0 0 0x1FFF]

/-- Rows of the tunnel session entry, the key slot entry and the Cairn context entry: Tables TUN-8, KEY-8, CRN-5. -/
def entSession : List Row :=
  [rw 0x00 0 0x3FF, rw 0x04 0 0x301FF, pair 0x0C 1 8 1, pair 0x14 1 8 1, act 0x1C .w1p]
def entKey : List Row := [pair 0x8]
def entCairn : List Row := [rw 0x0 0 0x1FFF, rc 0x8]

/-- An entry of an on-die indirect space: the page type, the first byte address, the entry size, how many entries
the MF8192-A has and how many the MF2048-A has, and the entry's rows. -/
structure Space where
  typ : Nat
  base : Nat
  size : Nat
  large : Nat
  small : Nat
  rows : List Row
deriving DecidableEq, Repr

/-- The on-die indirect spaces (Tables PTM-4, LPE-9, MTR-5, BUS-10, TUN-8, KEY-8, CRN-5 and the UPL0 cache; the chunk
buffer and bitmaps of UPD are read by their own functions). Session 0 is no session: address 0 to 31 reads 0. -/
def spaces : List Space :=
  [⟨0x07, 0x000000, 32, 8192, 2048, entPoint⟩, ⟨0x07, 0x040000, 16, 512, 128, entCtx⟩,
   ⟨0x07, 0x050000, 8, 2048, 512, entGrant⟩, ⟨0x07, 0x080000, 32, 12288, 3072, entCred⟩,
   ⟨0x0B, 0x000000, 128, 1024, 256, entFront ++ entCascade⟩, ⟨0x0B, 0x020000, 64, 4096, 1024, entSos⟩,
   ⟨0x0B, 0x060000, 128, 64, 16, entFront ++ entPid⟩,
   ⟨0x0C, 0x000000, 256, 52, 52, entMeter⟩,
   ⟨0x10, 0x000000, 16, 256, 256, entFilter⟩, ⟨0x10, 0x020000, 4, 128, 128, entImgCfg⟩,
   ⟨0x10, 0x030000, 16, 64, 64, entOut⟩, ⟨0x10, 0x040000, 8, 512, 512, entMap⟩, ⟨0x10, 0x100000, 8, 512, 128, entQuota⟩,
   ⟨0x11, 0x000000, 16, 32, 32, entFilterDali⟩, ⟨0x11, 0x020000, 4, 64, 64, entImgCfg⟩,
   ⟨0x11, 0x030000, 16, 64, 64, entOutDali⟩, ⟨0x11, 0x040000, 8, 256, 256, entMap⟩,
   ⟨0x12, 0x050000, 16, 16, 16, entPoll⟩,
   ⟨0x16, 0x000000, 32, 512, 512, entSession⟩, ⟨0x17, 0x000000, 16, 1024, 256, entKey⟩,
   ⟨0x1B, 0x000000, 16, 512, 128, entCairn⟩]

/-- The space that holds an indirect byte address. -/
def spaceOf (pg addr : Nat) : Option Space :=
  spaces.find? fun sp => sp.typ == pageType pg && sp.base ≤ addr && addr < sp.base + sp.size * sp.large

/-- The row of an indirect register of a page with an on-die space, and its offset in its entry. -/
def entryRow (pg addr : Nat) : Option (Row × Nat) :=
  match spaceOf pg addr with
  | none => none
  | some sp =>
    let o := (addr - sp.base) % sp.size
    match sp.rows.find? (holds o) with
    | none => none
    | some r => some (r, o)

/-- PAGE_ID and PAGE_CAP of a page (Tables REG-4 and REG-5). -/
def pageId (pg : Nat) : Word := word (pageType pg * 65536 + pageInstance pg * 256 + 1)
def pageCap (pg : Nat) : Word :=
  word (b2n (pageIndirect pg) + 2 * b2n (pageShadowed pg) + 4 * b2n (decide (snapWords pg ≠ 0)) +
    256 * irqBits pg + 65536 * snapWords pg)

/-- Entries of the capability list as (type, page, instance, word 2, word 3) (Table REG-14, R151; the feature bits of
R223, R313, R351, R380, R405, R437, R484, R502 and R529), in the order of R149. -/
def capEntries (small : Bool) : List (Nat × Nat × Nat × Nat × Nat) :=
  (if small then [] else [(0x0402, 0x04, 0, 256 + 65536 * 2048, 1)]) ++
  (List.range (laneLimit small)).map (fun n => (0x0101, 0x08 + n, n, n + 256 * 8 + 65536 * 4096, 1)) ++
  [(0x0102, 0x11, 0, cascadeLimit small + 65536 * sosLimit small, 16 + 256 * 16),
   (0x0103, 0x11, 0, pidLimit small, 3), (0x0201, 0x12, 0, 12 + 256 * 4 + 65536 * 512, 8 + 256 * 3)] ++
  (List.range 6).map (fun n => (0x0301, 0x18 + n, n, n + 256 * 5 + 65536 * 256, 7 + 256 * 128)) ++
  (List.range 4).map (fun n => (0x0302, 0x20 + n, n, n + 256 * 125, 3)) ++
  (List.range 4).map (fun n => (0x0303, 0x24 + n, n, n + 65536 * 2000, 7)) ++
  (List.range 2).map (fun n => (0x0304, 0x28 + n, n, n, 1)) ++
  [(0x0305, 0x2A, 0, 1000, 1), (0x0306, 0x2B, 1, 1000, 3), (0x0501, 0x2D, 0, keyLimit small, 7),
   (0x0502, 0x2E, 0, 8192 + 65536 * 4096, 3), (0x0401, 0x2F, 0, 13312 + 65536 * 4000, 7)] ++
  (if small then [] else
    (List.range 3).map (fun n => (0x0202, 0x33, n, 12 + 256 * (12 + 12 * n), 1)))

/-- The word at CAP + `ofs` for 0x040 ≤ ofs < 0x800 (R149, Table REG-13). -/
def capWord (small : Bool) (ofs : Nat) : Word :=
  match (capEntries small)[(ofs - 0x040) / 16]? with
  | none => 0
  | some (t, pg, inst, f2, f3) =>
    if ofs / 4 % 4 = 0 then word (t * 65536 + 0x0104)
    else if ofs / 4 % 4 = 1 then word (pg + inst * 65536)
    else if ofs / 4 % 4 = 2 then word f2 else word f3

/-- The reset value a row gives. -/
def rowReset (r : Option Row) : Word :=
  match r with
  | some r => word r.reset
  | none => 0

/-- The reset value of a register (the tables of every chapter; `small`: of the MF2048-A). -/
def resetWord (small : Bool) (k : Nat) : Word :=
  if 4294967296 ≤ k then
    let pg := (k - 4294967296) / 16777216
    let addr := (k - 4294967296) % 16777216
    if pageIndirect pg then rowReset (rowOf pg addr)
    else if pg = pgCRN ∧ addr = 0 then (if small then 0x400 else 0x1000)
    else if pg = pgTUN ∧ addr < 32 then 0
    else if pg = pgPTM ∧ addr = 0x040000 then 0x20000000
    else if pg = pgPTM ∧ addr = 0x040004 then 1
    else match entryRow pg addr with
      | some (r, _) => word r.reset
      | none => 0
  else if 1073741824 ≤ k then rowReset (rowsLDR.find? (holds (k - 1073741824)))
  else
    let pg := k / 4096
    let ofs := k % 4096
    if ofs = 0 then pageId pg else if ofs = 4 then pageCap pg
    else if ofs < 0x40 then 0
    else if pageIndirect pg then 0
    else if pg = pgFAB ∧ 0x060 ≤ ofs ∧ ofs < 0x0A0 then word ((ofs - 0x060) / 4 + 1)
    else if small ∧ pg = pgCRN ∧ ofs = 0x05C then 0x60000
    else if small ∧ ((pg = pgCRN ∧ ofs = 0x068) ∨ (pg = 0x18 ∧ ofs = 0x304)) then 0x400
    else rowReset (rowOf pg ofs)

end RegMap

end Sys2Proof.Machine
end

