-- ==== Sys2Proof/Machine/Flags.lean ====
section
/-! DEFINITION. What a write does to the bits of a register: the alias operation by access code (Table REG-8), the
legal range of each field and the fields that bound each other (R130), and the clear of RS bits. -/

namespace Sys2Proof.Machine

open Sys2Proof.Config

/-- The value an alias gives an RW register (Table REG-8). -/
def aliasValue (al : Alias) (old data : Word) : Word :=
  match al with
  | .plain => data
  | .set => old ||| data
  | .clear => old &&& ~~~ data
  | .toggle => old ^^^ data

/-- Whether WO and W1P registers act on a write through an alias (Table REG-8). -/
abbrev aliasActs (al : Alias) : Bool := al = .plain ∨ al = .set

/-- An RS register after a write: only the clear alias clears (Table DOC-4). -/
def rsValue (al : Alias) (old data mask : Word) : Word :=
  if al = .clear then old &&& ~~~ (data &&& mask) else old

/-- A number held between two limits. -/
abbrev clampNat (lo hi n : Nat) : Nat := if n < lo then lo else if hi < n then hi else n

/-- One field held in its legal range (R130). -/
def clampFld (w : Word) (l : Lim) : Word := setFld w l.lo l.len (clampNat l.min l.max (fld w l.lo l.len))

/-- Every field held in its legal range, in the order of the row. -/
def clampAll (w : Word) : List Lim → Word
  | [] => w
  | l :: t => clampAll (clampFld w l) t

/-- The nearest legal BCD number for `n` read as two BCD digits, between the decimal values `lo` and `hi`; where two
are equally near, the lower (R130, R440). A digit above 9 in the units reads as 9 of the same ten (15 cannot be nearer
to the next ten than 10 − 9 code steps: codes 0xXA to 0xXC are nearer to 0xX9, 0xXD to 0xXF to 0x(X+1)0). -/
def clampBcd (lo hi n : Nat) : Nat :=
  let t := n / 16
  let u := n % 16
  let d := if t > 9 then 99 else if u ≤ 9 then 10 * t + u else if u ≤ 12 ∨ t = 9 then 10 * t + 9 else 10 * t + 10
  let c := clampNat lo hi d
  c / 10 * 16 + c % 10

/-- The fields of a register that are bounded by other fields of the same write: PWR.SHED_CTL (Table PWR-8),
PHT.THRESH (Table PHT-9), CAN.NBT and CAN.DBT (Tables CAN-1 and CAN-2), and the BCD fields of the clock
(Tables RTC-2 and RTC-3). `w` has passed its own ranges already. -/
def settle (pg ofs : Nat) (w : Word) : Word :=
  if pg = pgPWR ∧ ofs = 0x048 then
    let w := setFld w 16 8 (clampNat (fld w 8 8) 255 (fld w 16 8))
    setFld w 24 8 (clampNat (fld w 16 8) 255 (fld w 24 8))
  else if pg = pgPHT ∧ ofs = 0x080 then
    setFld w 0 5 (clampNat 14 (fld w 8 5 - 2) (fld w 0 5))
  else if 0x18 ≤ pg ∧ pg ≤ 0x1D ∧ ofs = 0x048 then
    setFld w 16 7 (clampNat 1 (fld w 8 7) (fld w 16 7))
  else if 0x18 ≤ pg ∧ pg ≤ 0x1D ∧ ofs = 0x04C then
    setFld w 16 4 (clampNat 1 (fld w 8 4) (fld w 16 4))
  else if pg = pgRTC ∧ (ofs = 0x044 ∨ ofs = 0x048) then setFld w 0 7 (clampBcd 0 59 (fld w 0 7))
  else if pg = pgRTC ∧ ofs = 0x04C then setFld w 0 6 (clampBcd 0 23 (fld w 0 6))
  else if pg = pgRTC ∧ ofs = 0x054 then setFld w 0 6 (clampBcd 1 31 (fld w 0 6))
  else if pg = pgRTC ∧ ofs = 0x058 then setFld w 0 5 (clampBcd 1 12 (fld w 0 5))
  else if pg = pgRTC ∧ (ofs = 0x05C ∨ ofs = 0x060) then setFld w 0 8 (clampBcd 0 99 (fld w 0 8))
  else if pg = pgRTC ∧ (ofs = 0x140 ∨ ofs = 0x150) then
    let w := setFld w 0 7 (clampBcd 0 59 (fld w 0 7))
    let w := setFld w 8 7 (clampBcd 0 59 (fld w 8 7))
    setFld w 16 6 (clampBcd 0 23 (fld w 16 6))
  else if pg = pgRTC ∧ (ofs = 0x144 ∨ ofs = 0x154) then
    let w := setFld w 0 6 (clampBcd 1 31 (fld w 0 6))
    let w := setFld w 8 5 (clampBcd 1 12 (fld w 8 5))
    let w := setFld w 16 8 (clampBcd 0 99 (fld w 16 8))
    setFld w 24 8 (clampBcd 0 99 (fld w 24 8))
  else w

/-- CTX_WIN (Table PTM-6): WBASE settles at most at the point limit, then WBASE + WSIZE at it (R130). -/
def winClamp (limit : Nat) (w : Word) : Word :=
  let b := min (fld w 0 13) limit
  setFld (setFld w 0 13 b) 16 14 (min (fld w 16 14) (limit - b))

/-- The settled value of an RW register: alias, implemented bits, ranges, joint bounds. -/
def settled (pg ofs : Nat) (r : Row) (al : Alias) (old data : Word) : Word :=
  let m := word r.mask
  settle pg ofs (clampAll ((aliasValue al old data &&& m) ||| (old &&& ~~~ m)) r.lims)

/-- Whether a write was clamped: the settled value differs from what the alias operation gave. -/
def wasClamped (pg ofs : Nat) (r : Row) (al : Alias) (old data : Word) : Bool :=
  let m := word r.mask
  settled pg ofs r al old data ≠ ((aliasValue al old data &&& m) ||| (old &&& ~~~ m))

end Sys2Proof.Machine
end

