-- ==== Sys2Proof/Machine/Frac.lean ====
section
/-! DEFINITION. Exact fractions for the mains period T_m and the predictions made from it (R97 to R99): the spec rounds
none of them, so none is rounded here. -/

namespace Sys2Proof.Machine

/-- A fraction num / den with den > 0, held in lowest terms. -/
structure Frac where
  num : Int
  den : Nat
deriving DecidableEq, Repr

/-- num / den in lowest terms. -/
def Frac.mk' (num : Int) (den : Nat) : Frac :=
  let g := Nat.gcd num.natAbs den
  ⟨num.tdiv g, den / g⟩

abbrev Frac.ofNat (n : Nat) : Frac := ⟨n, 1⟩
def Frac.add (a b : Frac) : Frac := Frac.mk' (a.num * b.den + b.num * a.den) (a.den * b.den)
def Frac.sub (a b : Frac) : Frac := Frac.mk' (a.num * b.den - b.num * a.den) (a.den * b.den)
def Frac.scale (a : Frac) (n d : Nat) : Frac := Frac.mk' (a.num * n) (a.den * d)
def Frac.le (a b : Frac) : Bool := a.num * b.den ≤ b.num * a.den
def Frac.sum : List Frac → Frac
  | [] => ⟨0, 1⟩
  | a :: t => Frac.add a (Frac.sum t)

/-- The fraction to the nearest integer, a tie upwards. -/
def Frac.round (a : Frac) : Int := (2 * a.num + a.den).fdiv (2 * a.den)

/-- The mean of a list that is not empty. -/
def Frac.mean (l : List Frac) : Frac := Frac.scale (Frac.sum l) 1 l.length

/-- n / a for a positive fraction a. -/
def Frac.divInto (n : Int) (a : Frac) : Frac := Frac.mk' (n * a.den) a.num.toNat

/-- The largest integer at or below the fraction. -/
def Frac.floor (a : Frac) : Int := a.num.fdiv a.den

/-- |a|, a · b and comparison below. -/
def Frac.abs (a : Frac) : Frac := ⟨(a.num.natAbs : Int), a.den⟩
def Frac.mul (a b : Frac) : Frac := Frac.mk' (a.num * b.num) (a.den * b.den)
def Frac.lt (a b : Frac) : Bool := a.num * b.den < b.num * a.den

end Sys2Proof.Machine
end

