-- ==== Sys2Proof/Machine/State.lean ====
section
/-! DEFINITION. The state of the module as plain data. Every register has one home: `regs`, a canonical table keyed by
page and offset (or indirect address), whose unlisted entries hold the reset values of RegMap. Beside it stand the
shadows, the per-path banks and latches, and for each block the state that no register shows. -/

namespace Sys2Proof.Machine

/-- How a step can stop with a fault. No command of this block stops so: every rule of the spec gives an effect
(NOTES.md, Stops). -/
inductive Fault where
  /-- Raised by no meaning; kept because the host's interface asks for a fault type. Safe. -/
  | none
deriving DecidableEq, Repr

/-- How a step can refuse. -/
inductive Refusal where
  /-- Raised by an arm of exec whose command has no meaning yet. Safe: nothing can be proved of the command. -/
  | notModelled (mnemonic : String)
deriving DecidableEq, Repr

/-- What the last access of a path returned: its status (Table REG-10) and, for a read, its value. The model's own
field: the spec gives the values to the path, which keeps them outside the block. -/
structure Access where
  status : Nat := 0
  data : Word := 0
deriving DecidableEq, Repr

/-- What goes on when an access ends: the path is told its status and data; a lane's REGR or REGW with its D goes on; a posted
write leaves the buffer; the SPI queue, or the tunnel request in progress, goes on with its next access. -/
inductive Cont where
  | told
  | regr (d : BitVec 5)
  | regw (d : BitVec 5)
  | post
  | spi
  | tunnel
deriving DecidableEq, Repr

/-- An access that a path presents (R141): its address and data, and, for a command that names an indirect address itself instead of
the path's IND_ADDR, that address. -/
structure PortReq where
  path : Path
  write : Bool
  addr : Word
  data : Word
  ia : Option Nat := none
  cont : Cont := .told
deriving DecidableEq, Repr

/-- An indirect access in progress on a slow page (R140): its path, alias, kind and data, the tick of its grant, and what goes on
when it ends. -/
structure IndOp where
  path : Path
  al : Alias
  write : Bool
  data : Word
  since : Nat := 0
  cont : Cont := .told
deriving DecidableEq, Repr

/-- Service SPI port (R144): the queue of accesses, whether the oldest waits at its page or is in progress, the parts of the status
word, and what the last frame returned. -/
structure SpiOp where
  write : Bool
  addr : Word
  data : Word
deriving DecidableEq, Repr

structure Spi where
  queue : List SpiOp := []
  going : Bool := false
  rdDone : Bool := false
  ovf : Bool := false
  early : Bool := false
  frameErr : Bool := false
  lastStatus : Nat := 0
  rdata : Word := 0
  miso : Word := 0
deriving DecidableEq, Repr

/-- Interrupt controller (R432): the enables in force, the writes of ENw that wait to take effect as (tick of effect,
w, value), the sources delivered under the old value meanwhile, the pages whose IRQ_PEND and IRQ_EN have risen or fallen
together in the present ft, so that their summary lines change in the following one (R127), the takes of the present ft as (path,
where a path takes; source) and its completions, which come behind the fires of the ft (R431), and IRQ_N low (R433). -/
structure IntC where
  en : Tbl Word := []
  writes : List (Nat × Nat × Word) := []
  seen : List Nat := []
  rise : List Nat := []
  fell : List Nat := []
  took : List (Option Nat × Nat) := []
  done : List Nat := []
  pin : Bool := false
deriving DecidableEq, Repr

/-- A Cairn record (Tables CRN-1 and CRN-2), before it lies in the ring. `rpt` is the repeat count, 0 without a tail. -/
structure CrnRec where
  kind : Nat
  ctx : Nat
  code : Nat
  cycle : Word
  ts : Nat
  body : List Byte
  rpt : Nat := 0
  rcycle : Word := 0
  rts : Nat := 0
deriving DecidableEq, Repr

/-- Cairn (R454 to R461): the MRAM bytes of the ring, the write buffer, the freeze queue, the last record written and
its offset while a repeat may fold into it, the bytes of MARK and PAD records charged to the reserve, and the tick of
the freeze. -/
structure Cairn where
  mram : Tbl Byte := []
  buffer : List CrnRec := []
  queue : List CrnRec := []
  lastRec : Option (Nat × CrnRec) := none
  reserve : Nat := 0
  frozenAt : Nat := 0
  nextHour : Nat := 1
  marked : Bool := false
deriving DecidableEq, Repr

/-- Ridgeline (R90 to R117): the 96-bit sum of PHT.THETA and its fraction, whether the first LOCK has been, the stamps of
the last valid crossing, the last accepted periods, T_m, R_m, the prediction of the next crossing,
the misses in a row, the stamps counted towards a qualification, the tick at which HOLD began, the cycle number
that a pending announcement sets, the tick of the first LOCK, the tick at which the angle last reached 0x8000_0000 (R507), the tick of the last
commit of a new REF_SEL (R105), for each anchor generator the angle after which its next occurrence lies (R106), and the generators
whose occurrence of a commit ft still has to come under the old configuration (R192, R284). -/
structure Ridge where
  acc : Nat := 0
  locked : Bool := false
  lastValid : Option Nat := none
  periods : List Frac := []
  tm : Frac := ⟨0, 1⟩
  rm : Nat := 0
  pred : Frac := ⟨0, 1⟩
  misses : Nat := 0
  qual : List Nat := []
  holdAt : Nat := 0
  ann : Option Nat := none
  lockAt : Nat := 0
  halfAt : Option Nat := none
  refAt : Option Nat := none
  from_ : Nat := 0
  reached : Tbl Nat := []
  owed : Tbl Bool := []
deriving DecidableEq, Repr

/-- Power (R72 to R89): the rails are up; mains is declared good; a power-fail decision is in force; its tick and whether its cause
was the 12 V rail; half-cycle values in a row at or above the threshold of mains good, and below PF_VOLTS; the 12 V rail is at or
above 11.4 V; the store's energy in 0.1 mW · ft (0.25 pJ) at a tick; whether the store has been measured since the start, and the
tick of its last measurement. -/
structure Power where
  powered : Bool := true
  mainsGood : Bool := false
  pf : Bool := false
  decidedAt : Nat := 0
  byRail : Bool := false
  good : Nat := 0
  low : Nat := 0
  rail : Bool := true
  store : Nat := 0
  storeAt : Nat := 0
  capDone : Bool := false
  capAt : Nat := 0
deriving DecidableEq, Repr

/-- A waiting fabric request (R410): its master, beats, address, the tick it was raised, the masters granted while it
waited, and whether it has been counted as starved (R415). -/
structure FabReq where
  m : Nat
  beats : Nat
  addr : Nat
  since : Nat
  passedBy : List Nat := []
  counted : Bool := false
deriving DecidableEq, Repr

/-- A data path (R406 to R409): its owner, whether a burst is in progress, whether it is parked on the owner, the first ft in
which the next beat may cross, the beats left and sent, and the address of the next beat. -/
structure FabPath where
  owner : Nat := 0
  busy : Bool := false
  parked : Bool := false
  start : Nat := 0
  left : Nat := 0
  sent : Nat := 0
  addr : Nat := 0
deriving DecidableEq, Repr

/-- A region test (R426): the ft of its start and the first ft of steps 2 and 3 of Table FAB-3, which are free. -/
structure BtRun where
  start : Nat
  march : Nat
  back : Nat
deriving DecidableEq, Repr

/-- Saddle (R406 to R427): the request queue, both paths, the first ft whose beats and decision are not accounted for yet, the ft from
which each master may raise its next request, banks on their way to ON with the tick of arrival, poisoned SRAM words, the words that
errors have struck and nothing has read since, with their bits (R421), the burst codes in force since the last reset (R481), the ft of
the scrubber's last words (R424), and the region test in progress and the ft in which the last one was due (R426). -/
structure Fabric where
  queue : List FabReq := []
  d0 : FabPath := {}
  d1 : FabPath := {}
  upTo : Nat := 0
  mayAt : Tbl Nat := []
  changing : Tbl Nat := []
  poison : Tbl Bool := []
  struck : List (EccWord × Nat) := []
  burst0 : Word := 0
  burst1 : Word := 0
  scrubAt : Nat := 0
  bt : Option BtRun := none
  btAt : Option Nat := none
deriving DecidableEq, Repr

/-- The clock (R439 to R450): the freeze copies of SUBSEC to CENT, whether a time register has been written since the last
commit or discard, the shadows captured by a commit that waits for the backup domain, the next occurrence of each armed alarm
in seconds, alarms that fired unpowered, whether the backup supply was lost, and the tick of the last commit instant (R441). -/
structure Rtc where
  frozen : Option (List Word) := none
  touched : Bool := false
  commit : Option (List Word) := none
  next : Tbl (Option Nat) := []
  owed : List Nat := []
  lost : Bool := false
  setAt : Option Nat := none
deriving DecidableEq, Repr

/-- A lookup in the credential unit (R175 to R177): the lane, D, key, kind, group and context, the ft of its issue, whether its
program still waits for it; and, once the port has accepted it, its first ft, code and entry, and whether the entry is as read. -/
structure Lookup where
  lane : Nat
  d : Nat
  key : Dword
  lift : Bool
  group : Nat
  ctx : Nat
  issued : Nat := 0
  waits : Bool := true
  first : Nat := 0
  result : Option (Nat × Nat) := none
  asRead : Bool := true
deriving DecidableEq, Repr

/-- The point map beside its entries (R153 to R177): values, tunnel latches, the tunnel latches in which a write has
arrived, the tick of each latch's last write with what it held before that ft, and queued lookups. -/
structure Points where
  val : Tbl Dword := []
  tun : Tbl Dword := []
  tunNew : Tbl Bool := []
  tunWas : Tbl (Option (Nat × Option Dword)) := []
  lookups : List Lookup := []
deriving DecidableEq, Repr

/-- A section, a point definition and a carry entry of a container (Tables LDR-3, LDR-4, LDR-7). -/
structure Sect where
  len : Nat
  retained : Bool
  init : Option (List Byte)
deriving DecidableEq, Repr

structure PDef where
  idx : Nat
  typ : Nat
  value : Option Dword
deriving DecidableEq, Repr

structure Carry where
  kind : Nat
  srcSect : Nat
  dstSect : Nat
  srcType : Nat
  dstType : Nat
  srcIdx : Nat
  dstIdx : Nat
  count : Nat
deriving DecidableEq, Repr

/-- A verified program (Table LDR-2), its proven bound (R262) and lock spans (R263), and its length, as the archive holds it. -/
structure Prog where
  ctx : Nat
  lane : Nat
  cls : Nat
  event : Bool
  skip : Bool
  limit : Nat
  pid : Word
  gen : Nat
  sects : List Sect
  pdefs : List PDef
  carry : List Carry
  edges : Nat
  code : List (BitVec 64)
  bound : Nat
  bytes : Nat
  spans : List (Nat × Nat) := []
  edgeInit : List Byte := []
  crc : Word := 0
  raw : List Byte := []
deriving DecidableEq, Repr

/-- One timer (R247). -/
structure Timer where
  run : Bool := false
  start : Nat := 0
  q : Bool := false
  last : Bool := false
deriving DecidableEq, Repr

/-- A change of a slot: the slot that holds the code beside, the tick of its arm, and whether its container has not been mirrored. -/
structure Change where
  beside : Nat
  armed : Option Nat := none
  unmirrored : Bool := false
deriving DecidableEq, Repr

/-- One program slot (R265 to R280): state by Table LDR-1, the program, the SRAM address of each section (the working
copy of a retained section follows its committed copy), the code-store address, timers, edge bits, consecutive faulted
cycles, a change in progress, the tick of an UNLOAD, a load that waits for its cycle with the tick of its command's completion, the
tick of a RESTART that waits for its cycle, the slot that a beside holder belongs to, and whether the timers hold elapsed times that
its first cycle turns into starts (R249). -/
structure Slot where
  state : Nat := 0
  prog : Option Prog := none
  sects : List Nat := []
  codeAt : Nat := 0
  timers : Tbl Timer := []
  edges : Tbl Bool := []
  faults : Nat := 0
  faulted : Bool := false
  change : Option Change := none
  unload : Option Nat := none
  loading : Bool := false
  loadedAt : Option Nat := none
  restarting : Option Nat := none
  holderOf : Option Nat := none
  rebase : Bool := false
deriving DecidableEq, Repr

/-- The program loader: the last command with its status, the program of an accepted LOAD or CHANGE that has not completed, the tick of
the command and how long its verification and its placing show (R282), the archive in the image flash (two newest generations of each
slot, with the whole program), and the generation of each slot that MRAM records (R281). -/
structure Loader where
  op : Nat := 0
  slot : Nat := 0
  status : Nat := 0
  prog : Option Prog := none
  since : Nat := 0
  verify : Nat := 0
  place : Nat := 0
  archive : List (Nat × Prog) := []
  recorded : Tbl (Option Nat) := []
deriving DecidableEq, Repr

/-- A counted loop in progress (R240) and a call frame (R231). Addresses count bytes from the program's start. -/
structure LoopFr where
  first : Nat
  stop : Nat
  k : Nat
  n : Nat
  d : Nat
deriving DecidableEq, Repr

structure Frame where
  ret : Nat
  loops : List LoopFr
deriving DecidableEq, Repr

/-- One item of a lane's due work: a slot, and the binding of an event task. -/
structure Work where
  slot : Nat
  evb : Option Nat
deriving DecidableEq, Repr

/-- A held point store (R198, R245): slot, point and value. -/
structure Held where
  slot : Nat
  pt : Nat
  value : Dword
deriving DecidableEq, Repr

/-- A posted write (R251): its slot and the number of its run, the code-store address of its REGW, and the write. -/
structure Post where
  slot : Nat
  run : Nat
  pc : Nat
  addr : Word
  data : Word
deriving DecidableEq, Repr

/-- A queued lock request of a lane (R215): the lock, D, the deadline, and the tick of the request. -/
structure LockWait where
  lock : Nat
  d : Nat
  deadline : Option Nat
  since : Nat
deriving DecidableEq, Repr

/-- One scan lane (R228 to R231). `running` says that a run is in progress; `endAt` is the ft after whose next the lane goes
on: that of the last program's END, of its fault, or two after the END of an event task (R206, R210). `step` says that a STEP
pulse lets a halted lane execute its next instruction (R225), `reg` that a register access of the lane has not ended (R252), `posting` that the oldest posted
write has been presented; `runNo` counts the lane's runs. -/
structure Lane where
  g : Tbl Dword := []
  running : Bool := false
  slot : Nat := 0
  evb : Option Nat := none
  runs : Nat := 0
  pc : Nat := 0
  frames : List Frame := []
  loops : List LoopFr := []
  held : List Held := []
  ended : List Nat := []
  work : List Work := []
  posts : List Post := []
  wait : Option LockWait := none
  cred : Bool := false
  endAt : Nat := 0
  step : Bool := false
  reg : Bool := false
  posting : Bool := false
  runNo : Nat := 0
deriving DecidableEq, Repr

/-- The figures of a class's last completed cycle that the VIEW registers show. -/
structure ClassView where
  start : Nat := 0
  exec : Nat := 0
  out : Nat := 0
  copy : Nat := 0
  max : Nat := 0
  cycle : Word := 0
deriving DecidableEq, Repr

/-- The cycle in progress (R197): anchor tick, due set, phase by Table SCN-7, stamp at the anchor, T_IN and T_OUT, the
tick x, staged input values (point, value, writer kind), whether it is late, the slots that switch, the base anchors met since
its own (or since a halt) and whether a halt suspends that count (R543), PHT.CYCLE at the anchor, the output frames captured at
the OUTPUT commit, whether they have been queued, and the slots that have switched in it (R275). -/
structure Cycle where
  at_ : Nat
  due : Nat
  phase : Nat := 1
  stamp : Nat := 0
  tIn : Nat := 64
  tOut : Nat := 64
  x : Nat := 0
  staged : List (Nat × Dword × Nat) := []
  late : Bool := false
  switching : List Nat := []
  met : Nat := 0
  halt : Bool := false
  cycleNo : Word := 0
  frames : List (Nat × Nat × List Byte) := []
  built : Bool := false
  switched : List Nat := []
deriving DecidableEq, Repr

/-- The scan engine (R189 to R211): the cycle in progress, the capture tick and stamp of the current cycle, the classes that skip their next occurrence, views, the first cause of lateness
in the cycle in progress, whether a priority commit followed a load, the occurrence count of each class (R30), whether a
base cycle has ended since the start, and the due set of a base anchor of a commit ft that still has to come (R192). -/
structure Scan where
  cycle : Option Cycle := none
  capture : Nat := 0
  stamp : Nat := 0
  skip : List Nat := []
  views : Tbl ClassView := []
  cause : Nat := 0
  prio : Bool := false
  occ : Tbl Nat := []
  ended : Bool := false
  owed : List Nat := []
deriving DecidableEq, Repr

/-- One lock (R212 to R219): state by Table LCK-3, holder kind and number, lane, the grant tick, the queue,
and the ft of the last release or break. -/
structure LockSt where
  state : Nat := 0
  kind : Nat := 0
  holder : Nat := 0
  lane : Nat := 0
  since : Nat := 0
  queue : List Nat := []
  freed : Option Nat := none
deriving DecidableEq, Repr

/-- What a loop captured at its last anchor (R286): the measured value and target with their bad marks, the output
point's value in force as binary32, whether that point is forced, and its PID words in force (KP, KI, KT, ALPHA, KDF, Ts). -/
structure Capture where
  pv : Word
  pvBad : Bool
  target : Word
  targetBad : Bool
  out : Word
  forced : Bool
  tune : List Word := []
deriving DecidableEq, Repr

/-- A loop beside its entry (R286 to R306), cascade loop n under n and PID loop p under 1,024 + p: the point numbers
that its indices resolved to at LP_DEF (the writer entry and R166), the tick of a write of EN or RECOVER that waits for its anchor, whether the start procedure is due, the
pending output, the captured inputs, good samples in a row, the last value applied, and pv_prev. -/
structure Loop where
  pvPt : Nat := 0
  spPt : Nat := 0
  outPt : Nat := 0
  enabling : Option Nat := none
  starting : Bool := false
  pend : Option Word := none
  cap : Option Capture := none
  good : Nat := 0
  lastOut : Word := 0
  pvPrev : Word := 0
deriving DecidableEq, Repr

/-- The loop engine (R283 to R310): loops, the coefficients in force of each section (b0, b1, b2, a1, a2, SHIFT), the tick of
each group's last anchor while its computation runs, the tick of each group's last anchor with the ft that its computation is
charged, and the anchor (its PHT.THETA) for which a group's inputs are captured. -/
structure LoopEng where
  loop : Tbl Loop := []
  coef : Tbl (List Word) := []
  running : Tbl (Option Nat) := []
  charged : Tbl (Option (Nat × Nat)) := []
  capped : Tbl (Option Nat) := []
deriving DecidableEq, Repr

/-- One meter channel (R316 to R323): its values in V or A and its elements e and r in 2^-40 units, each newest first over
one turn, whether the channel was in GAP in the last processing ft, and the newest outputs of its integrator by sample. -/
structure Chan where
  vals : List Frac := []
  e : List Int := []
  r : List Int := []
  gap : Bool := false
  integ : List (Nat × Int) := []
deriving DecidableEq, Repr

/-- The MRAM copy of the meter (R329): the register words of totals, wrap counts, CH_WRAP and remainder totals, the residues,
and the INT_SEQ and cycle stamp of the copy. -/
structure MeterCopy where
  words : Tbl Word := []
  acc : Tbl Nat := []
  seq : Word := 0
  stamp : Nat := 0
deriving DecidableEq, Repr

/-- A power-quality event in progress (R346): its start as a half-cycle stamp, its extreme as binary32, and whether it was
open at a save (R347). -/
structure PqEvent where
  start : Nat
  extreme : Word
  through : Bool := false
deriving DecidableEq, Repr

/-- A pulse output (R341): whether its pulse is on, the tick at which it switched, and PLS_TIMEn as that pulse took it. -/
structure Pulse where
  on : Bool := false
  since : Nat := 0
  time : Word := 0
deriving DecidableEq, Repr

/-- The meter engine (R314 to R347): the anchor (number, tick) whose sample set has not been delivered, the sets that wait for
their processing ft or serve the interpolation (number, tick, codes; newest first), the spans Δ over one turn, the last
processed anchor, channels, residues, quanta gained in the interval and in the last processing ft (key 8 · channel + q),
the committed ledger configuration that waits for a closure and the tick of its commit, whether a closure waits for the
quanta of its ft, whether the interval in progress is short, pulse outputs, values in a row at or above 50 % of UDIN,
power-quality events (key 4 · phase + type), the time of day of the last save, the checkpoint and the save in MRAM, and
the unreleased window sums that COPY brought (key channel). -/
structure Meter where
  await : Option (Nat × Nat) := none
  pipe : List (Nat × Nat × List Int) := []
  deltas : List Nat := []
  done : Nat := 0
  chan : Tbl Chan := []
  acc : Tbl Nat := []
  gain : Tbl Nat := []
  now : Tbl Nat := []
  grp : Tbl Word := []
  grpAt : Nat := 0
  closing : Bool := false
  short : Bool := true
  pulse : Tbl Pulse := []
  pqRun : Tbl Nat := []
  pq : Tbl (Option PqEvent) := []
  pqDay : Nat := 0
  copy : MeterCopy := {}
  saved : Option MeterCopy := none
  unrel : Tbl (Int × Int) := []
deriving DecidableEq, Repr

/-- A sense link (R331 to R335): the tick at which its state began, whether DETECT waits for its retry (R53), lost and good
frames in a row, the last good sample set, received sets by sample number, the reply of the head to the access in progress,
and the last down frame (Table
SNS-2). -/
structure Link where
  since : Nat := 0
  wait : Bool := false
  lost : Nat := 0
  good : Nat := 0
  set : List Int := []
  sets : List (Nat × List Int) := []
  reply : Option Word := none
  down : List Byte := []
deriving DecidableEq, Repr

/-- A message (R354, R355): the context that its credits belong to, its credits, and its image. -/
structure Message where
  ctx : Nat
  credits : Nat
  bytes : List Byte
deriving DecidableEq, Repr

/-- What a channel offers to its bus (R360): a reference message with its occurrence count, its anchor, whether the occurrence is skipped
and the cycle stamp at the anchor (R369), the second frame of a SEND_TWICE, an output frame, a message of a transmit queue, or an osdp_POLL to a poll entry. `q` is the queue. -/
inductive Sending where
  | ref (occ : Nat) (at_ : Nat) (skipped : Bool) (stamp : Nat)
  | frame (o : Nat) (bytes : List Byte)
  | msg (q : Nat) (m : Message) (second : Bool)
  | poll (e : Nat)
deriving DecidableEq, Repr

/-- One field-bus channel (R359 to R376): queued messages by queue, the transmission in flight, receptions on their way
to their queue, image slots (live and frozen), built frames not yet sent, the last frames sent, a reference message to
offer, whether a slot anchor has opened a transaction, a DALI frame waiting for its backward window, retries left of an
OSDP exchange, the next poll entry, the entry whose secure channel is being established, whether the channel is shed, whether its
first scheduled transmission since the release has come (R70), the messages that MSGR has truncated (R254), the images that stood at the
start of the ft `wasAt` in the slots written in it, the ft in which the last reference message completed and that of the last RECOVER
outside BUS_OFF (R362, R368), and the sequence number of the next command to each OSDP address (R375). -/
structure BusCh where
  queue : Tbl (List Message) := []
  flight : Option Sending := none
  arriving : List (Nat × Message) := []
  img : Tbl (List Byte) := []
  frozen : Tbl (List Byte) := []
  built : Tbl (List Byte) := []
  lastSent : Tbl (List Byte) := []
  ref : Option Sending := none
  open_ : Bool := false
  second : Option Sending := none
  reply : Option Nat := none
  retries : Nat := 0
  nextPoll : Nat := 0
  target : Option Nat := none
  shed : Bool := false
  sched : Bool := false
  truncated : Nat := 0
  was : Tbl (List Byte) := []
  wasAt : Option Nat := none
  refDone : Option Nat := none
  recoverAt : Option Nat := none
  osdpSeq : Tbl Nat := []
deriving DecidableEq, Repr

/-- The Ethernet ports (R384 to R391), T1S0, T1S1, UPL0, UPL1 as 0 to 3: remainders of received octets by port, attempts of
the frame being sent and the slot times drawn for its back-off (R388), the transceiver cache, whether a transceiver is accepted, its last refresh, and the partner's wake
time. -/
structure Net where
  octets : Tbl Nat := []
  attempts : Tbl Nat := []
  backoff : Tbl Nat := []
  cache : Tbl Byte := []
  accepted : Bool := false
  refreshed : Nat := 0
  partnerTw : Option Nat := none
deriving DecidableEq, Repr

/-- One operation of a tunnel request (Table TUN-2). -/
structure TunOp where
  opcode : Nat
  oflags : Nat
  addr : Word
  data : Word
deriving DecidableEq, Repr

/-- An authentic tunnel request (Table TUN-1): its session, flags and sequence, its source, and its decrypted operations. -/
structure Datagram where
  session : Nat
  flags : Nat
  seq : Nat
  srcAddr : Nat
  srcPort : Nat
  ops : List TunOp
deriving DecidableEq, Repr

/-- A reply (Table TUN-1): the status, the sequences, the replies of Table TUN-3, and the datagram as it is sent. -/
structure Reply where
  session : Nat
  flags : Nat
  status : Nat
  seq : Nat
  ack : Nat
  next : Nat
  ops : List (Nat × Word)
  bytes : List Byte
deriving DecidableEq, Repr

/-- A tunnel session beside its entry (R395 to R401): held requests with their arrival ticks, the reply cache (newest
first), the opening peer, the tick of the last authentic request, the end of the reserved block of reply sequences, and the key that the
session was opened with. -/
structure Session where
  held : List (Datagram × Nat) := []
  cache : List (Nat × Reply) := []
  addr : Nat := 0
  port : Nat := 0
  lastAt : Nat := 0
  reserved : Nat := 1
  key : BitVec 256 := 0
deriving DecidableEq, Repr

/-- A request in progress whose next operation waits at its page or is under way: the request, the replies so far (newest first), the
operations left, and whether STOP_ON_ERR skips them. -/
structure TunRun where
  d : Datagram
  replies : List (Nat × Word)
  left : List TunOp
  skip : Bool
deriving DecidableEq, Repr

/-- The tunnel engine: sessions, the ingress queue, the request in progress, and the last reply sent (R394). -/
structure Tunnel where
  session : Tbl Session := []
  ingress : List Datagram := []
  run : Option TunRun := none
  sent : Option Reply := none
deriving DecidableEq, Repr

/-- A submission to the vault (R477): path index, the context of the path, and the message bytes. -/
structure Submission where
  path : Nat
  ctx : Nat
  bytes : List Byte
deriving DecidableEq, Repr

/-- The key vault (R464 to R482): the root of each lifecycle state that the module has entered, key material by slot and the sealing key
under which it stands, submissions taken in order, the target of a running transition and whether the submission at the head started it,
the plain key words, attestations in progress as (path, message to be signed), and a fuse blow in progress as (offset, bits). -/
structure Keys where
  roots : List (Nat × BitVec 256) := []
  mat : Tbl (BitVec 256) := []
  sealed : Tbl (BitVec 256) := []
  queue : List Submission := []
  transition : Option Nat := none
  returning : Bool := false
  plain : Tbl Word := []
  attesting : List (Nat × List Byte) := []
  blowing : Option (Nat × Word) := none
deriving DecidableEq, Repr

/-- The fuses (R464, R479): the blown bits by register offset of Table FUS-1. A command that completes neither a blow nor a
lifecycle transition keeps them (Machine/Ops.lean, `State.commit`). -/
structure Fuses where
  blown : Tbl Word := []
deriving DecidableEq, Repr

/-- What the header of an image's manifest says of it (Table UPD-2). -/
structure Image where
  fw : Word := 0
  sec : Nat := 0
  setFmt : Nat := 0
  proto : Nat := 0
  saveFmt : Nat := 0
  chunks : Nat := 0
deriving DecidableEq, Repr

/-- A copy of the directory of the image flash (R485): its sequence number and the slots of the roles. -/
structure DirCopy where
  seq : Nat := 0
  active : Nat := 0
  fallback : Nat := 1
  staging : Nat := 2
deriving DecidableEq, Repr

/-- The update engine (R485 to R500): the words of the chunk buffer, the chunk and manifest-chunk bitmaps, the image flash as
chunks (key 8,192 · slot + i) and manifest chunks (key 128 · slot + i) of words, the directory in force (the slot of each role, the
images of the slots) and its two copies, the chunk that is being written with what its read-back gives, when the owner last used the buffer, the tick of the next second of the trial, applied COPY phases in a row,
whether an external confirmation waits, the frozen settings area of the previous image (R498), and the image-signing public keys of the boot
ROM as x · 2^256 + y, where they are not those of `Config.signingKey` (R487). -/
structure Update where
  romKeys : Tbl (BitVec 512) := []
  buffer : Tbl Word := []
  have_ : Tbl Bool := []
  manHave : Tbl Bool := []
  chunks : Tbl (List Word) := []
  manifs : Tbl (List Word) := []
  active : Nat := 0
  fallback : Nat := 1
  staging : Nat := 2
  dirA : DirCopy := { seq := 1 }
  dirB : DirCopy := {}
  writing : Option (Nat × List Word × Bool) := none
  image : Tbl Image := []
  usedAt : Nat := 0
  secondAt : Nat := 0
  copies : Nat := 0
  confirm : Bool := false
  oldArea : Option (Tbl Word) := none
deriving DecidableEq, Repr

/-- A mirror request of this module that waits for its response (R522): its request number, the path that issued it (none for a
relay of R499), its kind, address and data, and the tick at which it was sent. -/
structure MirReq where
  path : Option Nat
  req : Word
  write : Bool
  addr : Word
  data : Word
  at_ : Nat
deriving DecidableEq, Repr

/-- A COPY in flight on the primary (R514, R515): its start tick, sequence, captured words, and whether it is final. -/
structure CopyOut where
  at_ : Nat
  seq : Nat
  words : List (Nat × BitVec 256)
  final : Bool
deriving DecidableEq, Repr

/-- A COPY that the standby receives (R516): its sequence, the next frame index, the words received, whether it has failed, and the
cycle stamp at its first frame. -/
structure CopyIn where
  seq : Word
  next : Nat
  count : Nat
  bad : Bool
  stamp : Nat
deriving DecidableEq, Repr

/-- The pair (R503 to R528): cable accepted and link UP; whether the partner's mirror answers; the tick of the last HEALTH frame;
the base anchor whose heartbeat decision is due, with the CAN-mastered classes due at it and the reference count that each expects;
whether HEALTH frames have been heard since the start; the partner's DEV_ID; the copy address from which every word is dirty (single
dirty words are State.dirty); the copy sequence; the COPY going out and coming in; the receive log; whether its apply is in progress,
whether the standby holds an applied state, and the cycle stamp of that COPY; containers on their way to the standby, and container
bytes received in blocks of 32 (key (slot · 65,536 + generation) · 65,536 + block); a demotion due at the next base anchor (R511); a
hand-over (1 HANDOVER, 2 LEAVING), its tick, and whether its flag is set (R519); mirror requests and the last request number; the
last reference count heard by class (R518); the TURN that the next turn boundary takes over (R508); repeats of R521 left; frames
discarded in the present turn (Table PAR-7); whether JOIN_WAIT has passed (R512); half-cycles in a row without a HEALTH frame (R517); the tick
of the last repeat of R521; and the last answer to a COPY (its sequence, and whether it is a NAK). -/
structure Pair where
  accepted : Bool := false
  up : Bool := false
  far : Bool := false
  healthAt : Nat := 0
  anchorAt : Option Nat := none
  anchorDue : List (Nat × Option Nat) := []
  heard : Bool := false
  devId : BitVec 128 := 0
  dirtyFrom : Option Nat := none
  seq : Nat := 0
  out : Option CopyOut := none
  rx : Option CopyIn := none
  log : List (Nat × BitVec 256) := []
  applying : Bool := false
  applied : Bool := false
  stamp : Nat := 0
  archOut : List (Nat × Nat) := []
  arch : Tbl (List Byte) := []
  demote : Bool := false
  wish : Nat := 0
  wishAt : Nat := 0
  flagged : Bool := false
  mirror : List MirReq := []
  reqNo : Word := 0
  lastRef : Tbl (Option Nat) := []
  turn : Option Word := none
  advs : Nat := 0
  discards : Nat := 0
  solo : Bool := false
  silent : Nat := 0
  advAt : Nat := 0
  acked : Option (Word × Bool) := none
deriving DecidableEq, Repr

/-- What a save keeps of the content of Tables PTM-9, SCN-4 and LPE-5 (R535): the registers, data SRAM, point values, slots and
loops as they were, and the tick of the save. The meter's part is `Meter.saved`. -/
structure SaveImg where
  regs : Tbl Word := []
  sram : List Host.Cell := []
  val : Tbl Dword := []
  slots : Tbl Slot := []
  loop : Tbl Loop := []
  at_ : Nat := 0
deriving DecidableEq, Repr

/-- The save record in MRAM (R535, R545): SAVE_SEQ, SAVE_FMT, WARM_OK, the reset cause, the cycle stamp, the generation of
each slot, whether it is complete and whether it has been consumed (R536), and the saved content. -/
structure SaveRec where
  seq : Nat
  fmt : Nat
  warmOk : Bool
  cause : Nat
  stamp : Nat
  gens : List (Nat × Nat)
  complete : Bool := false
  consumed : Bool := false
  img : SaveImg := {}
deriving DecidableEq, Repr

/-- Start-up and faults (R530 to R547): the latest complete save record, and one that is being written or was interrupted; whether step 7 of Table SYS-2 has passed; whether the first
base cycle has started; whether the start was cold; the ticks of the module faults; the tick of the last fault and of the last reset;
an accepted restart (1 warm, 2 cold) with its reset cause, which waits for a hand-over or for the end of a
save; the reset cause that follows the save that runs or is due (0: none); the module fault in force (0: none) and whether a save
has run since it; the reset in which the module is held (2 rail, 3 clock, 0 none). -/
structure Sys where
  save : Option SaveRec := none
  draft : Option SaveRec := none
  released : Bool := false
  firstDone : Bool := false
  cold : Bool := false
  faultAts : List Nat := []
  faultAt : Nat := 0
  resetAt : Nat := 0
  restart : Nat := 0
  restartCause : Nat := 0
  saveCause : Nat := 0
  fault : Nat := 0
  faultSaved : Bool := false
  held : Nat := 0
deriving DecidableEq, Repr

/-- The discrete terminals (R61 to R68): unread stamps, the tick of the last read of a stamp, the value that each mapped output takes from
its point, and what has started since the release (R70): 0 the first OUTPUT phase, 1 the first sample processing. -/
structure Dio where
  unread : Tbl Bool := []
  readAt : Tbl (Option Nat) := []
  want : Tbl Bool := []
  follows : Tbl Bool := []
deriving DecidableEq, Repr

/-- The last entry-latch words of a path and space (R180): the entry's base address and its latched words. -/
structure EntryLatch where
  base : Nat := 0
  words : Tbl Word := []
deriving DecidableEq, Repr

/-- What registers and points held at the start of a ft (R23, R129): hardware that samples one of them in the ft of its change takes
this value. `at_` is the ft, none before the first command. -/
structure Before where
  at_ : Option Nat := none
  regs : Tbl Word := []
  val : Tbl Dword := []
deriving DecidableEq, Repr

/-- The module. `variant` is FUSE_VARIANT (bit 0 MF2048-A, bit 1 coated), which nothing changes (R8). `waiting` holds the accesses that wait for the port of a page with an indirect access in progress (R141), `fences` the
paths that a fence stalls (R146). `closed` is the last ft whose hardware updates have been resolved: an access comes before them (R138), so one that is
given later is granted in the next ft; `ports` are the pages whose port has granted its one access of the present ft (R141).
`snapAt` holds the ft of each page's last SNAP write (R138). -/
@[ext]
structure State where
  regs : Tbl Word := []
  shadow : Tbl Word := []
  bank : Tbl Word := []
  entry : Tbl EntryLatch := []
  last : Tbl Access := []
  busy : Tbl (Option IndOp) := []
  waiting : List PortReq := []
  fences : List Path := []
  spi : Spi := {}
  intc : IntC := {}
  tick : Nat := 0
  fresh : Nat := 0
  sram : List Host.Cell := []
  ridge : Ridge := {}
  power : Power := {}
  sys : Sys := {}
  cairn : Cairn := {}
  fabric : Fabric := {}
  rtc : Rtc := {}
  points : Points := {}
  slots : Tbl Slot := []
  loader : Loader := {}
  lanes : Tbl Lane := []
  scan : Scan := {}
  locks : Tbl LockSt := []
  loops : LoopEng := {}
  meter : Meter := {}
  links : Tbl Link := []
  bus : Tbl BusCh := []
  net : Net := {}
  tun : Tunnel := {}
  keys : Keys := {}
  fuse : Fuses := {}
  variant : Word := 0
  upd : Update := {}
  pair : Pair := {}
  dirty : Tbl Bool := []
  dio : Dio := {}
  was : Before := {}
  closed : Option Nat := none
  ports : List Nat := []
  snapAt : Tbl (Option Nat) := []
  pending : List Instr := []
deriving DecidableEq, Repr

/-- The module right after the power-on reset is released (step 3 of Table SYS-2), with no command waiting. Every table
is empty, so every register holds its reset value of RegMap. -/
def State.reset : State := {}

end Sys2Proof.Machine
end

