-- ==== Sys2Proof/Machine/Ops.lean ====
section
/-! DEFINITION. The operations that the meanings of all families share: registers and their counters, pending bits and
interrupt sources, Cairn presentation, paths and their permission, SRAM, time, and the end of a command. -/

namespace Sys2Proof.Machine

open Sys2Proof.Config

/-- What every command's meaning answers (R120 to R148 give each an effect). -/
abbrev Out := Host.Outcome State Fault Refusal

/-- What registers and points held at the start of the ft in which a command ends at tick `n` (R23, R129). -/
def State.before (s : State) (n : Nat) : Before := if s.was.at_ = some n then s.was else ⟨some n, s.regs, s.points.val⟩

/-- The end of a command that neither blows fuses nor changes the queue: the effect `t` with the fuse state and the queue
of `s`. A fuse bit changes only through a blow or a lifecycle transition (R464, R479). -/
def State.commit (s t : State) : State := { t with pending := s.pending, fuse := s.fuse, was := s.before t.tick }

/-- A tick is held and lies before the present ft. -/
def State.sooner (s : State) (t : Option Nat) : Bool := match t with | some t => decide (t < s.tick) | none => false

/-- The end of a hardware event: as `commit`, and the accesses of its ft are past (R138). -/
def State.land (s t : State) : State := { s.commit t with closed := some t.tick }

/-! ### Registers -/

/-- Where a register of a page is kept: a block register of a page of method Indirect lies in its indirect space (R125). -/
def rkey (pg ofs : Nat) : Nat := if pageIndirect pg && 0x40 ≤ ofs then ikey pg ofs else dkey pg ofs

/-- The copy address of a register word of Table PAR-5: of the register words that regions 1 and 3 to 7 list (log entry 7). Counters and
what an interface shows are not copied. -/
def copyOf (k : Nat) : Option Nat :=
  if 4294967296 ≤ k then
    let pg := (k - 4294967296) / 16777216
    let o := (k - 4294967296) % 16777216
    let a := o / 32
    let acc := (RegMap.entryRow pg o).map (·.1.acc)
    if pg = pgPTM then (if acc = some .rc then none else some (0x01008000 + a))
    else if pg = pgLPE then some (0x03000000 + a)
    else if pg = pgMTR then
      (if acc = some .rw ∨ acc = some .rs ∨ (0x40 ≤ o % 256 ∧ o % 256 < 0x80) then some (0x04000000 + a) else none)
    else if 0x18 ≤ pg ∧ pg ≤ 0x27 then (if acc = some .rw then some (0x05000000 + (pg - 0x18) * 0x80000 + a) else none)
    else if pg = pgTUN then (if o % 32 = 8 ∨ o % 32 = 0x1C then none else some (0x06000000 + a)) else none
  else if 1073741824 ≤ k then none
  else
    let pg := k / 4096
    let o := k % 4096
    let acc := (RegMap.rowOf pg o).map (·.acc)
    if pg = pgPLS ∧ 0x040 ≤ o ∧ o < 0x140 then (if acc = some .rw ∨ 0x14 ≤ o % 32 then some (0x04020000 + o / 32) else none)
    else if pg = pgMLG ∧ 0x100 ≤ o ∧ o < 0x400 then (if 24 ≤ o % 32 then some (0x04028000 + o / 32) else none)
    else if (pg = pgSCN ∨ (0x10 ≤ pg ∧ pg ≤ 0x15) ∨ (0x18 ≤ pg ∧ pg ≤ 0x29) ∨ pg = pgTUN ∨ pg = pgINT ∨ pg = pgDIO) then
      (if acc = some .rw then some (0x07000000 + pg * 128 + o / 32) else none)
    else none

/-- Mark a word of the copied content dirty (R513). -/
def State.mark (s : State) (c : Option Nat) : State :=
  match c with
  | none => s
  | some a => { s with dirty := Tbl.set (fun _ => false) s.dirty a true }

/-- A fuse register (Table FUS-1) as blown; FUSE_VARIANT is fixed at manufacture (R8, R480). -/
def State.fuseReg (s : State) (ofs : Nat) : Word := if ofs = 0x048 then s.variant else Tbl.get (fun _ => 0) s.fuse.blown ofs
/-- The module is an MF2048-A. -/
abbrev State.small (s : State) : Bool := bit s.variant 0

/-- The word under a register key. -/
def State.getKey (s : State) (k : Nat) : Word := Tbl.get (RegMap.resetWord s.small) s.regs k

/-- Write the word under a register key. -/
def State.setKey (s : State) (k : Nat) (w : Word) : State :=
  { s with regs := Tbl.set (RegMap.resetWord s.small) s.regs k w,
           dirty := match copyOf k with
             | none => s.dirty
             | some a => Tbl.set (fun _ => false) s.dirty a true }

/-- A register of a page, an indirect register, a loader register. -/
abbrev State.reg (s : State) (pg ofs : Nat) : Word := s.getKey (rkey pg ofs)
abbrev State.setReg (s : State) (pg ofs : Nat) (w : Word) : State := s.setKey (rkey pg ofs) w
abbrev State.ind (s : State) (pg a : Nat) : Word := s.getKey (ikey pg a)
abbrev State.setInd (s : State) (pg a : Nat) (w : Word) : State := s.setKey (ikey pg a) w
abbrev State.ldr (s : State) (ofs : Nat) : Word := s.getKey (lkey ofs)
abbrev State.setLdr (s : State) (ofs : Nat) (w : Word) : State := s.setKey (lkey ofs) w

/-- One field of a register, and its replacement. -/
abbrev State.regFld (s : State) (pg ofs lo len : Nat) : Nat := fld (s.reg pg ofs) lo len
abbrev State.regBit (s : State) (pg ofs k : Nat) : Bool := bit (s.reg pg ofs) k
def State.setRegFld (s : State) (pg ofs lo len v : Nat) : State := s.setReg pg ofs (setFld (s.reg pg ofs) lo len v)
def State.setRegBit (s : State) (pg ofs k : Nat) (b : Bool) : State := s.setReg pg ofs (setBit (s.reg pg ofs) k b)

/-- A counter rises by `n`, modulo 2^32 (R13). -/
def State.addKey (s : State) (k n : Nat) : State := s.setKey k (s.getKey k + word n)
abbrev State.bump (s : State) (pg ofs : Nat) (n : Nat := 1) : State := s.addKey (rkey pg ofs) n

/-- A 64-bit value in a LO and a HI register of a page. -/
abbrev State.reg64 (s : State) (pg lo : Nat) : Nat := join64 (s.reg pg (lo + 4)) (s.reg pg lo)
def State.setReg64 (s : State) (pg lo v : Nat) : State := (s.setReg pg lo (loWord v)).setReg pg (lo + 4) (hiWord v)
abbrev State.ind64 (s : State) (pg lo : Nat) : Nat := join64 (s.ind pg (lo + 4)) (s.ind pg lo)
def State.setInd64 (s : State) (pg lo v : Nat) : State := (s.setInd pg lo (loWord v)).setInd pg (lo + 4) (hiWord v)

/-- A count register: +1, −1, with its high-water mark (R186). -/
def State.countUp (s : State) (pg ofs hwm n : Nat) : State :=
  let c := (s.reg pg ofs).toNat + n
  let s := s.setReg pg ofs (word c)
  if (s.reg pg hwm).toNat < c then s.setReg pg hwm (word c) else s
def State.countDown (s : State) (pg ofs n : Nat) : State := s.setReg pg ofs (s.reg pg ofs - word n)

/-- The shadow of a shadowed register (R133). -/
def State.getShadow (s : State) (pg ofs : Nat) : Word :=
  Tbl.get (RegMap.resetWord s.small) s.shadow (rkey pg ofs)
def State.setShadow (s : State) (pg ofs : Nat) (w : Word) : State :=
  { s with shadow := Tbl.set (RegMap.resetWord s.small) s.shadow (rkey pg ofs) w }

/-- A free value, drawn once (log entry 5). -/
abbrev State.freeWord (s : State) : BitVec 64 := freeValue s.fresh
def State.draw (s : State) : State := { s with fresh := s.fresh + 1 }

/-! ### Banks of a path -/

/-- Path numbers: Table LCK-3 gives the supervisor 0, tunnel session s its own number, the mirror 1,022 and the SPI port
1,023; lanes take 512 onwards, which that table leaves unused. -/
def pathIdx : Path → Nat
  | .supervisor => 0
  | .tunnel s => s % 512
  | .lane n => 512 + n % 8
  | .mirror => 1022
  | .spi => 1023

/-- Banked words of a path: `what` numbers the register (a register key for IND_ADDR, latches and banked registers). -/
def bankKey (p : Nat) (k : Nat) : Nat := k * 1024 + p
def State.getBank (s : State) (p k : Nat) : Word := Tbl.get (fun _ => 0) s.bank (bankKey p k)
def State.setBank (s : State) (p k : Nat) (w : Word) : State :=
  { s with bank := Tbl.set (fun _ => 0) s.bank (bankKey p k) w }

/-- What the path's last access returned (the model's own field). -/
def State.answer (s : State) (p : Path) (st : Nat) (data : Word) : State :=
  { s with last := Tbl.set (fun _ => {}) s.last (pathIdx p) ⟨st, data⟩ }
def State.answered (s : State) (p : Path) : Access := Tbl.get (fun _ => {}) s.last (pathIdx p)

/-! ### Interrupt sources (R428 to R433) -/

/-- Bits of PENDw, ACTIVEw and of the enables in force. -/
def State.srcPend (s : State) (n : Nat) : Bool := s.regBit pgINT (0x040 + n / 32 * 4) (n % 32)
def State.srcActive (s : State) (n : Nat) : Bool := s.regBit pgINT (0x050 + n / 32 * 4) (n % 32)
def State.srcEn (s : State) (n : Nat) : Bool := bit (Tbl.get (fun _ => 0) s.intc.en (n / 32)) (n % 32)

/-- A source is delivered while PENDING, not ACTIVE and enabled (R432). -/
def State.delivered (s : State) (n : Nat) : Bool := s.srcPend n && !s.srcActive n && s.srcEn n

/-- Sources delivered under the old enables while a write of ENw waits to take effect (R432). -/
def State.noteDelivery (s : State) (n : Nat) : State :=
  if !s.intc.writes.isEmpty && s.delivered n && !s.intc.seen.contains n then
    { s with intc := { s.intc with seen := n :: s.intc.seen } }
  else s

/-- INT.RESULT of a path (Table INT-3), by its number. -/
def State.intResult (s : State) (p r n : Nat) : State := s.setBank p (rkey pgINT 0x078) (word (r + 256 * n))

/-- A source becomes ACTIVE (R430). -/
def State.srcTake (s : State) (n : Nat) : State :=
  (s.setRegBit pgINT (0x040 + n / 32 * 4) (n % 32) false).setRegBit pgINT (0x050 + n / 32 * 4) (n % 32) true

/-- The takes of the present ft that have named source n and meet a fire of this ft as TAKEN (R431). -/
def State.retake (s : State) (n : Nat) : State :=
  match s.intc.took.find? fun x => x.2 = n with
  | none => s.noteDelivery n
  | some (none, _) => s.srcTake n
  | some (some p, _) => (s.srcTake n).intResult p 0 n

/-- A fire of source n, of 128 (R428): it becomes PENDING, and FIRE_CNTn, and REFIRE_CNT if it was ACTIVE, increment. A completion and a take
of this ft come behind the fire (R431). -/
def State.fire (s : State) (n : Nat) : State :=
  if 128 ≤ n then s else
  let took := s.intc.took.any fun x => x.2 = n
  let again := (s.srcActive n && !took) || s.intc.done.contains n
  let s := s.bump pgINT (0x200 + 4 * n)
  let s := if again then s.bump pgINT 0x400 else s
  (s.setRegBit pgINT (0x040 + n / 32 * 4) (n % 32) true).retake n

/-- The summary line of a page (R127). -/
def State.summary (s : State) (pg : Nat) : Bool := s.reg pg 0x010 &&& s.reg pg 0x014 ≠ 0

/-- The summary line as it stands in the present ft: a change in this ft is not on it yet (R127). -/
def State.line (s : State) (pg : Nat) : Bool := (s.summary pg && !s.intc.rise.contains pg) || s.intc.fell.contains pg

/-- Note a change of a page's IRQ_PEND AND IRQ_EN from `was` in the present ft (R127). -/
def State.noteLine (s : State) (pg : Nat) (was : Bool) : State :=
  if was = s.summary pg then s
  else if was then
    { s with intc := if s.intc.rise.contains pg then { s.intc with rise := s.intc.rise.filter (· ≠ pg) }
                     else { s.intc with fell := pg :: s.intc.fell } }
  else
    { s with intc := if s.intc.fell.contains pg then { s.intc with fell := s.intc.fell.filter (· ≠ pg) }
                     else { s.intc with rise := pg :: s.intc.rise } }

/-- A page's IRQ_PEND bit sets; its summary line follows in the next ft (R127). -/
def State.setPend (s : State) (pg b : Nat) : State :=
  (s.setReg pg 0x010 (setBit (s.reg pg 0x010) b true)).noteLine pg (s.summary pg)

/-- The summary lines of the present ft pass into the next: those that rise fire their sources (R127, R428). -/
def State.fireAll (s : State) : List Nat → State
  | [] => s
  | pg :: t => (s.fireAll t).fire pg
def State.raiseLines (s : State) : State :=
  let s' := ({ s with intc := { s.intc with took := [], done := [] } }).fireAll s.intc.rise
  { s' with intc := { s'.intc with rise := [], fell := [] } }

/-- The enabled event binding that names source n (Table SCN-8): its index, among the first `k` entries. -/
def State.bindingOf (s : State) (n : Nat) : Nat → Option Nat
  | 0 => none
  | k + 1 =>
    match s.bindingOf n k with
    | some e => some e
    | none => if bit (s.reg pgSCN (0x400 + 4 * k)) 31 && fld (s.reg pgSCN (0x400 + 4 * k)) 12 7 = n then some k else none

/-- Where ROUTEn is kept: the offsets of ROUTE64 to ROUTE127 are those of FIRE_CNT0 to FIRE_CNT63 (log entry 12). -/
def routeOfs (n : Nat) : Nat := if n < 64 then 0x100 + 4 * n else 0x800 + 4 * n

/-- The route in force: 2 while an enabled binding names the source (R429). -/
def State.routeOf (s : State) (n : Nat) : Nat :=
  if (s.bindingOf n 64).isSome then 2 else s.regFld pgINT (routeOfs n) 0 2

/-- A source with route PIN is delivered (R432, R433). -/
def State.pinSource (s : State) : Bool :=
  (List.range 4).any fun w =>
    let d := s.reg pgINT (0x040 + 4 * w) &&& ~~~(s.reg pgINT (0x050 + 4 * w)) &&& Tbl.get (fun _ => 0) s.intc.en w
    decide (d ≠ 0) && (List.range 32).any fun j => bit d j && s.routeOf (32 * w + j) = 3

/-! ### Time -/

/-- PHT.THETA and PHT.ANGLE from the 96-bit sum (R90, R91). -/
def State.theta (s : State) : Nat := s.ridge.acc / turn % 2 ^ 64
def State.angle (s : State) : Nat := s.theta % turn
abbrev State.rate (s : State) : Nat := s.reg64 pgPHT 0x060

/-- The tick at which PHT.ANGLE has last reached 0x8000_0000 when `n` more ft have passed (R507): the sum counts 2^64 to a turn. -/
def State.halfAfter (s : State) (n : Nat) : Option Nat :=
  let m := (s.ridge.acc + n * s.rate + 2 ^ 63) / 2 ^ 64
  if (s.ridge.acc + 2 ^ 63) / 2 ^ 64 < m then some (s.tick + ceilDiv (m * 2 ^ 64 - 2 ^ 63 - s.ridge.acc) s.rate) else s.ridge.halfAt

/-- `n` ft pass: the fabric tick counter counts, after the first LOCK the rate is added to the angle (R18, R91), and the summary
lines (R127) and IRQ_N, by the ft before the new one (R433), follow. -/
def State.elapse (s : State) (n : Nat) : State :=
  if n = 0 then s
  else
    let pin := s.pinSource
    let s := s.raiseLines
    { s with tick := s.tick + n,
             ports := [],
             intc := { s.intc with pin := if n = 1 then pin else s.pinSource },
             ridge := if s.ridge.locked then { s.ridge with acc := (s.ridge.acc + n * s.rate) % 2 ^ 96, halfAt := s.halfAfter n }
                      else s.ridge }

/-- One ft passes. -/
def State.tickOnce (s : State) : State := s.elapse 1

/-- An access behind hardware updates of its ft is granted in the next ft (R138; log entry 52). -/
def State.atGrant (s : State) : State := if s.closed = some s.tick then s.elapse 1 else s

/-- What hardware samples in the present ft (R23, R129): a register word and a stored point value as they were at its start. -/
def State.sampledKey (s : State) (k : Nat) : Word :=
  if s.was.at_ = some s.tick then Tbl.get (RegMap.resetWord s.small) s.was.regs k else s.getKey k
def State.sampledPt (s : State) (p : Nat) : Dword :=
  if s.was.at_ = some s.tick then Tbl.get (fun _ => 0) s.was.val p else Tbl.get (fun _ => 0) s.points.val p

abbrev State.sampled (s : State) (pg ofs : Nat) : Word := s.sampledKey (rkey pg ofs)
abbrev State.sampledFld (s : State) (pg ofs lo len : Nat) : Nat := fld (s.sampled pg ofs) lo len

/-- The registers and points as they stood at the start of the present ft: what an access or an anchor reads of a point, a table entry or
a quantity that changes in its ft (R23, R129, R184). -/
def State.past (s : State) : State :=
  if s.was.at_ = some s.tick then { s with regs := s.was.regs, points := { s.points with val := s.was.val } } else s

/-- The clock stands at tick `t`, or later (log entry 2: an event of a known instant brings the clock to it). -/
def State.until (s : State) (t : Nat) : State := if s.tick < t then s.elapse (t - s.tick) else s

/-- A wait for an arrival ends unmet: the expiry comes behind the arrivals of its ft `t` (R148), so the clock stands at the next ft. -/
def State.expire (s : State) (t : Nat) : State := s.until (t + 1)

/-- The clock stands at the first ft whose PHT.THETA is at or above `v` (R106). -/
def State.untilTheta (s : State) (v : Nat) : State :=
  if s.theta < v ∧ s.rate ≠ 0 then s.elapse (ceilDiv (v * turn - s.ridge.acc) s.rate) else s

/-- The 49-bit half-cycle stamp (EPOCH × 2^32 + CYCLE) × 2 + H (R94), H = 1 from angle 0x8000_0000 on. -/
def State.halfStamp (s : State) : Nat :=
  ((s.regFld pgPHT 0x054 0 16) * turn + (s.reg pgPHT 0x050).toNat) * 2 + b2n (decide (halfCycle ≤ s.angle))

/-- The cycle stamp EPOCH × 2^32 + CYCLE (R94). -/
def State.stamp (s : State) : Nat := s.regFld pgPHT 0x054 0 16 * turn + (s.reg pgPHT 0x050).toNat

/-- The cycle stamp as an anchor reads it, which in the ft of a turn boundary is the one before it (R23, R108; log entry 58). -/
def State.stampThen (s : State) : Nat := s.sampledFld pgPHT 0x054 0 16 * turn + (s.sampled pgPHT 0x050).toNat

/-- Stamp x is after stamp y (R94). -/
def stampAfter (x y : Nat) : Bool := let d := ringDist (2 ^ 48) y x; 1 ≤ d ∧ d < 2 ^ 47

/-- CYCLE x alone is after CYCLE y (R94). -/
def cycleAfter (x y : Word) : Bool := let d := ringDist (2 ^ 32) y.toNat x.toNat; 1 ≤ d ∧ d < 2 ^ 31

/-! ### Data SRAM, byte by byte and in little-endian words -/

def State.byte (s : State) (a : Nat) : Byte := Tbl.get (fun _ => 0) s.sram a
def setByte (m : List Host.Cell) (a : Nat) (b : Byte) : List Host.Cell := Tbl.set (fun _ => 0) m a b
def readBytes (m : List Host.Cell) (a : Nat) : Nat → List Byte
  | 0 => []
  | n + 1 => Tbl.get (fun _ => 0) m a :: readBytes m (a + 1) n
def writeBytes (m : List Host.Cell) (a : Nat) : List Byte → List Host.Cell
  | [] => m
  | b :: t => writeBytes (setByte m a b) (a + 1) t

/-- The canonical form of the data SRAM: addresses strictly rising and no listed byte equal to 0, which an unlisted one reads as
(log entry 6). -/
def Memory.wf (m : List Host.Cell) : Bool := Tbl.wf (fun _ => (0 : Byte)) m

/-- Mark the 256-bit words of an SRAM range dirty (region 0 of Table PAR-5). -/
def markSram (d : Tbl Bool) (w : Nat) : Nat → Tbl Bool
  | 0 => d
  | n + 1 => markSram (Tbl.set (fun _ => false) d w true) (w + 1) n

/-- Store bytes to the data SRAM. -/
def State.store (s : State) (a : Nat) (bs : List Byte) : State :=
  { s with sram := writeBytes s.sram a bs,
           dirty := markSram s.dirty (a / 32) (if bs.isEmpty then 0 else (a + bs.length - 1) / 32 - a / 32 + 1) }
def State.load (s : State) (a n : Nat) : Nat := ofLeBytes (readBytes s.sram a n)

/-! ### Paths and permission (R141, R142) -/

/-- A lane, a slot, a session, a channel as held. -/
def State.lane (s : State) (n : Nat) : Lane := Tbl.get (fun _ => {}) s.lanes n
def State.setLane (s : State) (n : Nat) (l : Lane) : State := { s with lanes := Tbl.set (fun _ => {}) s.lanes n l }
def State.slot (s : State) (n : Nat) : Slot := Tbl.get (fun _ => {}) s.slots n
/-- The words of region 2 of Table PAR-5 in which two contents of a slot differ (log entry 7): timers two to a word from 0, edge bits
64, the slot table 65, section addresses eight to a word from 66. -/
def slotWords (x y : Slot) : List Nat :=
  let t := fun (z : Slot) n => Tbl.get (fun _ => ({} : Timer)) z.timers n
  (if x.timers = y.timers then [] else
    (List.range 32).filter fun w => t x (2 * w) ≠ t y (2 * w) || t x (2 * w + 1) ≠ t y (2 * w + 1)) ++
  (if x.edges = y.edges then [] else [64]) ++
  (if { x with timers := [], edges := [], sects := [] } = { y with timers := [], edges := [], sects := [] } then [] else [65]) ++
  (if x.sects = y.sects then [] else [66, 67])
def markAll (d : Tbl Bool) (base : Nat) : List Nat → Tbl Bool
  | [] => d
  | w :: t => markAll (Tbl.set (fun _ => false) d (base + w) true) base t
def State.setSlot (s : State) (n : Nat) (x : Slot) : State :=
  { s with slots := Tbl.set (fun _ => {}) s.slots n x,
           dirty := markAll s.dirty (0x02000000 + n * 0x1000) (slotWords (s.slot n) x) }
def State.session (s : State) (n : Nat) : Session := Tbl.get (fun _ => {}) s.tun.session n
def State.setSession (s : State) (n : Nat) (x : Session) : State :=
  { s with tun := { s.tun with session := Tbl.set (fun _ => {}) s.tun.session n x } }

/-- The context of the program in a slot; 0 without a program. -/
def State.slotCtx (s : State) (n : Nat) : Nat := match (s.slot n).prog with | some g => g.ctx | none => 0

/-- The context with which a path acts (R142). -/
def State.ctxOf (s : State) : Path → Nat
  | .supervisor => 0
  | .mirror => 0
  | .spi => 0
  | .tunnel n => fld (s.ind pgTUN (32 * n + 4)) 0 9
  | .lane n => s.slotCtx (s.lane n).slot

/-- The lifecycle state (R464). -/
def State.lifecycle (s : State) : Nat :=
  let f := s.fuseReg 0x040
  if bit f 2 then 3 else if bit f 1 then 2 else if bit f 0 then 1 else 0

/-- The service port is enabled (R58, R481). -/
def State.spiEnabled (s : State) : Bool :=
  s.lifecycle = 0 || (bit (s.fuseReg 0x04C) 0 && !bit (s.fuseReg 0x04C) 1)

/-- Debug is enabled (R58, R481). -/
def State.debugEnabled (s : State) : Bool :=
  s.lifecycle = 0 || (bit (s.fuseReg 0x04C) 2 && !bit (s.fuseReg 0x04C) 3)

/-- The Col link mirror is open towards this module (R522). -/
def State.mirrorOpen (s : State) : Bool := s.pair.up && s.pair.accepted && s.regBit pgPAR 0x040 2

def classNum : PageClass → Nat
  | .id => 0
  | .system => 1
  | .control => 2
  | .meter => 3
  | .comms => 4
  | .secure => 5

/-- The fuse map allows a path to read or write a class (R481); the supervisor passes every check (R142). -/
def State.fuseAllows (s : State) (p : Path) (c : PageClass) (wr : Bool) : Bool :=
  let row := s.fuseReg (if wr then 0x058 else 0x054)
  match p with
  | .supervisor => true
  | .lane _ => !bit row (classNum c)
  | .tunnel _ => !bit row (6 + classNum c)
  | .spi => !bit row (12 + classNum c)
  | .mirror => !bit row (18 + classNum c)

/-- A page that is assigned and present on the variant (R5, R123). -/
def State.present (s : State) (pg : Nat) : Bool := pageType pg ≠ 0 && !(s.small && absentOnSmall pg)

/-- The module has power and is not held in reset, so a path can present an access (R73, R85, R544). -/
def State.alive (s : State) : Bool := s.power.powered && s.sys.held = 0

/-- A context's state (CTX_DEF, Table PTM-6): 0 FREE, 1 ACTIVE, 2 SUSPENDED. -/
def State.ctxState (s : State) (c : Nat) : Nat := fld (s.ind pgPTM (0x040000 + 16 * c + 4)) 0 2

/-- A path can present an access: the module runs, the SPI port or the mirror is open, and no fence stalls the path (R146). -/
def State.pathLive (s : State) (p : Path) : Bool :=
  s.alive && (match p with | .spi => s.spiEnabled | .mirror => s.mirrorOpen | _ => true) && !s.fences.contains p

/-- An indirect access holds the port of a page (R140). -/
def State.portBusy (s : State) (pg : Nat) : Bool := (Tbl.get (fun _ => none) s.busy pg : Option IndOp).isSome

/-- What the page port answers to an access of a path before the block sees it: none while the path cannot present an
access or an indirect access holds the port (R140, R142), otherwise a status. `own` marks registers owned per context. -/
def State.gate (s : State) (p : Path) (pg : Nat) (wr own : Bool) : Option Nat :=
  if !s.pathLive p || s.portBusy pg then none
  else if !s.present pg then some stAbsent
  else if !s.fuseAllows p (pageClass pg) wr then some stDenied
  else if (match p with | .tunnel _ => decide (s.ctxState (s.ctxOf p) = 2) | _ => false) then some stDenied
  else if s.ctxOf p ≠ 0 && !own then some stDenied
  else some stOk

/-- The port of a page grants one access per ft: the next one is granted in the next ft (R141). -/
def State.turnAt (s : State) (pg : Nat) : State :=
  let s := if s.ports.contains pg then s.elapse 1 else s
  { s with ports := pg :: s.ports }

/-- A write command of a path to a page: the gate, then the block's effect with its status, which the path is told. -/
def State.port (s : State) (p : Path) (pg : Nat) (own : Bool) (f : State → State × Nat) : State :=
  match s.gate p pg true own with
  | none => s
  | some 0 => let r := f (s.turnAt pg); r.1.answer p r.2 0
  | some st => (s.turnAt pg).answer p st 0

/-- A read command of a path: the gate, then the read with its status and value, which the path is told (R142). -/
def State.portRead (s : State) (p : Path) (pg : Nat) (own : Bool) (f : State → State × Nat × Word) : State :=
  match s.gate p pg false own with
  | none => s
  | some 0 => let r := f (s.turnAt pg); r.1.answer p r.2.1 r.2.2
  | some st => (s.turnAt pg).answer p st 0

/-- An access waits for the port (R141). -/
def State.park (s : State) (r : PortReq) : State := { s with waiting := s.waiting ++ [r] }

/-- A command that is one access to indirect address `ia` of a slow page: it waits while an indirect access holds the port. -/
def State.parkAt (s : State) (p : Path) (pg ia : Nat) (wr : Bool) (data : Word) (f : State → State) : State :=
  if s.portBusy pg && s.pathLive p then s.park ⟨p, wr, word (0x4000 * pg + 0x24), data, some ia, .told⟩ else f s

/-- The page notes a clamped write (R130). -/
def State.noteClamp (s : State) (pg ofs : Nat) (b : Bool) : State :=
  if b then
    s.setReg pg 0x00C (setFld (setBit (s.reg pg 0x00C) 4 true) 8 10 (ofs / 4))
  else s

/-- The first detected cause of lateness of a cycle in progress is kept (Table SCN-6). -/
def State.noteCause (s : State) (k : Nat) : State :=
  if s.scan.cycle.isSome && s.scan.cause = 0 then { s with scan := { s.scan with cause := k } } else s

/-- A command that is an access, or a scan instruction: it is granted in the first ft in which no hardware update has come before it,
and takes its effect there (R129, R138). -/
def access (f : State → State) (s : State) : Out := .next (s.atGrant.commit (f s.atGrant))

/-- A command that is a hardware event. -/
def event (f : State → State) (s : State) : Out := .next (s.land (f s))

end Sys2Proof.Machine
end

