-- ==== Sys2Proof/Machine/Cairn.lean ====
section
/-! DEFINITION. The Cairn event recorder (R451 to R463): presenting events, repeats and loss, marks, writing records to
the ring, freezing and releasing. -/

namespace Sys2Proof.Machine

set_option cleanup.letToHave false

open Sys2Proof.Config

/-- Bytes that a record takes (Table CRN-1), tail included. -/
def CrnRec.bytes (r : CrnRec) : Nat := 16 + (r.body.length + 15) / 16 * 16 + (if r.rpt = 0 then 0 else 16)

/-- Bytes padded with 0 to a multiple of 16. -/
def pad16 (b : List Byte) : List Byte := b ++ List.replicate ((16 - b.length % 16) % 16) 0

/-- A record as it lies in the ring (Tables CRN-1 and CRN-2). -/
def CrnRec.image (r : CrnRec) : List Byte :=
  leBytes 4 ((r.bytes / 16 - 1) + 16 * b2n (decide (r.rpt ≠ 0)) + 32 * r.kind + 128 * (r.ctx % 512) + 65536 * (r.code % 65536)) ++
  leBytes 4 r.cycle.toNat ++ leBytes 8 r.ts ++ pad16 r.body ++
  (if r.rpt = 0 then [] else leBytes 4 r.rpt ++ leBytes 4 r.rcycle.toNat ++ leBytes 8 r.rts)

/-- Two events that fold: same KIND, CONTEXT, CODE and body (R454). MARK and PAD never fold. -/
def CrnRec.same (a b : CrnRec) : Bool :=
  a.kind < 2 && a.kind = b.kind && a.ctx = b.ctx && a.code = b.code && a.body = b.body && a.rpt < 0xFFFFFFFF

abbrev crnUsed (c : Nat) : Nat := 16 * c + 4
abbrev reserveBytes : Nat := 16384

/-- The quota of a context in bytes (R455). -/
def State.crnRoom (s : State) (c n : Nat) : Bool :=
  (s.ind pgCRN (crnUsed c)).toNat + n ≤ 256 * fld (s.ind pgCRN (16 * c)) 0 13

def State.crnFrozen (s : State) : Bool := s.regBit pgCRN 0x044 0

/-- Charge or return bytes of a context, or of the reserve for MARK and PAD records (R454, R455). -/
def State.crnCharge (s : State) (r : CrnRec) (n : Nat) : State :=
  if r.kind < 2 then s.setInd pgCRN (crnUsed r.ctx) (s.ind pgCRN (crnUsed r.ctx) + word n)
  else { s with cairn := { s.cairn with reserve := s.cairn.reserve + n } }
def State.crnReturn (s : State) (kind ctx n : Nat) : State :=
  if kind < 2 then s.setInd pgCRN (crnUsed ctx) (s.ind pgCRN (crnUsed ctx) - word n)
  else { s with cairn := { s.cairn with reserve := s.cairn.reserve - n } }

/-- An event is lost (R454): LOST_c and LOST_CNT, and IRQ_PEND bit 0 outside a freeze (R463). -/
def State.crnLose (s : State) (c : Nat) : State :=
  let s := (s.addKey (ikey pgCRN (16 * c + 8)) 1).bump pgCRN 0x08C
  if s.crnFrozen then s else s.setPend pgCRN 0

/-- Bytes of MRAM. -/
def setMram (m : Tbl Byte) (a : Nat) : List Byte → Tbl Byte
  | [] => m
  | b :: t => setMram (Tbl.set (fun _ => 0) m a b) (a + 1) t

/-- USED rises by `n`; IRQ_PEND bit 2 sets when it reaches FILL_TH (R463). -/
def State.crnFill (s : State) (n : Nat) : State :=
  let old := (s.reg pgCRN 0x054).toNat
  let th := (s.reg pgCRN 0x05C).toNat
  let s := s.setReg pgCRN 0x054 (word (old + n))
  if old < th ∧ th ≤ old + n then s.setPend pgCRN 2 else s

/-- Place a record at TAIL, with a PAD before it where it would straddle the end of the ring (R451). -/
def State.crnPut (s : State) (r : CrnRec) : State :=
  let cap := cairnBytes s.small
  let tail := (s.reg pgCRN 0x050).toNat
  let gap := if tail + r.bytes > cap then cap - tail else 0
  let s :=
    if gap = 0 then s
    else
      let p : CrnRec := ⟨3, 0, 0, s.reg pgPHT 0x050, s.tick, List.replicate (gap - 16) 0, 0, 0, 0⟩
      ((({ s with cairn := { s.cairn with mram := setMram s.cairn.mram tail p.image } }).crnCharge p gap).crnFill gap)
  let at_ := if gap = 0 then tail else 0
  let s := { s with cairn := { s.cairn with mram := setMram s.cairn.mram at_ r.image, lastRec := some (at_, r) } }
  (s.setReg pgCRN 0x050 (word ((at_ + r.bytes) % cap))).crnFill r.bytes

/-- Whether the ring has room for a record and the PAD it may need. -/
def State.crnFits (s : State) (r : CrnRec) : Bool := (s.reg pgCRN 0x054).toNat + r.bytes + 256 ≤ cairnBytes s.small

/-- A new record goes to the freeze queue while the log is frozen, else to the write buffer (R456, R459). -/
def State.crnAccept (s : State) (r : CrnRec) : State :=
  if s.crnFrozen then
    ({ s with cairn := { s.cairn with queue := s.cairn.queue ++ [r] } }).setRegFld pgCRN 0x044 1 7 (s.cairn.queue.length + 1)
  else { s with cairn := { s.cairn with buffer := s.cairn.buffer ++ [r] } }

/-- The record accepted last, where an event may still fold into it (R454): in the freeze queue while frozen, else the
newest of the write buffer, else the last record of the ring while unreleased. -/
def State.crnLast (s : State) : Option CrnRec :=
  if s.crnFrozen then s.cairn.queue.getLast?
  else match s.cairn.buffer.getLast? with
    | some r => some r
    | none => s.cairn.lastRec.map (·.2)

/-- Replace the record accepted last by its folded form. In the ring the tail is written behind the record. -/
def State.crnRefold (s : State) (r : CrnRec) : State :=
  if s.crnFrozen then { s with cairn := { s.cairn with queue := s.cairn.queue.dropLast ++ [r] } }
  else if !s.cairn.buffer.isEmpty then { s with cairn := { s.cairn with buffer := s.cairn.buffer.dropLast ++ [r] } }
  else match s.cairn.lastRec with
    | none => s
    | some (at_, old) =>
      let s := { s with cairn := { s.cairn with mram := setMram s.cairn.mram at_ r.image, lastRec := some (at_, r) } }
      (s.setReg pgCRN 0x050 (word ((at_ + r.bytes) % cairnBytes s.small))).crnFill (r.bytes - old.bytes)

/-- A fold needs room for a tail: the quota, and, in the ring, the bytes before its end (log entry 8). -/
def State.crnTailOk (s : State) (r : CrnRec) : Bool :=
  r.rpt ≠ 0 ||
  (s.crnRoom r.ctx 16 &&
    (s.crnFrozen || !s.cairn.buffer.isEmpty ||
      match s.cairn.lastRec with
      | some (at_, _) => at_ + r.bytes + 16 ≤ cairnBytes s.small
      | none => false))

/-- R454: repeat, else record, else lost. -/
def State.crnDecide (s : State) (e : CrnRec) : State :=
  let s := s.bump pgCRN 0x080
  let fold := match s.crnLast with
    | some r => if r.same e && s.crnTailOk r then some r else none
    | none => none
  match fold with
  | some r =>
    let s := if r.rpt = 0 then s.crnCharge r 16 else s
    (s.crnRefold { r with rpt := r.rpt + 1, rcycle := e.cycle, rts := e.ts }).bump pgCRN 0x088
  | none =>
    let full := if s.crnFrozen then 64 ≤ s.cairn.queue.length else 256 ≤ s.cairn.buffer.length
    let room := if e.kind < 2 then s.crnRoom e.ctx e.bytes else s.cairn.reserve + e.bytes ≤ reserveBytes
    if room ∧ ¬ full then ((s.crnCharge e e.bytes).crnAccept e).bump pgCRN 0x084
    else
      let s := if s.crnFrozen && decide full then s.setPend pgCRN 1 else s
      s.crnLose e.ctx

/-- The time of day, one byte each of SEC, MIN, HOUR, WDAY, DAY, MON, YEAR and CENT (Table CRN-2). -/
def State.timeOfDay8 (s : State) : Nat :=
  ofLeBytes ([0x044, 0x048, 0x04C, 0x050, 0x054, 0x058, 0x05C, 0x060].map fun o => BitVec.ofNat 8 (s.reg pgRTC o).toNat)

/-- The body of a MARK (Table CRN-2): epoch, BOOT, cause and the time of day. -/
def State.markBody (s : State) (cause : Nat) : List Byte :=
  leBytes 2 (s.regFld pgPHT 0x054 0 16) ++ leBytes 2 (s.regFld pgCRN 0x060 0 16) ++ leBytes 4 (cause % 256) ++
  leBytes 8 s.timeOfDay8

/-- Causes of a MARK (Table CRN-2). -/
abbrev markStart : Nat := 0
abbrev markEpoch : Nat := 1
abbrev markAnnounce : Nat := 2
abbrev markCommit : Nat := 3
abbrev markHourly : Nat := 4
abbrev markSave : Nat := 5

/-- A MARK is presented with its cause. -/
def State.markNow (s : State) (cause : Nat) : State := s.crnDecide ⟨2, 0, 0, s.reg pgPHT 0x050, s.tick, s.markBody cause, 0, 0, 0⟩
/-- The MARK of the first record since power-on (R453). -/
def State.markFirst (s : State) : State :=
  if s.cairn.marked then s
  else
    let t := s.markNow markStart
    { t with cairn := { t.cairn with marked := true } }

/-- Cairn writes a MARK (R453). -/
def State.crnMark (s : State) (cause : Nat) : State := s.markFirst.markNow cause

/-- Present an event, after the MARK of the first record since power-on (R453, R454). -/
def State.present' (s : State) (e : CrnRec) : State := s.markFirst.crnDecide e

/-- A MODULE record with its values as 64-bit words (R452, Table CRN-2). -/
def State.record (s : State) (code : Nat) (vals : List Nat) (ctx : Nat := 0) : State :=
  s.present' ⟨0, ctx, code, s.reg pgPHT 0x050, s.tick, pad16 ((vals.map (leBytes 8)).flatten), 0, 0, 0⟩

/-- A page event that sets a pending bit and writes the record of that bit (R452). -/
def State.event (s : State) (pg b : Nat) (vals : List Nat) (ctx : Nat := 0) : State :=
  (s.setPend pg b).record (256 * pg + b) vals ctx

/-! ### Commands -/

/-- RECORD_WRITTEN (R456): the oldest buffered record is written to MRAM and TAIL includes it; nothing is written while the
log is frozen. -/
def recordWritten (s : State) : State :=
  match s.cairn.buffer with
  | [] => s
  | r :: rest =>
    if s.crnFrozen || !s.crnFits r then s
    else ({ s with cairn := { s.cairn with buffer := rest } }).crnPut r

def execRecordWritten (s : State) : Out := event (fun s => recordWritten s) s

/-- HOURLY_MARK (R453): at every 3,600 s of the fabric tick counter. -/
def hourlyMark (s : State) : State :=
  let s := s.until (s.cairn.nextHour * 3600 * ftPerS)
  ({ s with cairn := { s.cairn with nextHour := s.cairn.nextHour + 1 } }).crnMark markHourly

def execHourlyMark (s : State) : Out := event (fun s => hourlyMark s) s

/-- Write every queued or buffered record that the ring has room for, in order. -/
def State.crnDrain (s : State) : List CrnRec → State
  | [] => s
  | r :: t => (s.crnPut r).crnDrain t

/-- The freeze ends (R460): the buffer and then the queue are written to the ring, ahead of every later record. -/
def State.crnThaw (s : State) : State :=
  let q := s.cairn.queue
  let s := (s.setReg pgCRN 0x044 (setBit (setFld (s.reg pgCRN 0x044) 1 7 0) 0 false)).setRegBit pgCRN 0x040 0 false
  let s := s.bump pgCRN 0x090 q.length
  let b := s.cairn.buffer
  let s := ({ s with cairn := { s.cairn with buffer := [], queue := [] } }).crnDrain (b ++ q)
  if q.isEmpty then s else { s with cairn := { s.cairn with lastRec := none } }

/-- A write of CRN.CTL (R459, R460): FREEZE freezes or ends the freeze; FREEZE_MAX is held in its range. FRZ_TMO clears at
the next FREEZE write. -/
def crnCtlEffect (w : Word) (clamped : Bool) (s : State) : State × Nat :=
  let was := s.crnFrozen
  let s := (s.setReg pgCRN 0x040 w).noteClamp pgCRN 0x040 clamped
  let s := s.setRegBit pgCRN 0x044 8 false
  let s :=
    if bit w 0 && !was then
      { s.setRegBit pgCRN 0x044 0 true with cairn := { s.cairn with frozenAt := s.tick } }
    else if !bit w 0 && was then s.crnThaw else s
  (s, stOk)

/-- CTL's row (Table CRN-4). -/
def crnCtlRow : Row := RegMap.rw 0x040 0x3C00 0xFF01 [⟨8, 8, 1, 255⟩]

/-- CAIRN_FREEZE (R459): a plain write of CTL with FREEZE at 1; every other field is as written. -/
def execCairnFreeze (p : Path) (data : Word) (s : State) : Out :=
  let d := setBit data 0 true
  access (fun s => s.port p pgCRN false
    (crnCtlEffect (settled pgCRN 0x040 crnCtlRow .plain (s.reg pgCRN 0x040) d)
      (wasClamped pgCRN 0x040 crnCtlRow .plain (s.reg pgCRN 0x040) d))) s

/-- CAIRN_UNFREEZE (R460): a plain write of CTL with FREEZE at 0. -/
def execCairnUnfreeze (p : Path) (data : Word) (s : State) : Out :=
  let d := setBit data 0 false
  access (fun s => s.port p pgCRN false
    (crnCtlEffect (settled pgCRN 0x040 crnCtlRow .plain (s.reg pgCRN 0x040) d)
      (wasClamped pgCRN 0x040 crnCtlRow .plain (s.reg pgCRN 0x040) d))) s

/-- FREEZE_MAX_EXPIRY (R460): FREEZE_MAX seconds after the freeze it ends, with FRZ_TMO and IRQ_PEND bit 3. -/
def freezeMaxExpiry (s : State) : State :=
  if s.crnFrozen then
    let s := s.until (s.cairn.frozenAt + s.regFld pgCRN 0x040 8 8 * ftPerS)
    (s.crnThaw.setRegBit pgCRN 0x044 8 true).setPend pgCRN 3
  else s

def execFreezeMaxExpiry (s : State) : Out := event (fun s => freezeMaxExpiry s) s

/-- The descriptor word of the record at a ring offset. -/
def State.crnHead (s : State) (a : Nat) : Word :=
  word (ofLeBytes (readBytes s.cairn.mram a 4))

/-- Is `target` a record boundary, walking `fuel` records from `a` with `left` unreleased bytes (R458)? -/
def State.crnBoundary (s : State) (target : Nat) : Nat → Nat → Nat → Bool
  | 0, _, _ => false
  | k + 1, a, left =>
    if a = target then true
    else
      let n := 16 * (fld (s.crnHead a) 0 4 + 1)
      if left < n then false else s.crnBoundary target k ((a + n) % cairnBytes s.small) (left - n)

/-- Release records from HEAD until it stands at `target` (R458): their bytes leave USED, and a released MARK moves
HEAD_MARK. -/
def State.crnReleaseTo (s : State) (target : Nat) : Nat → State
  | 0 => s
  | k + 1 =>
    let a := (s.reg pgCRN 0x04C).toNat
    if a = target then s
    else
      let h := s.crnHead a
      let n := 16 * (fld h 0 4 + 1)
      let kind := fld h 5 2
      let s := s.crnReturn kind (fld h 7 9) n
      let s :=
        if kind = 2 then
          let b := readBytes s.cairn.mram (a + 16) 4
          s.setReg pgCRN 0x064 (word (ofLeBytes b))
        else s
      let s := s.setReg pgCRN 0x054 (s.reg pgCRN 0x054 - word n)
      let s := match s.cairn.lastRec with
        | some (at_, _) => if at_ = a then { s with cairn := { s.cairn with lastRec := none } } else s
        | none => s
      (s.setReg pgCRN 0x04C (word ((a + n) % cairnBytes s.small))).crnReleaseTo target k

/-- A write of CRN.RELEASE (R458). An offset that is no record boundary from HEAD to TAIL is refused with INVALID. With a
full ring, HEAD equals TAIL and its offset releases nothing. -/
def crnReleaseEffect (data : Word) (s : State) : State × Nat :=
  let used := (s.reg pgCRN 0x054).toNat
  if s.crnBoundary data.toNat (used / 16 + 1) (s.reg pgCRN 0x04C).toNat used then
    (s.crnReleaseTo data.toNat (used / 16 + 1), stOk)
  else (s, stInvalid)

/-- CAIRN_RELEASE (R458). -/
def execCairnRelease (p : Path) (data : Word) (s : State) : Out :=
  access (fun s => s.port p pgCRN false (crnReleaseEffect data)) s

/-- A write of QUOTA_c (R455), refused with INVALID for a FREE context, with CAPACITY when the sum of the quotas would pass
CAPACITY − 16 KiB, and with IN_USE below USED_c. -/
def crnQuotaEffect (c : Nat) (data : Word) (s : State) : State × Nat :=
  let q := fld data 0 13
  let old := fld (s.ind pgCRN (16 * c)) 0 13
  let sum := (s.reg pgCRN 0x068).toNat - old + q
  if s.ctxState c = 0 then (s, stInvalid)
  else if cairnBytes s.small - reserveBytes < 256 * sum then (s, stCapacity)
  else if 256 * q < (s.ind pgCRN (crnUsed c)).toNat then (s, stInUse)
  else ((s.setInd pgCRN (16 * c) (word q)).setReg pgCRN 0x068 (word sum), stOk)

/-- QUOTA_WRITE (R455). -/
def execQuotaWrite (p : Path) (c : Nat) (data : Word) (s : State) : Out :=
  access (fun s => s.port p pgCRN false (crnQuotaEffect c data)) s

end Sys2Proof.Machine
end

