-- ==== Sys2Proof/Machine/Interrupts.lean ====
section
/-! DEFINITION. The interrupt controller (R428 to R434): software sources, takes and completions, routes, and the delay
of the enables. -/

namespace Sys2Proof.Machine

set_option cleanup.letToHave false

open Sys2Proof.Config

/-- The path may take source n (R429): NONE any context 0 path, SUP the supervisor, EVT no path, PIN a context 0 path from
outside the module. -/
def State.consumes (s : State) (p : Path) (n : Nat) : Bool :=
  match s.routeOf n with
  | 0 => decide (s.ctxOf p = 0)
  | 1 => decide (p = .supervisor)
  | 2 => false
  | _ => match p with
    | .spi => true
    | .mirror => true
    | .tunnel _ => decide (s.ctxOf p = 0)
    | _ => false

/-- Note a take of source n in this ft (R431). -/
def State.noteTake (s : State) (p : Option Nat) (n : Nat) : State := { s with intc := { s.intc with took := (p, n) :: s.intc.took } }

/-- A source is completed (R430): PENDING again if it fired while ACTIVE or is a page summary whose line is still 1. -/
def State.srcDone (s : State) (n : Nat) : State :=
  let again := s.srcPend n || (decide (n ≤ 52) && s.line n)
  let s := s.setRegBit pgINT (0x050 + n / 32 * 4) (n % 32) false
  let s := (s.setRegBit pgINT (0x040 + n / 32 * 4) (n % 32) again).noteDelivery n
  { s with intc := { s.intc with done := n :: s.intc.done } }

/-- A write of INT.TAKE (R430, Table INT-2). A fire of the source later in this ft comes before it (R431). -/
def takeEffect (p : Path) (data : Word) (s : State) : State × Nat :=
  let n := fld data 0 7
  let i := pathIdx p
  if !s.consumes p n then (s.intResult i 2 n, stOk)
  else if s.delivered n then (((s.srcTake n).noteTake (some i) n).intResult i 0 n, stOk)
  else if s.srcEn n && !s.srcActive n then ((s.noteTake (some i) n).intResult i 1 n, stOk)
  else (s.intResult i 1 n, stOk)

/-- A write of INT.DONE (R430, Table INT-2). -/
def doneEffect (p : Path) (data : Word) (s : State) : State × Nat :=
  let n := fld data 0 7
  if !s.consumes p n then (s.intResult (pathIdx p) 2 n, stOk)
  else if s.srcActive n then ((s.srcDone n).intResult (pathIdx p) 0 n, stOk)
  else (s.intResult (pathIdx p) 3 n, stOk)

/-- Fire SW0 to SW15 where data is 1, the first `k` of them. -/
def State.fireSw (s : State) (data : Word) : Nat → State
  | 0 => s
  | k + 1 => let s := s.fireSw data k; if bit data k then s.fire (80 + k) else s

/-- A write of INT.SWSET (R428). -/
def swsetEffect (data : Word) (s : State) : State × Nat := (s.fireSw data 16, stOk)

/-- A write of ROUTEn (R429): IN_USE while a binding names the source or the source is not IDLE, INVALID for the value 2. -/
def routeEffect (n : Nat) (w : Word) (s : State) : State × Nat :=
  if (s.bindingOf n 64).isSome then (s, stInUse)
  else if fld w 0 2 = 2 then (s, stInvalid)
  else if s.srcPend n || s.srcActive n then (s, stInUse)
  else (s.setReg pgINT (routeOfs n) (w &&& 3), stOk)

/-- A write of ENw (R432): the register holds it, and it takes effect 3 ft later. Sources delivered now, under the old
value, count as delivered meanwhile. -/
def enEffectWrite (w : Nat) (v : Word) (s : State) : State × Nat :=
  let s := (s.setReg pgINT (0x060 + 4 * w) v)
  ({ s with intc := { s.intc with writes := s.intc.writes ++ [(s.tick + 3, w, v)],
                                  seen := s.intc.seen ++ (List.range 128).filter (fun n => s.delivered n && !s.intc.seen.contains n) } }, stOk)

/-- SWSET (R428). -/
def execSwset (p : Path) (data : Word) (s : State) : Out := access (fun s => s.port p pgINT false (swsetEffect data)) s

/-- TAKE (R430). -/
def execTake (p : Path) (data : Word) (s : State) : Out := access (fun s => s.port p pgINT false (takeEffect p data)) s

/-- DONE (R430). -/
def execDone (p : Path) (data : Word) (s : State) : Out := access (fun s => s.port p pgINT false (doneEffect p data)) s

/-- ROUTE_WRITE (R429). -/
def execRouteWrite (p : Path) (n : Nat) (data : Word) (s : State) : Out :=
  access (fun s => s.port p pgINT false (routeEffect n data)) s

/-- EN_EFFECT (R432): the oldest write of ENw takes effect; each source delivered meanwhile that is still PENDING, not
ACTIVE and enabled under the new value is delivered once more and counted. -/
def enEffect (s : State) : State :=
  match s.intc.writes with
  | [] => s
  | (t, w, v) :: rest =>
    let s := s.until t
    let seen := s.intc.seen
    let s := { s with intc := { s.intc with en := Tbl.set (fun _ => 0) s.intc.en w v, writes := rest,
                                            seen := if rest.isEmpty then [] else seen } }
    let again := seen.filter (fun n => n / 32 = w && s.delivered n)
    s.bump pgINT 0x404 again.length

def execEnEffect (s : State) : Out := event (fun s => enEffect s) s

end Sys2Proof.Machine
end

