-- ==== Sys2Proof/Machine/Registers.lean ====
section
/-! DEFINITION. What every page does alike (R124 to R140): rows of the header, plain writes by access code, LO and HI
latches, shadows, snapshots, and the latches of entries. -/

namespace Sys2Proof.Machine

set_option cleanup.letToHave false

open Sys2Proof.Config

/-- The bits of IRQ_PEND and IRQ_EN that a page defines (Table REG-5). -/
def irqMask (pg : Nat) : Nat := 2 ^ irqBits pg - 1

/-- The rows of the header (Table REG-3). IND_ADDR, IND_DATA and SHADOW_COMMIT have their own effects. -/
def headerRow (pg ofs : Nat) : Option Row :=
  if ofs = 0x00C then some { ofs := 0x00C, acc := .rs, mask := 0x1A }
  else if ofs = 0x010 then some { ofs := 0x010, acc := .rs, mask := irqMask pg }
  else if ofs = 0x014 then some { ofs := 0x014, mask := irqMask pg }
  else if ofs = 0x018 then some { ofs := 0x018, mask := 0xFF00 }
  else none

/-- The row of a register of a page: header, entry of an indirect space, or block register. -/
def rowAt (pg ofs : Nat) : Option Row := if ofs < 0x40 then headerRow pg ofs else RegMap.rowOf pg ofs

/-- A write of a plain RW or RS register under a key, by its row (R128, R130, R131, R133): the effect of every register
whose block gives its write no other. -/
def State.writeRow (s : State) (pg ofs key : Nat) (r : Row) (al : Alias) (data : Word) : State :=
  match r.acc with
  | .rw =>
    if r.shadow then
      let old := s.getShadow pg ofs
      (s.setShadow pg ofs (settled pg ofs r al old data)).noteClamp pg ofs (wasClamped pg ofs r al old data)
    else
      let old := s.getKey key
      (s.setKey key (settled pg ofs r al old data)).noteClamp pg ofs (wasClamped pg ofs r al old data)
  | .rs => s.setKey key (rsValue al (s.getKey key) data (word r.mask))
  | _ => s

/-- A write of IRQ_EN or IRQ_PEND; the summary line follows in the next ft (R127). -/
def State.writeIrq (s : State) (pg ofs : Nat) (r : Row) (al : Alias) (data : Word) : State :=
  (s.writeRow pg ofs (rkey pg ofs) r al data).noteLine pg (s.summary pg)

/-! ### Latches (R124) -/

/-- Latch keys: the read latch and the write latch of the pair whose LO word has key `k`. -/
abbrev rdLatch (k : Nat) : Nat := 17179869184 + k
abbrev wrLatch (k : Nat) : Nat := 34359738368 + k

/-- A read of LO latches HI for the path. -/
def State.latchRead (s : State) (p : Path) (k : Nat) (hi : Word) : State := s.setBank (pathIdx p) (rdLatch k) hi
def State.latchedHi (s : State) (p : Path) (k : Nat) : Word := s.getBank (pathIdx p) (rdLatch k)

/-- A write of LO is held; a write of HI takes the held word, which empties the latch. -/
def State.holdLo (s : State) (p : Path) (k : Nat) (lo : Word) : State := s.setBank (pathIdx p) (wrLatch k) lo
def State.heldLo (s : State) (p : Path) (k : Nat) : Word := s.getBank (pathIdx p) (wrLatch k)
def State.emptyLo (s : State) (p : Path) (k : Nat) : State := s.setBank (pathIdx p) (wrLatch k) 0

/-! ### Entry latches (R180) -/

/-- The latch of a path for one indirect space (R180). -/
def entryKey (p : Path) (sp : Nat) : Nat := sp * 1024 + pathIdx p

def State.entryLatch (s : State) (p : Path) (sp : Nat) : EntryLatch := Tbl.get (fun _ => {}) s.entry (entryKey p sp)

/-- A latched word of the entry at `base`, or the word in force. -/
def State.latchedWord (s : State) (p : Path) (sp base ofs : Nat) (inForce : Word) : Word :=
  let e := s.entryLatch p sp
  if e.base = base then Tbl.get (fun _ => inForce) e.words ofs else inForce

/-- Was the word latched at the entry? -/
def State.hasLatched (s : State) (p : Path) (sp base ofs : Nat) : Bool :=
  let e := s.entryLatch p sp
  decide (e.base = base) && e.words.any (fun x => x.1 == ofs)

/-- Latch a word; a latch that holds another entry is discarded first. -/
def State.latchWord (s : State) (p : Path) (sp base ofs : Nat) (w : Word) : State :=
  let e := s.entryLatch p sp
  let ws := if e.base = base then e.words else []
  { s with entry := Tbl.set (fun _ => {}) s.entry (entryKey p sp) ⟨base, Tbl.put ofs w (Tbl.drop ofs ws)⟩ }

/-- Discard the path's latch of a space. -/
def State.dropLatch (s : State) (p : Path) (sp : Nat) : State :=
  { s with entry := Tbl.drop (entryKey p sp) s.entry }

/-- A write to a word of the entry at `base` empties a latch that holds another entry of the table (R180; log entry 13). A write
that ends DENIED changes nothing. -/
def withEntry (p : Path) (sp base : Nat) (f : State → State × Nat) (s : State) : State × Nat :=
  let r := f s
  if r.2 = stDenied ∨ (r.1.entryLatch p sp).base = base then r else (r.1.dropLatch p sp, r.2)

/-! ### Shadows (R133 to R135) -/

/-- The offsets of the shadowed registers of a page. -/
def shadowOfs (pg : Nat) : List Nat :=
  ((RegMap.rows pg).filter (·.shadow)).flatMap (fun r => (List.range r.n).map (fun i => r.ofs + i * r.step))

/-- At least one shadow differs from the value in force (Table REG-6). -/
def State.shadowDirty (s : State) (pg : Nat) : Bool :=
  (shadowOfs pg).any (fun o => s.getShadow pg o ≠ s.reg pg o)

/-- Every listed shadow takes effect, or is reloaded. -/
def State.applyShadows (s : State) (pg : Nat) : List Nat → State
  | [] => s
  | o :: t => (s.setReg pg o (s.getShadow pg o)).applyShadows pg t
def State.reloadShadows (s : State) (pg : Nat) : List Nat → State
  | [] => s
  | o :: t => (s.setShadow pg o (s.reg pg o)).reloadShadows pg t

/-- A refused commit (R134). -/
def State.commitErr (s : State) (pg : Nat) : State × Nat := (s.setRegBit pg 0x00C 3 true, stCommitRefused)

/-! ### Snapshots (R136, R137) -/

/-- Copy the counter at `o` to its holding register and clear it if it clears on read. -/
def State.snapWord (s : State) (pg o hold : Nat) : State :=
  let s := s.setReg pg hold (s.reg pg o)
  match rowAt pg o with
  | some r => if r.acc = .rc then s.setReg pg o 0 else s
  | none => s

def State.snapWords (s : State) (pg o hold step : Nat) : Nat → State
  | 0 => s
  | n + 1 => (s.snapWord pg o hold).snapWords pg (o + step) (hold + 4) step n

/-- A snapshot of a page. CAN0 also copies four credit counts (Table BUS-8); SNS copies four counters of each link. -/
def State.snapshot (s : State) (pg : Nat) : State :=
  let s :=
    if pg = pgSNS then
      ((s.snapWords pg 0x090 0xC00 4 4).snapWords pg 0x0D0 0xC10 4 4).snapWords pg 0x110 0xC20 4 4
    else s.snapWords pg (snapSpan pg).1 0xC00 4 (snapSpan pg).2
  let s := if pg = 0x18 then s.snapWords pg 0x304 0xC80 4 4 else s
  s.bump pg 0x01C

/-- The pages, in number order. -/
def allPages : List Nat := List.range 0x35

/-- The snapshot of a SNAP write (R137). -/
def State.snapNow (s : State) (pg : Nat) : State :=
  let s := s.snapshot pg
  { s with snapAt := Tbl.set (fun _ => none) s.snapAt pg (some s.tick) }

/-- The periodic snapshots of a turn boundary (R137): every present page whose PERIOD divides the new cycle number, but for a page
with a SNAP write in this ft (R138). -/
def State.periodicSnaps (s : State) : List Nat → State
  | [] => s
  | pg :: t =>
    let per := s.regFld pg 0x018 8 8
    let due := s.present pg && per ≠ 0 && (s.reg pgPHT 0x050).toNat % per = 0 &&
      decide (Tbl.get (fun _ => none) s.snapAt pg ≠ some s.tick)
    (if due then s.snapshot pg else s).periodicSnaps t

end Sys2Proof.Machine
end

