-- ==== Sys2Proof/Machine/SoftFloat.lean ====
section
/-! DEFINITION. IEEE 754 binary32 and binary64 arithmetic on bit patterns (R233, R289): decoding, rounding to nearest even,
sums, products, quotients, square roots, comparisons and conversions. Every NaN result is the canonical quiet NaN. -/

namespace Sys2Proof.Machine

/-- A decoded floating-point datum; `fin neg m e` is (−1)^neg · m · 2^e. -/
inductive FVal where
  | nan
  | inf (neg : Bool)
  | fin (neg : Bool) (m : Nat) (e : Int)
deriving DecidableEq, Repr

/-- A binary format: bits of the fraction and of the exponent. -/
structure Fmt where
  mb : Nat
  eb : Nat
deriving DecidableEq, Repr

abbrev f32 : Fmt := ⟨23, 8⟩
abbrev f64 : Fmt := ⟨52, 11⟩
abbrev fbias (f : Fmt) : Nat := 2 ^ (f.eb - 1) - 1

/-- The bits of an infinity and of the canonical NaN. -/
def infBits (f : Fmt) (neg : Bool) : Nat := b2n neg * 2 ^ (f.mb + f.eb) + (2 ^ f.eb - 1) * 2 ^ f.mb
def nanBits (f : Fmt) : Nat := (2 ^ f.eb - 1) * 2 ^ f.mb + 2 ^ (f.mb - 1)
def zeroBits (f : Fmt) (neg : Bool) : Nat := b2n neg * 2 ^ (f.mb + f.eb)

/-- Decode a bit pattern. -/
def fdec (f : Fmt) (n : Nat) : FVal :=
  let neg := n / 2 ^ (f.mb + f.eb) % 2 = 1
  let ex := n / 2 ^ f.mb % 2 ^ f.eb
  let fr := n % 2 ^ f.mb
  if ex = 2 ^ f.eb - 1 then (if fr = 0 then .inf neg else .nan)
  else if ex = 0 then .fin neg fr (1 - (fbias f : Int) - f.mb)
  else .fin neg (2 ^ f.mb + fr) ((ex : Int) - fbias f - f.mb)

/-- m / 2^k to nearest, ties to even. -/
def shiftRne (m k : Nat) : Nat := (roundDiv (m : Int) (2 ^ k)).toNat

/-- Round (−1)^neg · m · 2^e to the format, to nearest even, overflow to infinity. -/
def fround (f : Fmt) (neg : Bool) (m : Nat) (e : Int) : Nat :=
  if m = 0 then zeroBits f neg
  else
    let low : Int := 1 - (fbias f : Int) - f.mb
    let q0 : Int := e + Nat.log2 m - f.mb
    let q := if q0 < low then low else q0
    if q > 2 ^ f.eb then infBits f neg
    else
      let m' := if q ≤ e then m * 2 ^ (e - q).toNat else shiftRne m (min (q - e).toNat (Nat.log2 m + 3))
      let bits := (q - low).toNat * 2 ^ f.mb + m'
      if (2 ^ f.eb - 1) * 2 ^ f.mb ≤ bits then infBits f neg else b2n neg * 2 ^ (f.mb + f.eb) + bits

/-- Encode a datum. -/
def fenc (f : Fmt) : FVal → Nat
  | .nan => nanBits f
  | .inf neg => infBits f neg
  | .fin neg m e => fround f neg m e

abbrev negOf : FVal → Bool
  | .nan => false
  | .inf n => n
  | .fin n _ _ => n

/-- Exact signed value over 2^e for a common exponent. -/
def fsigned (neg : Bool) (m : Nat) : Int := if neg then -(m : Int) else m

/-- The sum, exact. -/
def vadd : FVal → FVal → FVal
  | .nan, _ => .nan
  | _, .nan => .nan
  | .inf a, .inf b => if a = b then .inf a else .nan
  | .inf a, _ => .inf a
  | _, .inf b => .inf b
  | .fin a m e, .fin b n g =>
    let lo := if e < g then e else g
    let x := fsigned a (m * 2 ^ (e - lo).toNat) + fsigned b (n * 2 ^ (g - lo).toNat)
    if x = 0 then .fin (a && b) 0 0 else .fin (decide (x < 0)) x.natAbs lo

def vneg : FVal → FVal
  | .nan => .nan
  | .inf a => .inf (!a)
  | .fin a m e => .fin (!a) m e

/-- The product, exact. -/
def vmul : FVal → FVal → FVal
  | .nan, _ => .nan
  | _, .nan => .nan
  | .inf a, .inf b => .inf (a != b)
  | .inf a, .fin b n _ => if n = 0 then .nan else .inf (a != b)
  | .fin a m _, .inf b => if m = 0 then .nan else .inf (a != b)
  | .fin a m e, .fin b n g => .fin (a != b) (m * n) (e + g)

/-- The quotient with a sticky bit, enough for one rounding. -/
def vdiv (f : Fmt) : FVal → FVal → FVal
  | .nan, _ => .nan
  | _, .nan => .nan
  | .inf _, .inf _ => .nan
  | .inf a, .fin b _ _ => .inf (a != b)
  | .fin a _ _, .inf b => .fin (a != b) 0 0
  | .fin a m e, .fin b n g =>
    if n = 0 then (if m = 0 then .nan else .inf (a != b))
    else
      let k := f.mb + 4 + Nat.log2 n
      let q := m * 2 ^ k / n
      let r := m * 2 ^ k % n
      .fin (a != b) (2 * q + b2n (decide (r ≠ 0))) (e - g - k - 1)

/-- The square root with a sticky bit. -/
def vsqrt (f : Fmt) : FVal → FVal
  | .nan => .nan
  | .inf a => if a then .nan else .inf false
  | .fin a m e =>
    if m = 0 then .fin a 0 0
    else if a then .nan
    else
      let odd := e % 2 = 1
      let m1 := if odd then 2 * m else m
      let e1 := if odd then e - 1 else e
      let k := f.mb + 4
      let w := m1 * 2 ^ (2 * k)
      let r := isqrt w
      .fin false (2 * r + b2n (decide (r * r ≠ w))) (e1 / 2 - k - 1)

/-- a < b of two data that are no NaN, as −1, 0 or 1. -/
def vcmp : FVal → FVal → Int
  | .nan, _ => 0
  | _, .nan => 0
  | .inf a, .inf b => if a = b then 0 else if a then -1 else 1
  | .inf a, _ => if a then -1 else 1
  | _, .inf b => if b then 1 else -1
  | .fin a m e, .fin b n g =>
    let lo := if e < g then e else g
    let x := fsigned a (m * 2 ^ (e - lo).toNat) - fsigned b (n * 2 ^ (g - lo).toNat)
    if x < 0 then -1 else if x = 0 then 0 else 1

abbrev fnan (f : Fmt) (n : Nat) : Bool := fdec f n = .nan

/-- Operations on bit patterns. -/
def fadd (f : Fmt) (a b : Nat) : Nat := fenc f (vadd (fdec f a) (fdec f b))
def fsub (f : Fmt) (a b : Nat) : Nat := fenc f (vadd (fdec f a) (vneg (fdec f b)))
def fmul (f : Fmt) (a b : Nat) : Nat := fenc f (vmul (fdec f a) (fdec f b))
def fdiv (f : Fmt) (a b : Nat) : Nat := fenc f (vdiv f (fdec f a) (fdec f b))
def fsqrt (f : Fmt) (a : Nat) : Nat := fenc f (vsqrt f (fdec f a))

/-- Comparisons; false with a NaN. -/
def feq (f : Fmt) (a b : Nat) : Bool := !fnan f a && !fnan f b && vcmp (fdec f a) (fdec f b) = 0
def flt (f : Fmt) (a b : Nat) : Bool := !fnan f a && !fnan f b && vcmp (fdec f a) (fdec f b) = -1
def fle (f : Fmt) (a b : Nat) : Bool := !fnan f a && !fnan f b && vcmp (fdec f a) (fdec f b) ≤ 0

/-- A format to another; a NaN becomes the canonical NaN. -/
def fconv (f g : Fmt) (a : Nat) : Nat := fenc g (fdec f a)

/-- An integer to a format. -/
def fofInt (f : Fmt) (i : Int) : Nat := fround f (decide (i < 0)) i.natAbs 0

/-- (−1)^neg · m · 2^e truncated towards 0; `none` with a NaN, an infinity stays one. -/
def ftrunc (m : Nat) (e : Int) : Nat := if 0 ≤ e then m * 2 ^ (min e.toNat 2048) else m / 2 ^ (-e).toNat

/-- A format to an integer held in [lo, hi]: truncated towards 0, 0 for a NaN. -/
def ftoInt (f : Fmt) (lo hi : Int) (a : Nat) : Int :=
  match fdec f a with
  | .nan => 0
  | .inf neg => if neg then lo else hi
  | .fin neg m e => clampInt lo hi (fsigned neg (ftrunc m e))

/-- A format to an integer held in [lo, hi]: to nearest, ties to even, 0 for a NaN. -/
def froundInt (f : Fmt) (lo hi : Int) (a : Nat) : Int :=
  match fdec f a with
  | .nan => 0
  | .inf neg => if neg then lo else hi
  | .fin neg m e =>
    clampInt lo hi (fsigned neg (if 0 ≤ e then m * 2 ^ (min e.toNat 2048) else shiftRne m (min (-e).toNat (Nat.log2 m + 3))))

/-- Is the datum finite? -/
abbrev ffinite (f : Fmt) (a : Nat) : Bool := a / 2 ^ f.mb % 2 ^ f.eb ≠ 2 ^ f.eb - 1

/-- A float register clamped to [lo, hi] (bit patterns); a NaN is left. -/
def fclamp (f : Fmt) (lo hi a : Nat) : Nat := if flt f a lo then lo else if flt f hi a then hi else a

end Sys2Proof.Machine
end

