-- ==== Sys2Proof/Machine/Operands.lean ====
section
/-! DEFINITION. Operand forms: the lane registers and second operand of a scan instruction (Tables ISA-1 and ISA-2), and
the values of points by type: normalisation (Table PTM-1), conversion (Table LDR-8), resolution, reading and applying
(R153 to R173). -/

namespace Sys2Proof.Machine

set_option cleanup.letToHave false

open Sys2Proof.Config

/-! ### Scan instructions -/

/-- The opcode and the fields of an instruction word (Table ISA-2). -/
def opOf (w : BitVec 64) : Nat := w.toNat / 2 ^ 56
def fieldsOf (w : BitVec 64) : Fields :=
  ⟨w.extractLsb' 51 5, w.extractLsb' 46 5, w.extractLsb' 41 5, w.getLsbD 40, w.extractLsb' 32 8, w.extractLsb' 0 32⟩

/-- G0 reads 0 (R228). -/
def Lane.getG (l : Lane) (r : BitVec 5) : Dword := if r = 0 then 0 else Tbl.get (fun _ => 0) l.g r.toNat

/-- A write to G0 is discarded (R228). -/
def Lane.setG (l : Lane) (r : BitVec 5) (v : Dword) : Lane :=
  if r = 0 then l else { l with g := Tbl.set (fun _ => 0) l.g r.toNat v }

/-- Operand b: IMM sign-extended or G[B] (R235). -/
def Lane.opB (l : Lane) (f : Fields) : Dword := if f.i then f.imm.signExtend 64 else l.getG f.b

/-- Where the pc lands among the loops in progress (R240): at the end of a body the next iteration starts or the loop ends.
Answers the loops, the pc and the counter register to write. -/
def landLoops : List LoopFr → Nat → List LoopFr × Nat × Option (Nat × Nat)
  | [], pc => ([], pc, none)
  | fr :: rest, pc =>
    if pc = fr.stop then
      if fr.k + 1 < fr.n then ({ fr with k := fr.k + 1 } :: rest, fr.first, some (fr.d, fr.k + 1))
      else landLoops rest pc
    else (fr :: rest, pc, none)

def Lane.land (l : Lane) (pc : Nat) : Lane :=
  let r := landLoops l.loops pc
  let l := { l with loops := r.1, pc := r.2.1 }
  match r.2.2 with
  | some (d, k) => l.setG (BitVec.ofNat 5 d) (BitVec.ofNat 64 k)
  | none => l

/-- The next instruction in order. -/
def Lane.next (l : Lane) : Lane := l.land (l.pc + 8)

/-- The pc that SCL.PC shows: a lane that waits for a lock or a lookup stands at its instruction until it has the result. -/
def Lane.nextPc (l : Lane) : Nat := if l.wait.isSome || l.cred then l.next.pc else l.pc

/-! ### Point values -/

/-- The types of Table PTM-1. -/
abbrev tUnused : Nat := 0
abbrev tBool : Nat := 1
abbrev tInt32 : Nat := 2
abbrev tUint32 : Nat := 3
abbrev tInt64 : Nat := 4
abbrev tUint64 : Nat := 5
abbrev tFloat32 : Nat := 6
abbrev tFloat64 : Nat := 7
abbrev tEnum16 : Nat := 8
abbrev tStamp : Nat := 9

/-- The normalisation of Table PTM-1. -/
def normalise (t : Nat) (v : Dword) : Dword :=
  match t with
  | 0 => 0
  | 1 => if v = 0 then 0 else 1
  | 2 => (v.setWidth 32).signExtend 64
  | 3 => (v.setWidth 32).setWidth 64
  | 6 => (v.setWidth 32).setWidth 64
  | 8 => (v.setWidth 16).setWidth 64
  | _ => v

/-- The integer types of Table LDR-8, and the floating types. -/
abbrev isInt (t : Nat) : Bool := (1 ≤ t && t ≤ 5) || t = 8
abbrev isFloat (t : Nat) : Bool := t = 6 || t = 7
abbrev fmtOf (t : Nat) : Fmt := if t = 6 then f32 else f64

/-- The numeric value of a stored integer form. -/
def intOf (t : Nat) (v : Dword) : Int := if t = 2 ∨ t = 4 then v.toInt else v.toNat

/-- The range of an integer type other than BOOL. -/
def intRange (t : Nat) : Int × Int :=
  match t with
  | 2 => (-2147483648, 2147483647)
  | 3 => (0, 4294967295)
  | 4 => (-9223372036854775808, 9223372036854775807)
  | 5 => (0, 18446744073709551615)
  | _ => (0, 65535)

/-- Whether Table LDR-8 allows a conversion. -/
def convertible (src dst : Nat) : Bool :=
  if src = 0 || dst = 0 || 9 < src || 9 < dst then false
  else if src = dst then true
  else if src = 9 then dst = 4 || dst = 5
  else if dst = 9 then src = 4 || src = 5
  else true

/-- Table LDR-8: the converted value and whether it was clamped; 0 where the table allows no conversion. -/
def convert (src dst : Nat) (v : Dword) : Dword × Bool :=
  if !convertible src dst then (0, false)
  else if src = dst || src = 9 || dst = 9 then (v, false)
  else if isInt src then
    let x := intOf src v
    if dst = 1 then ((if x = 0 then 0 else 1), false)
    else if isInt dst then
      let r := intRange dst
      let y := clampInt r.1 r.2 x
      (BitVec.ofInt 64 y, decide (y ≠ x))
    else (BitVec.ofNat 64 (fofInt (fmtOf dst) x), false)
  else
    let n := v.toNat % 2 ^ (if src = 6 then 32 else 64)
    let f := fmtOf src
    if isFloat dst then (BitVec.ofNat 64 (fconv f (fmtOf dst) n), false)
    else if dst = 1 then ((if fnan f n || feq f n 0 then 0 else 1), false)
    else
      let r := intRange dst
      let y := ftoInt f r.1 r.2 n
      let wide := ftoInt f (r.1 - 1) (r.2 + 1) n
      (BitVec.ofInt 64 y, !fnan f n && decide (wide ≠ y))

/-- A stored form as binary32, and its converse (R286, R302: Table LDR-8). -/
def toF32 (t : Nat) (v : Dword) : Word := (convert t 6 v).1.setWidth 32

/-- A value counts as nonzero (R66): for a float every value other than ±0. -/
def pointOn (t : Nat) (v : Dword) : Bool :=
  if t = 6 then v.setWidth 31 ≠ 0 else if t = 7 then v.setWidth 63 ≠ 0 else v ≠ 0

/-! ### Point entries (Table PTM-5) -/

abbrev ptAddr (p : Nat) : Nat := 32 * p
abbrev State.ptWord (s : State) (p o : Nat) : Word := s.ind pgPTM (ptAddr p + o)
abbrev State.setPtWord (s : State) (p o : Nat) (w : Word) : State := s.setInd pgPTM (ptAddr p + o) w
abbrev State.ptType (s : State) (p : Nat) : Nat := fld (s.ptWord p 0) 0 4
abbrev State.ptOwner (s : State) (p : Nat) : Nat := fld (s.ptWord p 0) 4 9
abbrev State.ptKind (s : State) (p : Nat) : Nat := fld (s.ptWord p 4) 0 3
abbrev State.ptId (s : State) (p : Nat) : Nat := fld (s.ptWord p 4) 16 16
abbrev State.ptForced (s : State) (p : Nat) : Bool := bit (s.ptWord p 0x10) 0

/-- Writer kinds (Table PTM-2). -/
abbrev wkNone : Nat := 0
abbrev wkBus : Nat := 1
abbrev wkDi : Nat := 2
abbrev wkProgram : Nat := 3
abbrev wkLoop : Nat := 4
abbrev wkTunnel : Nat := 5

/-- Set a point's writer (R154). -/
def State.setWriter (s : State) (p kind id : Nat) : State := s.setPtWord p 4 (word (kind + 65536 * id))

/-- The stored value, and storing one. -/
def State.ptStored (s : State) (p : Nat) : Dword := Tbl.get (fun _ => 0) s.points.val p
def State.setPtStored (s : State) (p : Nat) (v : Dword) : State :=
  ({ s with points := { s.points with val := Tbl.set (fun _ => 0) s.points.val p v } }).mark (some (0x01000000 + p / 4))

/-- The forced value (R169). -/
def State.ptFval (s : State) (p : Nat) : Dword :=
  BitVec.ofNat 64 (join64 (s.ptWord p 0x0C) (s.ptWord p 0x08))

/-- The value in force (R163). -/
def State.ptValue (s : State) (p : Nat) : Dword := if s.ptForced p then s.ptFval p else s.ptStored p

/-- A discarded writer's value (R170). -/
def State.ptDiscard (s : State) (p : Nat) : State :=
  ((s.addKey (ikey pgPTM (ptAddr p + 0x18)) 1).bump pgPTM 0x084).setPend pgPTM 2

/-- A writer's value is applied in its ft: discarded while forced, normalised otherwise (R153, R170). -/
def State.ptApply (s : State) (p : Nat) (v : Dword) : State :=
  if s.ptForced p then s.ptDiscard p
  else s.setPtStored p (normalise (s.ptType p) v)

/-! ### Resolution (R160) -/

abbrev ctxAddr (c : Nat) : Nat := 0x040000 + 16 * c
abbrev State.ctxDef (s : State) (c : Nat) : Word := s.ind pgPTM (ctxAddr c + 4)
abbrev State.ctxWin (s : State) (c : Nat) : Word := s.ind pgPTM (ctxAddr c)
abbrev State.wbase (s : State) (c : Nat) : Nat := fld (s.ctxWin c) 0 13
abbrev State.wsize (s : State) (c : Nat) : Nat := fld (s.ctxWin c) 16 14

/-- Grant entries (Table PTM-7). -/
abbrev grAddr (g : Nat) : Nat := 0x050000 + 8 * g
abbrev State.grSrc (s : State) (g : Nat) : Word := s.ind pgPTM (grAddr g)
abbrev State.grDst (s : State) (g : Nat) : Word := s.ind pgPTM (grAddr g + 4)
abbrev grValid (src : Word) : Bool := bit src 31

/-- The keys of register words that are listed: an unlisted grant is not valid, so only these need be looked at. -/
def State.grants (s : State) : List Nat :=
  (s.regs.filterMap fun e =>
    let lo := ikey pgPTM 0x050000
    if lo ≤ e.1 ∧ e.1 < lo + 8 * 2048 ∧ (e.1 - lo) % 8 = 0 ∧ bit e.2 31 then some ((e.1 - lo) / 8) else none)

/-- The valid grant that names grantee `c` and index `j`. -/
def State.grantFor (s : State) (c j : Nat) : Option Nat :=
  s.grants.find? fun g => fld (s.grDst g) 0 9 = c && fld (s.grDst g) 16 13 = j

/-- Step 1 or 2 of R160: the point that context `c` may write at index `j`. -/
def State.resolveOwn (s : State) (c j : Nat) : Option Nat :=
  if c = 0 then (if j < pointLimit s.small then some j else none)
  else if j < s.wsize c then
    let p := s.wbase c + j
    if s.ptType p ≠ 0 && s.ptOwner p = c then some p else none
  else none

/-- R160: the point, and whether it is read only. -/
def State.resolve (s : State) (c j : Nat) : Option (Nat × Bool) :=
  match s.resolveOwn c j with
  | some p => some (p, false)
  | none =>
    if c = 0 || decide (j < s.wsize c) then none
    else match s.grantFor c j with
      | some g => some (fld (s.grSrc g) 0 13, true)
      | none => none

/-! ### Refusals of the point mapper (R161, R183) -/

/-- Tables of LAST_REFUSE. -/
abbrev rfPoint : Nat := 0
abbrev rfCtx : Nat := 1
abbrev rfGrant : Nat := 2
abbrev rfCred : Nat := 3
abbrev rfAccess : Nat := 4

def State.ptmNote (s : State) (st c tab idx : Nat) : State :=
  (s.setReg pgPTM 0x078 (word (st + 256 * c + 16777216 * tab))).setReg pgPTM 0x07C (word (idx % 16384))

/-- A refused point access (R161). -/
def State.accessRefused (s : State) (c j : Nat) : State :=
  ((s.ptmNote stDenied c rfAccess j).bump pgPTM 0x080).setPend pgPTM 0

/-- A refused entry write (R183). -/
def State.entryRefused (s : State) (st c tab idx : Nat) : State :=
  ((s.ptmNote st c tab idx).bump pgPTM 0x088).setPend pgPTM 3

/-! ### References (R166, R182, R244) -/

/-- Ranges (first index, length) that an instruction references, and whether it writes them. -/
def insnRefs (w : BitVec 64) : List (Nat × Nat × Bool) :=
  let j := w.toNat % 2 ^ 13
  let n := w.toNat / 2 ^ 16 % 2 ^ 14
  if opOf w = 0x60 then [(j, 1, false)] else if opOf w = 0x61 then [(j, n, false)]
  else if opOf w = 0x62 then [(j, 1, true)] else if opOf w = 0x63 then [(j, n, true)]
  else []

/-- The ranges that a program references and writes. -/
def Prog.refs (g : Prog) : List (Nat × Nat × Bool) := g.code.flatMap insnRefs
def Prog.references (g : Prog) (j : Nat) : Bool := g.refs.any fun r => r.1 ≤ j && j < r.1 + r.2.1
def Prog.writesIdx (g : Prog) (j : Nat) : Bool := g.refs.any fun r => r.2.2 && r.1 ≤ j && j < r.1 + r.2.1

/-- The indices of a list of ranges, without repeats, rising. -/
def rangeSet (rs : List (Nat × Nat)) : List Nat :=
  (List.range 8192).filter fun j => rs.any fun r => r.1 ≤ j && j < r.1 + r.2
def Prog.written (g : Prog) : List Nat := rangeSet ((g.refs.filter (·.2.2)).map fun r => (r.1, r.2.1))
def Prog.referenced (g : Prog) : List Nat := rangeSet (g.refs.map fun r => (r.1, r.2.1))

/-- The programs that slots hold, with their slots (BESIDE holders too). -/
def State.progs (s : State) : List (Nat × Prog) :=
  s.slots.filterMap fun e => match e.2.prog with | some g => some (e.1, g) | none => none

/-- Loops by number: cascade 0 to 1,023, PID 1,024 + p. -/
abbrev loopAddr (n : Nat) : Nat := if n < 1024 then 128 * n else 0x060000 + 128 * (n - 1024)
abbrev State.loopWord (s : State) (n o : Nat) : Word := s.ind pgLPE (loopAddr n + o)
abbrev State.setLoopWord (s : State) (n o : Nat) (w : Word) : State := s.setInd pgLPE (loopAddr n + o) w
abbrev State.loopConf (s : State) (n : Nat) : Bool := bit (s.loopWord n 0x30) 16
abbrev State.loopOwner (s : State) (n : Nat) : Nat := fld (s.loopWord n 0x30) 0 9

/-- The configured loops, by the listed LP_DEF words. -/
def State.confLoops (s : State) : List Nat :=
  s.regs.filterMap fun e =>
    let lo := ikey pgLPE 0
    let a := e.1 - lo
    if e.1 < lo ∨ lo + 0x080000 ≤ e.1 ∨ !bit e.2 16 then none
    else if a < 0x020000 ∧ a % 128 = 0x30 then some (a / 128)
    else if 0x060000 ≤ a ∧ a < 0x062000 ∧ a % 128 = 0x30 then some (1024 + (a - 0x060000) / 128)
    else none

/-- The relative indices that a configured loop references (R166, R308). -/
def State.loopRefs (s : State) (n : Nat) : List Nat :=
  (if fld (s.loopWord n 0x00) 30 2 = 0 then [fld (s.loopWord n 0x00) 0 13] else []) ++
  (if bit (s.loopWord n 0x04) 31 then [fld (s.loopWord n 0x04) 0 13] else []) ++ [fld (s.loopWord n 0x0C) 0 13]

/-- A loaded program or a configured loop of context `c` references index `j`. -/
def State.indexRefd (s : State) (c j : Nat) : Bool :=
  (s.progs.any fun e => e.2.ctx = c && e.2.references j) ||
  (s.confLoops.any fun n => s.loopOwner n = c && (s.loopRefs n).contains j)

/-- The indices of a context under which it may name point `p`: its window's, or those of its grants. -/
def State.pointIndices (s : State) (c p : Nat) : List Nat :=
  (if c = 0 then [p]
   else if s.ptOwner p = c && s.wbase c ≤ p && p < s.wbase c + s.wsize c then [p - s.wbase c] else []) ++
  (s.grants.filterMap fun g =>
    if fld (s.grDst g) 0 9 = c ∧ fld (s.grSrc g) 0 13 = p then some (fld (s.grDst g) 16 13) else none)

/-- A program (other than that of slot `except`) or a loop references point `p` (R182). -/
def State.pointRefd (s : State) (p : Nat) (except : Option Nat := none) : Bool :=
  (s.progs.any fun e => some e.1 ≠ except && (s.pointIndices e.2.ctx p).any e.2.references) ||
  (s.confLoops.any fun n =>
    let c := s.loopOwner n
    (s.pointIndices c p).any fun j => (s.loopRefs n).contains j)

/-- The point that an index of the context's window names (R160, steps 1 and 2), in use or not. -/
def State.windowPoint (s : State) (c j : Nat) : Option Nat :=
  if c = 0 then (if j < pointLimit s.small then some j else none)
  else if j < s.wsize c then some (s.wbase c + j) else none

/-- A program of another slot than `except` will write point `p`: a LOAD not in effect yet, or the new program of a change (R22). -/
def State.comingWriter (s : State) (p : Nat) (except : Option Nat := none) : Bool :=
  (s.slots.any fun e =>
    ((e.2.loading && some e.1 ≠ except) || (e.2.state = 3 && (except.isNone || e.2.holderOf ≠ except))) &&
    (match e.2.prog with
     | some g => g.refs.any fun r => r.2.2 && (List.range r.2.1).any fun i => decide (s.windowPoint g.ctx (r.1 + i) = some p)
     | none => false))

/-- Point `p` is the source of a valid grant. -/
def State.grantSource (s : State) (p : Nat) : Bool := s.grants.any fun g => fld (s.grSrc g) 0 13 = p

end Sys2Proof.Machine
end

