-- ==== Sys2Proof/Machine/Budget.lean ====
section
/-! DEFINITION. The budget of the base cycle (R191, R194 to R196): classes, sets of classes that can be due together, and
the sums of R195 over them. -/

namespace Sys2Proof.Machine

set_option cleanup.letToHave false

open Sys2Proof.Config

/-- Class configuration (Table SCN-6). -/
abbrev State.clsPeriod (s : State) (c : Nat) : Nat := s.regFld pgSCN (0x060 + 8 * c) 0 8
abbrev State.clsEn (s : State) (c : Nat) : Bool := s.regBit pgSCN (0x060 + 8 * c) 8
abbrev State.clsAnchor (s : State) (c : Nat) : Nat := (s.reg pgSCN (0x064 + 8 * c)).toNat
def State.enabledClasses (s : State) : List Nat := (List.range 8).filter fun c => s.clsEn c

/-- The base class: the enabled class of shortest period, of equal periods the lowest (R191). -/
def State.baseClass (s : State) : Option Nat :=
  s.enabledClasses.foldl (fun b c => match b with
    | none => some c
    | some d => if s.clsPeriod c < s.clsPeriod d then some c else some d) none

/-- The design turn, T_h, and the budget P_b · T_h (R194, R195). -/
abbrev State.designTurn (s : State) : Nat := 39800000000 / s.regFld pgSCN 0x048 0 13
abbrev State.designHalf (s : State) : Nat := s.designTurn / 2
def State.baseBudget (s : State) : Nat :=
  match s.baseClass with
  | some b => s.clsPeriod b * s.designHalf
  | none => 0

/-- Classes that can be due at one anchor (R195). -/
def State.meet (s : State) (i j : Nat) : Bool :=
  let hi := s.clsAnchor i / halfCycle
  let hj := s.clsAnchor j / halfCycle
  ((hi : Int) - hj) % (Nat.gcd (s.clsPeriod i) (s.clsPeriod j) : Int) = 0

/-- Sublists of a list of classes every two of which meet. -/
def State.dueSets (s : State) : List Nat → List (List Nat)
  | [] => [[]]
  | c :: t =>
    let r := s.dueSets t
    r ++ (r.filter fun x => x.all (s.meet c)).map (c :: ·)

/-- The class of an enabled input mapping's slot (R363): channels 0 to 5 are CAN, 6 to 9 DALI. -/
def busPage (ch : Nat) : Nat := if ch < 6 then 0x18 + ch else 0x20 + (ch - 6)
abbrev State.imgCfg (s : State) (pg slot : Nat) : Word := s.ind pg (0x020000 + 4 * slot)

/-- One entry for each input mapping, its class: BUS and TUNNEL writers, then DI mappings. -/
def State.inputMaps (s : State) : List Nat :=
  (s.regs.filterMap fun e =>
    if e.1 < 4294967296 then none
    else
      let pg := (e.1 - 4294967296) / 16777216
      let a := (e.1 - 4294967296) % 16777216
      if pg = pgPTM ∧ a < 0x040000 ∧ a % 32 = 0x1C ∧ bit e.2 31 then some (fld e.2 0 3)
      else if ((0x18 ≤ pg ∧ pg ≤ 0x1D) ∨ (0x20 ≤ pg ∧ pg ≤ 0x23)) ∧ 0x040000 ≤ a ∧ a < 0x041000 ∧ a % 8 = 4 ∧
          bit e.2 31 ∧ !bit e.2 0 then
        some (fld (s.imgCfg pg (fld e.2 1 7)) 0 3)
      else none) ++
  (List.range 16).filterMap fun n =>
    let w := s.reg pgDIO (0x180 + 4 * n)
    if bit w 31 then some (fld w 16 3) else none

/-- The programs that count in R195: those of ACTIVE and FAULTED slots and of accepted loads. -/
def State.loadedProgs (s : State) : List (Nat × Prog) :=
  s.slots.filterMap fun e =>
    match e.2.prog with
    | some g => if e.2.state = 1 ∨ e.2.state = 2 ∨ e.2.loading then some (e.1, g) else none
    | none => none

/-- The runs that a program counts for: MAX_RUNS of the bindings of an event task, else 1 (R195, R209). -/
def State.runsOf (s : State) (slot : Nat) (g : Prog) : Nat :=
  if g.event then
    ((List.range 64).filterMap fun e =>
      let w := s.reg pgSCN (0x400 + 4 * e)
      if bit w 31 ∧ fld w 0 10 = slot then some (fld w 24 4) else none).sum
  else 1

/-- 256-bit words of the retained sections of a program. -/
def Prog.retainedWords (g : Prog) : Nat := ((g.sects.filter (·.retained)).map (fun x => x.len / 32)).sum

/-- The proven load of a class on a lane (SCL.LOADc). -/
def State.laneLoad (s : State) (lane c : Nat) : Nat :=
  (s.loadedProgs.map fun e => if e.2.lane = lane ∧ e.2.cls = c then e.2.bound * s.runsOf e.1 e.2 else 0).sum

/-- The terms of R195 for a set of classes. -/
def State.tIn (s : State) (due : List Nat) : Nat := 64 + 2 * (s.inputMaps.filter due.contains).length
def State.loadOf (s : State) (due : List Nat) : Nat :=
  ((List.range 8).map fun l => (due.map (s.laneLoad l)).sum).foldl max 0
def State.tOut (s : State) (due : List Nat) : Nat :=
  64 + ((s.loadedProgs.filter fun e => due.contains e.2.cls).map fun e => e.2.written.length + e.2.retainedWords).sum

/-- The left-hand side of R195, with `extra c` added for each class of the set (R277). -/
def State.cycleSum (s : State) (extra : Nat → Nat) (due : List Nat) : Nat :=
  s.tIn due + s.loadOf due + s.tOut due + (due.map extra).sum + 440000 + 2

/-- The sets of classes that can be due together. -/
def State.sets (s : State) : List (List Nat) := (s.dueSets s.enabledClasses).filter (fun x => !x.isEmpty)

/-- R195 holds. -/
def State.budgetOk (s : State) (extra : Nat → Nat := fun _ => 0) : Bool :=
  s.sets.all fun x => s.cycleSum extra x ≤ s.baseBudget

/-- SCN.WORST_LOAD, and SCN.VIEW_BOUND of a class. -/
def State.worstLoad (s : State) : Nat := (s.sets.map (s.cycleSum fun _ => 0)).foldl max 0
def State.viewBound (s : State) (c : Nat) : Nat :=
  ((s.sets.filter (·.contains c)).map (s.cycleSum fun _ => 0)).foldl max 0

/-- The class configuration that R191 allows. -/
def State.classesOk (s : State) : Bool :=
  match s.baseClass with
  | none => true
  | some b =>
    let pb := s.clsPeriod b
    s.enabledClasses.all fun c =>
      s.clsPeriod c % pb = 0 &&
      (s.clsAnchor c + turn - s.clsAnchor b) % turn % (pb * halfCycle) = 0

end Sys2Proof.Machine
end

