-- ==== Sys2Proof/Machine/Points.lean ====
section
/-! DEFINITION. Points, tenant contexts and credentials (R153 to R188, R548): the entry writes of the four tables, the point
value window, forces, and the credential lookup. -/

namespace Sys2Proof.Machine

set_option cleanup.letToHave false

open Sys2Proof.Config

/-! ### Entry words -/

/-- Spaces of entry latches (R180): the four tables of PTM, then those of other pages. -/
abbrev spPoint : Nat := 1
abbrev spCtx : Nat := 2
abbrev spGrant : Nat := 3
abbrev spCred : Nat := 4

/-- The row of a word of an entry. -/
def entRow (rows : List Row) (o : Nat) : Row := (rows.find? (RegMap.holds o)).getD { ofs := o, acc := .ro }

/-- A plain write's settled value of an entry word (R128, R130), and whether it was clamped. -/
def entSettle (pg : Nat) (rows : List Row) (o : Nat) (al : Alias) (old data : Word) : Word :=
  settled pg o (entRow rows o) al old data
def entClamped (pg : Nat) (rows : List Row) (o : Nat) (al : Alias) (old data : Word) : Bool :=
  wasClamped pg o (entRow rows o) al old data

/-- The bits of an entry word that a write can set. -/
def entRaw (rows : List Row) (o : Nat) (al : Alias) (old data : Word) : Word :=
  let m := word (entRow rows o).mask
  (aliasValue al old data &&& m) ||| (old &&& ~~~ m)

/-- An entry write whose latched word at `o` is clamped as it applies; the clamp is noted where the write is accepted
(R130, R132, R180). -/
def withSettled (p : Path) (pg sp base o : Nat) (f : Word → Word) (eff : State → State × Nat) (s : State) : State × Nat :=
  if s.hasLatched p sp base o then
    let w := s.latchedWord p sp base o 0
    let r := eff (s.latchWord p sp base o (f w))
    (r.1.noteClamp pg (base + o) (decide (f w ≠ w) && decide (r.2 = stOk)), r.2)
  else eff s

/-- A table's count rises or falls by one; bit 4 sets when the count reaches the limit (R186). -/
def State.ptmCount (s : State) (ofs limit : Nat) (old new : Bool) : State :=
  if !old && new then
    let s := s.countUp pgPTM ofs (ofs + 4) 1
    if (s.reg pgPTM ofs).toNat = limit then s.setPend pgPTM 4 else s
  else if old && !new then s.countDown pgPTM ofs 1
  else s

/-- HWM_CLR of PTM (R186). -/
def State.hwmOne (s : State) (pg count hwm : Nat) (b : Bool) : State :=
  if b then s.setReg pg hwm (s.reg pg count) else s
def ptmHwmEffect (data : Word) (s : State) : State × Nat :=
  ((((s.hwmOne pgPTM 0x040 0x044 (bit data 0)).hwmOne pgPTM 0x04C 0x050 (bit data 1)).hwmOne pgPTM 0x058 0x05C
    (bit data 2)).hwmOne pgPTM 0x064 0x068 (bit data 3), stOk)

/-! ### The point value window (R155, R161, R162) -/

/-- The latch of window index `j`. -/
abbrev winKey (j : Nat) : Nat := 8589934592 + j

/-- The point that a path may write through the window at index `j`. -/
def State.windowTarget (s : State) (c j : Nat) : Option Nat :=
  match s.past.resolveOwn c j with
  | some p => if s.past.ptKind p = wkTunnel then some p else none
  | none => none

/-- The tunnel latch of point `pt` takes a value; what it held before this ft stays known, for an INPUT phase that starts in this ft
(R155). -/
def State.tunWrite (s : State) (pt : Nat) (v : Dword) : State :=
  let q := s.points
  let new := Tbl.get (fun _ => false) q.tunNew pt
  let was := match Tbl.get (fun _ => none) q.tunWas pt with
    | some (t, old) => if t = s.tick then old else if new then some (Tbl.get (fun _ => 0) q.tun pt) else none
    | none => if new then some (Tbl.get (fun _ => 0) q.tun pt) else none
  { s with points := { q with tun := Tbl.set (fun _ => 0) q.tun pt v, tunNew := Tbl.set (fun _ => false) q.tunNew pt true,
                              tunWas := Tbl.set (fun _ => none) q.tunWas pt (some (s.tick, was)) } }

/-- The tunnel latch of point `pt` is empty. -/
def State.tunClear (s : State) (pt : Nat) : State :=
  let q := s.points
  { s with points := { q with tun := Tbl.set (fun _ => 0) q.tun pt 0, tunNew := Tbl.set (fun _ => false) q.tunNew pt false,
                              tunWas := Tbl.set (fun _ => none) q.tunWas pt none } }

/-- A write through the window: LO is held, HI puts the value into the tunnel latch; each is refused alike (R155). -/
def windowWriteEffect (p : Path) (j : Nat) (hi : Bool) (data : Word) (s : State) : State × Nat :=
  match s.windowTarget (s.ctxOf p) j with
  | none => (s.accessRefused (s.ctxOf p) j, stDenied)
  | some pt =>
    if hi then
      let v : Dword := BitVec.ofNat 64 (join64 data (s.heldLo p (winKey j)))
      ((s.emptyLo p (winKey j)).tunWrite pt v, stOk)
    else (s.holdLo p (winKey j) data, stOk)

/-- POINT_WINDOW_WRITE (R155). -/
def execPointWindowWrite (p : Path) (j : Nat) (hi : Bool) (data : Word) (s : State) : Out :=
  access (fun s => s.port p pgPTM true (windowWriteEffect p j hi data)) s

/-- A read through the window (R160 to R163): LO latches HI. A value or an entry that changes in this ft is read as it was (R23, R184). -/
def windowRead (p : Path) (j : Nat) (hi : Bool) (s : State) : State × Nat × Word :=
  let c := s.ctxOf p
  match s.past.resolve c j with
  | none => (s.accessRefused c j, stDenied, 0)
  | some (pt, _) =>
    if hi then (s, stOk, s.latchedHi p (winKey j))
    else
      let v := (s.past.ptValue pt).toNat
      (s.latchRead p (winKey j) (hiWord v), stOk, loWord v)

/-! ### PT_TUN (R156) -/

/-- A write of PT_TUN with its settled value. -/
def ptTunEffect (p : Path) (pt : Nat) (w : Word) (s : State) : State × Nat :=
  let c := s.ctxOf p
  let old := s.ptWord pt 0x1C
  let apply := (s.setPtWord pt 0x1C w)
  if c ≠ 0 then (s.entryRefused stDenied c rfPoint pt, stDenied)
  else if bit w 31 then
    if s.ptType pt = 0 then (s.entryRefused stInvalid c rfPoint pt, stInvalid)
    else if (s.ptKind pt ≠ wkNone && s.ptKind pt ≠ wkTunnel) || s.comingWriter pt then
      (s.entryRefused stWriterConflict c rfPoint pt, stWriterConflict)
    else if !apply.budgetOk then (s.entryRefused stBudget c rfPoint pt, stBudget)
    else (apply.setWriter pt wkTunnel (fld w 0 3), stOk)
  else if bit old 31 then
    ((apply.setWriter pt wkNone 0).tunClear pt, stOk)
  else (apply, stOk)

/-- PT_TUN_WRITE (R156). -/
def execPtTunWrite (p : Path) (pt : Nat) (data : Word) (s : State) : Out :=
  access (fun s => s.port p pgPTM true (fun s =>
    if pt < pointLimit s.small then
      withEntry p spPoint (ptAddr pt) (ptTunEffect p pt (entSettle pgPTM RegMap.entPoint 0x1C .plain 0 data)) s
    else (s, stOk))) s

/-! ### PT_DEF (R182, R173) -/

/-- Define, retype or free a point: the value is converted (R182), and the count follows. -/
def State.defPoint (s : State) (pt typ owner : Nat) : State :=
  let old := s.ptType pt
  let v := if old = 0 ∨ typ = 0 then 0 else normalise typ (convert old typ (s.ptStored pt)).1
  let s := if old = typ then s else s.setPtStored pt v
  (s.setPtWord pt 0 (word (typ + 16 * owner))).ptmCount 0x040 (pointLimit s.small) (decide (old ≠ 0)) (decide (typ ≠ 0))

/-- A write of PT_DEF with its settled value. -/
def ptDefEffect (p : Path) (pt : Nat) (w : Word) (s : State) : State × Nat :=
  let c := s.ctxOf p
  let typ := fld w 0 4
  let owner := fld w 4 9
  let change := typ ≠ s.ptType pt || owner ≠ s.ptOwner pt
  if c ≠ 0 then (s.entryRefused stDenied c rfPoint pt, stDenied)
  else if change && s.ptForced pt then (s.entryRefused stForcedPointRemoved c rfPoint pt, stForcedPointRemoved)
  else if change && (s.ptKind pt ≠ wkNone || s.grantSource pt || s.pointRefd pt) then
    (s.entryRefused stInUse c rfPoint pt, stInUse)
  else if typ ≠ 0 && (ctxLimit s.small ≤ owner || s.ctxState owner = 0) then
    (s.entryRefused stInvalid c rfPoint pt, stInvalid)
  else if s.ptType pt = 0 && typ ≠ 0 && (s.reg pgPTM 0x040).toNat = pointLimit s.small then
    (s.entryRefused stCapacity c rfPoint pt, stCapacity)
  else (s.defPoint pt typ owner, stOk)

/-- PT_DEF_WRITE (R182). -/
def execPtDefWrite (p : Path) (pt : Nat) (data : Word) (s : State) : Out :=
  access (fun s => s.port p pgPTM true (fun s =>
    if pt < pointLimit s.small then
      let r := withEntry p spPoint (ptAddr pt) (ptDefEffect p pt (entSettle pgPTM RegMap.entPoint 0 .plain 0 data)) s
      (r.1.noteClamp pgPTM (ptAddr pt) (entClamped pgPTM RegMap.entPoint 0 .plain 0 data && decide (r.2 = stOk)), r.2)
    else (s, stOk))) s

/-! ### Forces (R169 to R172) -/

/-- May context `c` force point `pt` (R169)? -/
def State.mayForce (s : State) (c pt : Nat) : Bool := c = 0 || (s.ptOwner pt = c && s.ptType pt ≠ 0 && bit (s.ctxDef c) 4)

/-- Release a point: it keeps the forced value (R172). -/
def State.release (s : State) (pt : Nat) : State :=
  if s.ptForced pt then
    ((s.setPtStored pt (s.ptFval pt)).setPtWord pt 0x10 0).countDown pgPTM 0x074 1
  else s

/-- A write of PT_FORCE (R169). -/
def ptForceEffect (p : Path) (pt : Nat) (w : Word) (s : State) : State × Nat :=
  let c := s.ctxOf p
  if !s.mayForce c pt then (s.entryRefused stDenied c rfPoint pt, stDenied)
  else
    let lo := s.latchedWord p spPoint (ptAddr pt) 0x08 (s.ptWord pt 0x08)
    let hi := s.latchedWord p spPoint (ptAddr pt) 0x0C (s.ptWord pt 0x0C)
    let s := s.dropLatch p spPoint
    if bit w 0 then
      if s.ptType pt = 0 then (s.entryRefused stInvalid c rfPoint pt, stInvalid)
      else
        let v := (normalise (s.ptType pt) (BitVec.ofNat 64 (join64 hi lo))).toNat
        let s := if s.ptForced pt then s else s.setReg pgPTM 0x074 (s.reg pgPTM 0x074 + 1)
        let s := (s.setPtWord pt 0x08 (loWord v)).setPtWord pt 0x0C (hiWord v)
        (((s.setPtWord pt 0x10 1).setPtWord pt 0x14 (word c)).setPend pgPTM 1, stOk)
    else if s.ptForced pt then ((s.release pt).setPend pgPTM 1, stOk)
    else (s, stOk)

/-- PT_FORCE_WRITE (R169). -/
def execPtForceWrite (p : Path) (pt : Nat) (data : Word) (s : State) : Out :=
  access (fun s => s.port p pgPTM true (fun s =>
    if pt < pointLimit s.small then ptForceEffect p pt (data &&& 1) s else (s, stOk))) s

/-! ### Contexts (R157, R158, R167, R168) -/

/-- The credentials in use, by their listed CR_DEF words. -/
def State.creds (s : State) : List Nat :=
  s.regs.filterMap fun e =>
    let lo := ikey pgPTM 0x080000
    if lo ≤ e.1 ∧ e.1 < lo + 32 * 12288 ∧ (e.1 - lo) % 32 = 0x18 ∧ fld e.2 12 2 ≠ 0 then some ((e.1 - lo) / 32) else none

abbrev crAddr (n : Nat) : Nat := 0x080000 + 32 * n
abbrev State.crWord (s : State) (n o : Nat) : Word := s.ind pgPTM (crAddr n + o)
abbrev State.crOwner (s : State) (n : Nat) : Nat := fld (s.crWord n 0x18) 0 9

/-- The points in use of a context. -/
def State.ownsPoint (s : State) (c : Nat) : Bool :=
  s.regs.any fun e =>
    let lo := ikey pgPTM 0
    lo ≤ e.1 && e.1 < lo + 0x040000 && (e.1 - lo) % 32 = 0 && fld e.2 0 4 ≠ 0 && fld e.2 4 9 = c

/-- Key slots of a context that are not FREE (Table KEY-8). -/
def State.ownsKey (s : State) (c : Nat) : Bool :=
  s.regs.any fun e =>
    let lo := ikey pgKEY 0
    lo ≤ e.1 && e.1 < lo + 16 * 1024 && (e.1 - lo) % 16 = 0 && fld e.2 0 2 ≠ 0 && fld e.2 16 9 = c

/-- What keeps a context from becoming FREE (R158). -/
def State.ctxInUse (s : State) (c : Nat) : Bool :=
  s.ownsPoint c || s.progs.any (fun e => e.2.ctx = c) || s.confLoops.any (fun n => s.loopOwner n = c) ||
  s.grants.any (fun g => s.ptOwner (fld (s.grSrc g) 0 13) = c || fld (s.grDst g) 0 9 = c) ||
  s.creds.any (fun n => s.crOwner n = c) || s.ownsKey c ||
  decide (s.ind (pgCAN 0) (0x100000 + 8 * c) ≠ 0) || decide (fld (s.ind pgCRN (16 * c)) 0 13 ≠ 0)

/-- The point that index `j` of a window names through step 2 of R160. -/
def winPoint (win : Word) (j : Nat) : Option Nat := if j < fld win 16 14 then some (fld win 0 13 + j) else none

/-- R167: a grantee index would be covered. -/
def State.winCovers (s : State) (c : Nat) (win : Word) : Bool :=
  s.grants.any fun g => fld (s.grDst g) 0 9 = c && fld (s.grDst g) 16 13 < fld win 16 14

/-- R168: a referenced index would resolve otherwise, or a TUNNEL point of the context would leave the window. -/
def State.winBreaks (s : State) (c : Nat) (win : Word) : Bool :=
  let old := s.ctxWin c
  let refd := fun j => (winPoint old j).isSome && winPoint old j ≠ winPoint win j
  (s.progs.any fun e => e.2.ctx = c && e.2.referenced.any refd) ||
  (s.confLoops.any fun n => s.loopOwner n = c && (s.loopRefs n).any refd) ||
  (s.regs.any fun e =>
    let lo := ikey pgPTM 0
    let pt := (e.1 - lo) / 32
    lo ≤ e.1 && e.1 < lo + 0x040000 && (e.1 - lo) % 32 = 0x1C && bit e.2 31 && s.ptOwner pt = c &&
      fld old 0 13 ≤ pt && pt < fld old 0 13 + fld old 16 14 &&
      !(decide (fld win 0 13 ≤ pt) && decide (pt < fld win 0 13 + fld win 16 14)))

/-- An entry write of a context (R158, R167, R168, R181) with its settled words. -/
def ctxEntryEffect (p : Path) (c : Nat) (win dfn : Word) (s : State) : State × Nat :=
  if c = 0 then (s, stOk)
  else
    let by_ := s.ctxOf p
    let old := s.ctxWin c
    let moved := fld win 0 13 ≠ fld old 0 13 || fld win 16 14 < fld old 16 14
    if fld dfn 0 2 = 0 && s.ctxInUse c then (s.entryRefused stInUse by_ rfCtx c, stInUse)
    else if win ≠ old && s.winCovers c win then (s.entryRefused stInvalid by_ rfCtx c, stInvalid)
    else if moved && s.winBreaks c win then (s.entryRefused stInUse by_ rfCtx c, stInUse)
    else if s.ctxState c = 0 && fld dfn 0 2 ≠ 0 && (s.reg pgPTM 0x04C).toNat = ctxLimit s.small then
      (s.entryRefused stCapacity by_ rfCtx c, stCapacity)
    else
      let was := s.ctxState c
      (((s.setInd pgPTM (ctxAddr c) win).setInd pgPTM (ctxAddr c + 4) dfn).ptmCount 0x04C (ctxLimit s.small)
        (decide (was ≠ 0)) (decide (fld dfn 0 2 ≠ 0)), stOk)

/-- A write of CTX_DEF applies the latched CTX_WIN with it (R180). -/
def ctxDefEffect (p : Path) (c : Nat) (w : Word) (s : State) : State × Nat :=
  if s.ctxOf p ≠ 0 then (s.entryRefused stDenied (s.ctxOf p) rfCtx c, stDenied)
  else
    withSettled p pgPTM spCtx (ctxAddr c) 0 (winClamp (pointLimit s.small)) (fun s =>
      ctxEntryEffect p c (s.latchedWord p spCtx (ctxAddr c) 0 (s.ctxWin c)) w (s.dropLatch p spCtx)) s

/-- CTX_DEF_WRITE (R158). -/
def execCtxDefWrite (p : Path) (c : Nat) (data : Word) (s : State) : Out :=
  access (fun s => s.port p pgPTM true (fun s =>
    if c < ctxLimit s.small then ctxDefEffect p c (entSettle pgPTM RegMap.entCtx 4 .plain 0 data) s else (s, stOk))) s

/-- CTX_WIN_WRITE (R167, R168): the entry write that carries a new CTX_WIN, with CTX_DEF as latched or in force. -/
def execCtxWinWrite (p : Path) (c : Nat) (data : Word) (s : State) : Out :=
  access (fun s => s.port p pgPTM true (fun s =>
    if s.ctxOf p ≠ 0 ∧ c < ctxLimit s.small then (s.entryRefused stDenied (s.ctxOf p) rfCtx c, stDenied)
    else if c < ctxLimit s.small then
      let raw := data &&& 0x3FFF1FFF
      let win := winClamp (pointLimit s.small) raw
      let r := ctxEntryEffect p c win (s.ctxDef c) (s.dropLatch p spCtx)
      (r.1.noteClamp pgPTM (ctxAddr c) (decide (win ≠ raw) && decide (r.2 = stOk)), r.2)
    else (s, stOk))) s

/-! ### Grants (R164 to R166) -/

/-- R165: the new entry is invalid. -/
def State.grantBad (s : State) (g : Nat) (src dst : Word) : Bool :=
  let pt := fld src 0 13
  let c := fld dst 0 9
  let j := fld dst 16 13
  c = 0 || s.ptOwner pt = c || decide (ctxLimit s.small ≤ c) || s.ctxState c = 0 || s.ptType pt = 0 || decide (pointLimit s.small ≤ pt) ||
  decide (j < s.wsize c) ||
  s.grants.any fun h => h ≠ g && fld (s.grDst h) 0 9 = c && fld (s.grDst h) 16 13 = j

/-- An entry write of a grant (R165, R166, R181). One that leaves VALID at 0 makes no grant, so R165 finds nothing in it (log entry 54). -/
def grantEffect (p : Path) (g : Nat) (dst : Word) (s : State) : State × Nat :=
  let by_ := s.ctxOf p
  let src := s.latchedWord p spGrant (grAddr g) 0 (s.grSrc g)
  let owns := fun (w : Word) => s.ptType (fld w 0 13) ≠ 0 && s.ptOwner (fld w 0 13) = by_
  let oldSrc := s.grSrc g
  let oldDst := s.grDst g
  if by_ ≠ 0 && !(owns oldSrc && owns src) then (s.entryRefused stDenied by_ rfGrant g, stDenied)
  else
    let s := s.dropLatch p spGrant
    if grValid src && s.grantBad g src dst then (s.entryRefused stInvalid by_ rfGrant g, stInvalid)
    else if grValid oldSrc && (!grValid src || fld dst 0 9 ≠ fld oldDst 0 9 || fld dst 16 13 ≠ fld oldDst 16 13) &&
        s.indexRefd (fld oldDst 0 9) (fld oldDst 16 13) then
      (s.entryRefused stInUse by_ rfGrant g, stInUse)
    else if !grValid oldSrc && grValid src && (s.reg pgPTM 0x058).toNat = grantLimit s.small then
      (s.entryRefused stCapacity by_ rfGrant g, stCapacity)
    else
      (((s.setInd pgPTM (grAddr g) src).setInd pgPTM (grAddr g + 4) dst).ptmCount 0x058 (grantLimit s.small)
        (grValid oldSrc) (grValid src), stOk)

/-- GRANT_WRITE (R165). -/
def execGrantWrite (p : Path) (g : Nat) (data : Word) (s : State) : Out :=
  access (fun s => s.port p pgPTM true (fun s =>
    if g < grantLimit s.small then grantEffect p g (data &&& 0x1FFF01FF) s else (s, stOk))) s

/-! ### Credentials (R174 to R178) -/

def State.crKey (s : State) (n : Nat) : Dword := BitVec.ofNat 64 (join64 (s.crWord n 4) (s.crWord n 0))

/-- An entry write of a credential (R174, R178, R181, R182). -/
def crDefEffect (p : Path) (n : Nat) (w : Word) (s : State) : State × Nat :=
  let by_ := s.ctxOf p
  let owner := fld w 0 9
  if by_ ≠ 0 && !(s.crOwner n = by_ && owner = by_ && bit (s.ctxDef by_) 5) then
    (s.entryRefused stDenied by_ rfCred n, stDenied)
  else
    let a := crAddr n
    let l := fun o => s.latchedWord p spCred a o (s.crWord n o)
    let key : Dword := BitVec.ofNat 64 (join64 (l 4) (l 0))
    let was := decide (fld (s.crWord n 0x18) 12 2 ≠ 0)
    let on := decide (fld w 12 2 ≠ 0)
    let dup := on && s.creds.any fun m => m ≠ n && s.crOwner m = owner && s.crKey m = key
    let t := s.dropLatch p spCred
    if on && (decide (ctxLimit s.small ≤ owner) || s.ctxState owner = 0) then
      (t.entryRefused stInvalid by_ rfCred n, stInvalid)
    else if dup then (t.entryRefused stDuplicate by_ rfCred n, stDuplicate)
    else if on && !was && (s.reg pgPTM 0x064).toNat = credLimit s.small then
      (t.entryRefused stCapacity by_ rfCred n, stCapacity)
    else
      let t := ((t.setInd pgPTM a (l 0)).setInd pgPTM (a + 4) (l 4)).setInd pgPTM (a + 8) (l 8)
      let t := ((t.setInd pgPTM (a + 0x0C) (l 0x0C)).setInd pgPTM (a + 0x10) (l 0x10)).setInd pgPTM (a + 0x14) (l 0x14)
      let mark := fun (k : Lookup) => if k.result.map (·.2) = some n then ({ k with asRead := false } : Lookup) else k
      let t := { t with points := { t.points with lookups := t.points.lookups.map mark } }
      ((t.setInd pgPTM (a + 0x18) w).ptmCount 0x064 (credLimit s.small) was on, stOk)

/-- CR_DEF_WRITE (R178). -/
def execCrDefWrite (p : Path) (n : Nat) (data : Word) (s : State) : Out :=
  access (fun s => s.port p pgPTM true (fun s =>
    if n < credLimit s.small then crDefEffect p n (entSettle pgPTM RegMap.entCred 0x18 .plain 0 data) s else (s, stOk))) s

/-- The result code of a lookup of entry `n` (R175). -/
def State.credCode (s : State) (n : Nat) (k : Lookup) : Nat :=
  let mask := fld (s.crWord n 8) (if k.lift then 16 else 0) 16
  let uses := fld (s.crWord n 0x14) 0 16
  let expiry := fld (s.crWord n 0x10) 0 16 * turn + (s.crWord n 0x0C).toNat
  if fld (s.crWord n 0x18) 12 2 = 2 then 2
  else if bit (s.crWord n 0x10) 16 && !stampAfter expiry s.stamp then 3
  else if mask / 2 ^ k.group % 2 = 0 then 4
  else if uses = 0 then 5
  else 0

/-- The port accepts the oldest lookup, whose first ft is now: it reads the entry as it was before any write
of this ft (R176, R177, R184). -/
def State.acceptLookup (s : State) : State :=
  match s.points.lookups with
  | [] => s
  | k :: t =>
    if k.result.isSome then s
    else
      let e := s.past
      let hit := e.creds.find? fun n => e.crOwner n = k.ctx && e.crKey n = k.key
      let code := match hit with
        | none => 1
        | some n => e.credCode n k
      let k : Lookup := { k with first := s.tick, result := some (code, hit.getD 0), asRead := true }
      { s with points := { s.points with lookups := k :: t } }

/-- Lookups of one ft stand in lane order (R176). A lookup that another of its ft overtakes is not accepted yet. -/
def insertLookup (k : Lookup) : List Lookup → List Lookup
  | [] => [k]
  | x :: t =>
    if x.issued = k.issued ∧ k.lane < x.lane ∧ (x.result.isNone ∨ x.first = k.issued) then
      k :: ({ x with result := none } : Lookup) :: t
    else x :: insertLookup k t

/-- A lookup is issued. -/
def State.issueLookup (s : State) (k : Lookup) : State :=
  ({ s with points := { s.points with lookups := insertLookup k s.points.lookups } }).acceptLookup

/-- CRED_LOOKUP (R175 to R177): the last ft of the lookup in the port, 23 ft after its first. USES falls where the entry is as
read, the lane receives the code and the entry number. The clock then stands in the ft after, in which the lane goes on and the port
accepts the next lookup. -/
def credLookup (l : Nat) (s : State) : State :=
  match s.points.lookups with
  | [] => s
  | k :: rest =>
    if k.lane ≠ l then s
    else
      let code := match k.result with | some r => r.1 | none => 1
      let n := match k.result with | some r => r.2 | none => 0
      let s := s.until (k.first + 23)
      let s := s.bump pgPTM 0x08C
      let s :=
        if code = 0 then
          let uses := fld (s.crWord n 0x14) 0 16
          let s := if uses = 0xFFFF ∨ !k.asRead then s else s.setInd pgPTM (crAddr n + 0x14) (word (uses - 1))
          (s.bump pgPTM 0x090).addKey (ikey pgPTM (crAddr n + 0x1C)) 1
        else s
      let s :=
        if k.waits then
          s.setLane l ({ (s.lane l).setG (BitVec.ofNat 5 k.d) (BitVec.ofNat 64 (code + 65536 * n)) with cred := false } : Lane).next
        else s
      let s := { s with points := { s.points with lookups := rest } }
      (s.until (k.first + 24)).acceptLookup

def execCredLookup (l : Nat) (s : State) : Out := event (fun s => credLookup l s) s

end Sys2Proof.Machine
end

