-- ==== Sys2Proof/Machine/Dio.lean ====
section
/-! DEFINITION. Digital inputs and outputs (R61 to R68): stamped edges, point mappings, trips and supplies. -/

namespace Sys2Proof.Machine

set_option cleanup.letToHave false

open Sys2Proof.Config

/-! ### Inputs -/

/-- An enabled edge is stamped (R63, R64): a stamp not yet read, or read in this very ft, is replaced. -/
def State.stampEdge (s : State) (n : Nat) (rising : Bool) (stamp : Nat) : State :=
  let held := Tbl.get (fun _ => false) s.dio.unread n || (Tbl.get (fun _ => none) s.dio.readAt n : Option Nat) = some s.tick
  let s := if held then s.setRegBit pgDIO 0x054 n true else s
  let s := s.setReg64 pgDIO (0x080 + 8 * n) stamp
  let s := s.setRegBit pgDIO 0x058 n rising
  let s := (s.setRegBit pgDIO 0x050 n true).bump pgDIO (0x100 + 4 * n)
  let s := { s with dio := { s.dio with unread := Tbl.set (fun _ => false) s.dio.unread n true } }
  (s.setPend pgDIO 0).fire (64 + n)

/-- The filter code of input n (Table DIO-1). -/
def State.diFilter (s : State) (n : Nat) : Nat := s.regFld pgDIO (0x044 + n / 8 * 4) (n % 8 * 4) 4

/-- How long a new state must be stable under a filter code, in ft: 2^(c − 1) · 10 µs (R62). -/
def stableTime (code : Nat) : Nat := if code = 0 then 0 else 2 ^ (code - 1) * 10 * ftPerUs

/-- DI_EDGE (R62, R63): from tick `first` input n has been in another state, which the filter accepts when it has been stable for its
time, with code 0 at once. The stamp is that first tick; one further back than the filter's time (with code 0, than the 2 ft within
which the pending bit sets) is brought up to it. Before the release of the I/O domains the inputs are neither stamped nor counted
(Table ELE-19). -/
def diEdge (n : Nat) (rising : Bool) (first : Nat) (s : State) : State :=
  if s.regBit pgDIO 0x040 n = rising then s
  else
  let code := s.diFilter n
  let s := s.until (first + stableTime code)
  let stamp := max first (s.tick - (if code = 0 then 2 else stableTime code))
  let s := s.setRegBit pgDIO 0x040 n rising
  let en := s.regBit pgDIO 0x04C (if rising then n else n + 16)
  if s.sys.released && en then s.stampEdge n rising stamp else s

def execDiEdge (n : Nat) (rising : Bool) (first : Nat) (s : State) : Out := event (fun s => diEdge n rising first s) s

/-- A read of DI_TSn_HI (R64, R124): the latched word, and the stamp counts as read. -/
def diStampRead (p : Path) (n : Nat) (s : State) : State × Nat × Word :=
  let d := { s.dio with unread := Tbl.set (fun _ => false) s.dio.unread n false,
                        readAt := Tbl.set (fun _ => none) s.dio.readAt n (some s.tick) }
  ({ s with dio := d }, stOk, s.latchedHi p (dkey pgDIO (0x080 + 8 * n)))

/-- DI_STAMP_READ (R64). -/
def execDiStampRead (p : Path) (n : Nat) (s : State) : Out :=
  access (fun s => s.portRead p pgDIO false (diStampRead p n)) s

/-! ### Outputs -/

/-- The output follows its source: DO_SAFE in a module fault (R68), else its point's value of the last OUTPUT phase where a
mapping owns it, else DO_CMD (R65). Before the first OUTPUT phase of a new mapping the output keeps the value that its last mapping gave
it, or OFF (log entry 46: the spec is silent). -/
def State.doSource (s : State) (m : Nat) : Bool :=
  if s.sys.fault ≠ 0 then s.regBit pgDIO 0x06C m
  else if s.regBit pgDIO 0x070 m then Tbl.get (fun _ => false) s.dio.want m
  else s.regBit pgDIO 0x060 m

/-- The output stage is on: J15 supplies it (R57), the I/O domains are released and the first OUTPUT phase has been (R70;
in a module fault the safe state applies at once), and it has not tripped (R67). -/
def State.doOn (s : State) (m : Nat) : Bool :=
  s.sys.released && s.regBit pgDIO 0x074 0 && !s.regBit pgDIO 0x068 m &&
  (Tbl.get (fun _ => false) s.dio.follows 0 || s.sys.fault ≠ 0) && s.doSource m

/-- A write of DO_CMD: bits of outputs that a mapping owns are ignored (R65). -/
def doCmdEffect (w : Word) (s : State) : State × Nat :=
  let own := s.reg pgDIO 0x070
  (s.setReg pgDIO 0x060 (((s.reg pgDIO 0x060 &&& own) ||| (w &&& ~~~own)) &&& 0xFF), stOk)

/-- DO_STATE: the stage, and the voltage that it puts on its terminal. -/
def State.doState (s : State) : Word :=
  word (((List.range 8).map fun m => if s.doOn m then 2 ^ m + 2 ^ (m + 8) else 0).sum)

/-- What waits for the first OUTPUT phase since the release (key 0), or for the first sample processing (key 1), has begun (R70). -/
def State.started (s : State) (k : Nat) : Bool := Tbl.get (fun _ => false) s.dio.follows k
def State.start (s : State) (k : Nat) : State := { s with dio := { s.dio with follows := Tbl.set (fun _ => false) s.dio.follows k true } }

/-- DO_TRIP (R67). -/
def doTrip (m : Nat) (s : State) : State := (s.setRegBit pgDIO 0x068 m true).setPend pgDIO 1
def execDoTrip (m : Nat) (s : State) : Out := event (fun s => doTrip m s) s

/-- OPEN_LOAD (R67): found with the test current while the output is off. -/
def openLoad (m : Nat) (s : State) : State :=
  if s.doOn m then s else (s.setRegBit pgDIO 0x068 (m + 8) true).setPend pgDIO 1
def execOpenLoad (m : Nat) (s : State) : Out := event (fun s => openLoad m s) s

/-- DO_FAULT_CLEAR (R67): a write of DO_FAULT through the clear alias. -/
def execDoFaultClear (p : Path) (data : Word) (s : State) : Out :=
  access (fun s => s.port p pgDIO false fun s =>
    (s.setReg pgDIO 0x068 (rsValue .clear (s.reg pgDIO 0x068) data 0xFFFF), stOk)) s

/-- DIO_SUPPLY_CHANGE (R61, Table DIO-2). -/
def dioSupplyChange (ext sns limit : Bool) (s : State) : State :=
  let w := word (b2n ext + 2 * b2n sns + 4 * b2n limit)
  if w = s.reg pgDIO 0x074 then s else (s.setReg pgDIO 0x074 w).setPend pgDIO 2

def execDioSupplyChange (ext sns limit : Bool) (s : State) : Out := event (fun s => dioSupplyChange ext sns limit s) s

/-! ### Mappings (R66) -/

/-- A refused mapping write. -/
def State.mapRefuse (s : State) (st k : Nat) : State × Nat :=
  ((s.setReg pgDIO 0x078 (word (st + 256 * k))).setPend pgDIO 3, st)

/-- The point exists and is of a type that a mapping may name. -/
def State.mapPoint (s : State) (pt : Nat) : Bool := s.ptType pt ≠ 0 && s.ptType pt ≠ tStamp

/-- A write of DI_MAPn with its settled value: the removal of an old mapping and the addition of the new one together. -/
def diMapEffect (n : Nat) (w : Word) (s : State) : State × Nat :=
  let old := s.reg pgDIO (0x180 + 4 * n)
  let pt := fld w 0 13
  let cleared := if bit old 31 then s.setWriter (fld old 0 13) wkNone 0 else s
  let t := cleared.setReg pgDIO (0x180 + 4 * n) w
  if bit w 31 then
    if !s.mapPoint pt then s.mapRefuse stInvalid n
    else if cleared.ptKind pt ≠ wkNone || s.comingWriter pt then s.mapRefuse stWriterConflict n
    else if !t.budgetOk then s.mapRefuse stBudget n
    else (t.setWriter pt wkDi n, stOk)
  else (t, stOk)

/-- DI_MAP_WRITE (R66). -/
def execDiMapWrite (p : Path) (n : Nat) (data : Word) (s : State) : Out :=
  access (fun s => s.port p pgDIO false (diMapEffect n (data &&& 0x80071FFF))) s

/-- A write of DO_MAPm with its settled value. -/
def doMapEffect (m : Nat) (w : Word) (s : State) : State × Nat :=
  if bit w 31 && !s.mapPoint (fld w 0 13) then s.mapRefuse stInvalid (16 + m)
  else ((s.setReg pgDIO (0x1C0 + 4 * m) w).setRegBit pgDIO 0x070 m (bit w 31), stOk)

/-- DO_MAP_WRITE (R66). -/
def execDoMapWrite (p : Path) (m : Nat) (data : Word) (s : State) : Out :=
  access (fun s => s.port p pgDIO false (doMapEffect m (data &&& 0x80071FFF))) s

/-- The DI values that a cycle of the due set samples (R66, step 1 of Table SCN-2): point and value converted from BOOL. -/
def State.diSamples (s : State) (due : Nat → Bool) : List (Nat × Dword) :=
  (List.range 16).filterMap fun n =>
    let w := s.reg pgDIO (0x180 + 4 * n)
    if bit w 31 && due (fld w 16 3) then
      let pt := fld w 0 13
      some (pt, (convert tBool (s.ptType pt) (if s.regBit pgDIO 0x040 n then 1 else 0)).1)
    else none

/-- The outputs owned by mappings of due classes take their points' values at the OUTPUT commit (R65, R66). -/
def State.doOutputs (s : State) (due : Nat → Bool) : Nat → State
  | 0 => s
  | k + 1 =>
    let s := s.doOutputs due k
    let w := s.reg pgDIO (0x1C0 + 4 * k)
    if bit w 31 && due (fld w 16 3) then
      let pt := fld w 0 13
      { s with dio := { s.dio with want := Tbl.set (fun _ => false) s.dio.want k (pointOn (s.ptType pt) (s.ptValue pt)) } }
    else s

end Sys2Proof.Machine
end

