-- ==== Sys2Proof/Machine/Ecc.lean ====
section
/-! DEFINITION. The error-correcting code (R421 to R424): what a read of a struck word finds and shows, and conserved quantities that become
suspect (R35). -/

namespace Sys2Proof.Machine

set_option cleanup.letToHave false

open Sys2Proof.Config

/-- Domains of ECC_LAST and ECC_UNC_LAST (Table FAB-5). -/
abbrev dmSram : Nat := 0
abbrev dmCode : Nat := 1
abbrev dmMram : Nat := 2
abbrev dmCol : Nat := 4

/-- The layout of ECC_LAST and ECC_UNC_LAST. -/
def eccShow (dom kind master w : Nat) : Word := word (dom + 8 * kind + 256 * (master % 16) + 4096 * w)

/-- A correction of one or two bits (Table FAB-2). -/
def State.corrected (s : State) (dom n master w : Nat) : State :=
  let s := (s.setReg pgFAB 0x100 (eccShow dom n master w)).bump pgFAB (if n = 1 then 0x300 else 0x304)
  if n = 2 then s.setPend pgFAB 1 else s

/-- An uncorrectable error, met by a master (R422, Table FAB-2). -/
def State.uncorrectable (s : State) (dom master w : Nat) : State :=
  let s := s.setReg pgFAB 0x104 (eccShow dom 3 master w)
  (s.bump pgFAB 0x308).event pgFAB 2 [dom, master, w]

/-- The bits of a word that errors have struck since it was last repaired or written, and the repair. -/
def State.struckBits (s : State) (e : EccWord) : Nat := ((s.fabric.struck.filter fun x => x.1 = e).map fun x => x.2).sum
def State.heal (s : State) (e : EccWord) : State :=
  { s with fabric := { s.fabric with struck := s.fabric.struck.filter fun x => x.1 ≠ e } }

/-- A read of a word (Table FAB-2): one or two bits are corrected and repaired; answers whether it is poisoned. -/
def State.checkWord (s : State) (dom master w : Nat) (e : EccWord) : State × Bool :=
  let n := s.struckBits e
  if n = 0 then (s, false)
  else if n ≤ 2 then ((s.heal e).corrected dom n master w, false)
  else (s.uncorrectable dom master w, true)

/-- A read of a word whose domain, master and number the spec does not give: they are a free value (log entry 56). -/
def State.checkStore (s : State) (e : EccWord) : State × Bool :=
  if s.struckBits e = 0 then (s, false)
  else
    let f := s.freeWord.toNat
    s.draw.checkWord (f % 5) (f / 8 % 16) (f / 128 % 1048576) e

/-- A conserved quantity becomes suspect (R35): the record names it (1 energy quanta, 2 owed pulses, 3 credits, 4 event counts, 5 bus
statistics: the model's numbers, log entry 56) and its channel or context. The value that the module next writes is good. -/
def State.suspect (s : State) (e : EccWord) (names : List Nat) : State :=
  let r := s.checkStore e
  if r.2 then (r.1.heal e).record 0x0123 names else r.1

/-- The words of the quantities that `p` selects are read. -/
def State.suspects (s : State) (p : EccWord → Option (List Nat)) : List (EccWord × Nat) → State
  | [] => s
  | x :: t => (match p x.1 with | some names => s.suspect x.1 names | none => s).suspects p t

/-- Energy quanta and owed pulses, which sample processing reads and writes; credits, which the credit check reads; and the counts. -/
def meterWords : EccWord → Option (List Nat)
  | .total c q => some [1, c, q]
  | .owed n => some [2, n]
  | _ => none
def creditWords : EccWord → Option (List Nat)
  | .credits c => some [3, c]
  | _ => none
def countWords : EccWord → Option (List Nat)
  | .lost c => some [4, c]
  | .counter pg n => some [5, pg, n]
  | _ => none

/-- The instruction at the pc of a lane's run is fetched from the code store (R421, R424): a corrected fetch of two bits takes 2 ft more, a
retry in the sense of R202. -/
def State.fetch (s : State) (l : Nat) : State × Bool :=
  let ln := s.lane l
  let w := ((s.slot ln.slot).codeAt + ln.pc) / 32
  if !ln.running then (s, false)
  else
    let s := if s.struckBits (.code w) = 2 then s.noteCause 4 else s
    s.checkWord dmCode (4 + l) w (.code w)

end Sys2Proof.Machine
end

