-- ==== Sys2Proof/Machine/Locks.lean ====
section
/-! DEFINITION. Context faults (R206, R207) and the lock unit (R212 to R219, R226, R227). -/

namespace Sys2Proof.Machine

set_option cleanup.letToHave false

open Sys2Proof.Config

/-! ### Locks -/

def State.lock (s : State) (n : Nat) : LockSt := Tbl.get (fun _ => {}) s.locks n
def State.setLock (s : State) (n : Nat) (k : LockSt) : State := { s with locks := Tbl.set (fun _ => {}) s.locks n k }

abbrev lkFree : Nat := 0
abbrev lkHeld : Nat := 1
abbrev lkBroken : Nat := 2

/-- Results of Table LCK-1. -/
abbrev lrGranted : Nat := 0
abbrev lrLost : Nat := 1
abbrev lrOrder : Nat := 2
abbrev lrTimeout : Nat := 3
abbrev lrBusy : Nat := 4
abbrev lrDenied : Nat := 5
abbrev lrNotHeld : Nat := 6

/-- The context and the longest hold of a lock (Table LCK-2). -/
abbrev State.lockCtx (s : State) (n : Nat) : Nat := s.regFld pgLCK (0x800 + 4 * n) 23 9
abbrev State.holdMax (s : State) (n : Nat) : Nat := s.regFld pgLCK (0x800 + 4 * n) 0 23

/-- The locks that a holder holds. -/
def State.heldBy (s : State) (kind holder : Nat) : List Nat :=
  s.locks.filterMap fun e => if e.2.state = lkHeld ∧ e.2.kind = kind ∧ e.2.holder = holder then some e.1 else none

/-- A request for a lock at or below one that its holder holds breaks the order (R212). -/
def State.breaksOrder (s : State) (kind holder n : Nat) : Bool := (s.heldBy kind holder).any (n ≤ ·)

/-- A request finds the lock held or queued: also in the ft of its release (R215). -/
def State.lockTaken (s : State) (n : Nat) : Bool :=
  let k := s.lock n
  k.state = lkHeld || !k.queue.isEmpty || (k.state = lkFree && k.freed = some s.tick)

/-- An ORDER result (R212). -/
def State.orderResult (s : State) : State := (s.bump pgLCK 0x088).setPend pgLCK 1

/-- A grant: GRANTED, or GRANTED_LOST from BROKEN (R213, R218). -/
def State.grantLock (s : State) (n kind holder lane : Nat) : State × Nat :=
  let k := s.lock n
  let r := if k.state = lkBroken then lrLost else lrGranted
  (((s.setLock n { k with state := lkHeld, kind := kind, holder := holder, lane := lane, since := s.tick, freed := none }).bump
    pgLCK 0x080), r)

/-- A release (R215): FREE, or on its way to the head of the queue. -/
def State.freeLock (s : State) (n : Nat) : State :=
  s.setLock n { s.lock n with state := lkFree, kind := 0, holder := 0, lane := 0, freed := some s.tick }

/-- A lock becomes BROKEN (R218). -/
def State.breakLock (s : State) (n : Nat) : State :=
  let k := s.lock n
  let s := s.setLock n { k with state := lkBroken, kind := 0, holder := 0, lane := 0, freed := some s.tick }
  (s.bump pgLCK 0x090).event pgLCK 0 [n, k.kind, k.holder]

def State.breakLocks (s : State) : List Nat → State
  | [] => s
  | n :: t => (s.breakLock n).breakLocks t

/-- Every lock of a holder becomes BROKEN (R206, R218). -/
def State.breakHolder (s : State) (kind holder : Nat) : State := s.breakLocks (s.heldBy kind holder)

/-- A lane leaves a lock's queue. -/
def State.leaveQueue (s : State) (l : Nat) : State :=
  match (s.lane l).wait with
  | none => s
  | some w =>
    let k := s.lock w.lock
    let s := s.setLock w.lock { k with queue := k.queue.filter (· ≠ l) }
    let s := s.bump (pgSCL l) 0x108 (s.tick - w.since)
    s.setLane l { s.lane l with wait := none }

/-! ### Sections -/

/-- The byte address of section `k` of a slot: of its working copy where it is retained (R229), and its length. -/
def State.section (s : State) (slot k : Nat) : Option (Nat × Nat) :=
  let x := s.slot slot
  match x.prog, x.sects[k]? with
  | some g, some a =>
    match g.sects[k]? with
    | some d => some (if d.retained then a + d.len else a, d.len)
    | none => none
  | _, _ => none

/-- Copy `n` bytes of SRAM. -/
def State.copyBytes (s : State) (src dst n : Nat) : State := s.store dst (readBytes s.sram src n)

/-- Copy every retained section: working from committed (`commit` false), or committed from working. -/
def State.copyRetained (s : State) (commit : Bool) : List (Sect × Nat) → State
  | [] => s
  | (d, a) :: t =>
    let s :=
      if d.retained then (if commit then s.copyBytes (a + d.len) a d.len else s.copyBytes a (a + d.len) d.len) else s
    s.copyRetained commit t

def State.slotSections (s : State) (slot : Nat) : List (Sect × Nat) :=
  let x := s.slot slot
  match x.prog with
  | some g => g.sects.zip x.sects
  | none => []

def State.discardCopies (s : State) (slot : Nat) : State := s.copyRetained false (s.slotSections slot)
def State.commitCopies (s : State) (slot : Nat) : State := s.copyRetained true (s.slotSections slot)

/-! ### Context faults (R206, R207) -/

/-- Codes of Table SCN-3 and ARITH sub-causes of Table ISA-9. -/
abbrev cfPoint : Nat := 1
abbrev cfReg : Nat := 2
abbrev cfLockDenied : Nat := 3
abbrev cfNotHeld : Nat := 4
abbrev cfHold : Nat := 5
abbrev cfEcc : Nat := 6
abbrev cfArith : Nat := 7
abbrev subDiv : Nat := 1
abbrev subBounds : Nat := 2
abbrev subIndex : Nat := 3

/-- The fault action of a slot's container (R207), once for each cycle. -/
def State.faultAction (s : State) (slot : Nat) : State :=
  let x := s.slot slot
  match x.prog with
  | none => s
  | some g =>
    let n := if x.faulted then x.faults else x.faults + 1
    let stop := !g.skip || g.limit ≤ n
    s.setSlot slot { x with faults := n, faulted := true, state := if x.state = 1 && stop then 2 else x.state }

/-- The event source of a binding (Table SCN-8). -/
def State.evbSource (s : State) (e : Nat) : Nat := s.regFld pgSCN (0x400 + 4 * e) 12 7

/-- An item that still runs: its slot is ACTIVE and has not faulted in this cycle (R207), and for an event task its source is pending
at the check (R210). -/
def State.itemRuns (s : State) (w : Work) : Bool :=
  (s.slot w.slot).state = 1 && !(s.slot w.slot).faulted &&
  (match w.evb with | some e => s.delivered (s.evbSource e) | none => true)

/-- The lane's work from its next item that runs. -/
def State.dueWork (s : State) (l : Nat) : List Work := (s.lane l).work.dropWhile fun w => !s.itemRuns w

/-- A lane comes to its next due work: event tasks whose source is not pending now are passed over in this cycle (R210). -/
def State.checkWork (s : State) (l : Nat) : State := s.setLane l { s.lane l with work := s.dueWork l }
def State.checkWorks (s : State) : List Nat → State
  | [] => s
  | l :: t => (s.checkWork l).checkWorks t

/-- A context fault is recorded and counted, and the slot's fault action applies (R206, R207). -/
def State.recordFault (s : State) (l slot pc code sub : Nat) : State :=
  let ctx := s.slotCtx slot
  let s := ((s.setReg (pgSCL l) 0x04C (word (code + 256 * slot))).setReg (pgSCL l) 0x050 (word pc)).bump (pgSCL l) 0x10C
  let s := (s.setReg pgSCN 0x0D0 (word (code + 256 * ctx + 1048576 * l))).setReg pgSCN 0x0D4 (word slot)
  let s := ((s.setReg pgSCN 0x0D8 (word pc)).bump pgSCN 0x164).setPend (pgSCL l) 0
  (s.event pgSCN 2 [code, slot, pc, sub] ctx).faultAction slot

/-- A context fault of the program on lane `l`, by the instruction at code-store address `pc` (R206). -/
def State.contextFaultAt (s : State) (l pc code sub : Nat) : State :=
  let ln := s.lane l
  let slot := ln.slot
  let s := s.leaveQueue l
  let s := { s with points := { s.points with lookups := s.points.lookups.map fun (k : Lookup) =>
    if k.lane = l then ({ k with waits := false } : Lookup) else k } }
  let s := s.setLane l { s.lane l with running := false, evb := none, runs := 0, frames := [], loops := [], cred := false, reg := false,
                                       held := ln.held.filter (fun h => h.slot ≠ slot),
                                       ended := ln.ended.filter (· ≠ slot), endAt := s.tick }
  let s := (s.discardCopies slot).breakHolder 1 slot
  let s := s.recordFault l slot pc code sub
  let s := match ln.evb with
    | some e => s.srcDone (s.evbSource e)
    | none => s
  if ln.running then s.checkWork l else s

/-- A context fault by the instruction at the lane's pc. -/
def State.contextFault (s : State) (l code sub : Nat) : State :=
  s.contextFaultAt l ((s.slot (s.lane l).slot).codeAt + (s.lane l).pc) code sub

/-! ### Expired holds (R217) -/

/-- A hold expires. -/
def State.expireHold (s : State) (n : Nat) : State :=
  let k := s.lock n
  let s := ((s.breakLock n).bump pgLCK 0x094).setPend pgLCK 3
  if k.kind = 1 then s.contextFault k.lane cfHold 0 else s

/-- The locks whose hold has outlasted HOLD_MAX: their expiry is decided before any request or release of the ft. -/
def State.overdue (s : State) : List Nat :=
  s.locks.filterMap fun e => if e.2.state = lkHeld ∧ e.2.since + s.holdMax e.1 + 1 ≤ s.tick then some e.1 else none
def State.expireHolds (s : State) : List Nat → State
  | [] => s
  | n :: t => (if (s.lock n).state = lkHeld then s.expireHold n else s).expireHolds t

/-! ### Requests of paths -/

/-- PATH_RESULT of a path (Table LCK-2). -/
def State.lockResult (s : State) (p : Path) (r n : Nat) : State × Nat :=
  (s.setBank (pathIdx p) (dkey pgLCK 0x050) (word (r + 16 * n)), stOk)

/-- A write of PATH_ACQ (R212 to R214, R227). -/
def pathAcqEffect (p : Path) (data : Word) (s : State) : State × Nat :=
  let s := s.expireHolds s.overdue
  let n := fld data 0 8
  let c := s.ctxOf p
  if lockLimit s.small ≤ n || (c ≠ 0 && s.lockCtx n ≠ c) then s.lockResult p lrDenied n
  else if s.breaksOrder 2 (pathIdx p) n then s.orderResult.lockResult p lrOrder n
  else if s.lockTaken n then s.lockResult p lrBusy n
  else
    let r := s.grantLock n 2 (pathIdx p) 0
    r.1.lockResult p r.2 n

/-- A write of PATH_REL (R215). -/
def pathRelEffect (p : Path) (data : Word) (s : State) : State × Nat :=
  let s := s.expireHolds s.overdue
  let n := fld data 0 8
  let k := s.lock n
  if k.state = lkHeld && k.kind = 2 && k.holder = pathIdx p then (s.freeLock n).lockResult p lrGranted n
  else s.lockResult p lrNotHeld n

/-- PATH_ACQ (R213). -/
def execPathAcq (p : Path) (data : Word) (s : State) : Out := access (fun s => s.port p pgLCK true (pathAcqEffect p data)) s

/-- PATH_REL (R215). -/
def execPathRel (p : Path) (data : Word) (s : State) : Out := access (fun s => s.port p pgLCK true (pathRelEffect p data)) s

/-- A lane's wait for a lock ends with a result in its destination register, and the lane goes on behind its LOCK. -/
def State.endWait (s : State) (l r : Nat) : State :=
  match (s.lane l).wait with
  | none => s
  | some w =>
    let s := s.leaveQueue l
    s.setLane l ((s.lane l).setG (BitVec.ofNat 5 w.d) (BitVec.ofNat 64 r)).next

/-- LOCK_QUEUE_GRANT (R215): the ft after a release or break, the head of the queue is granted the lock. -/
def lockQueueGrant (n : Nat) (s : State) : State :=
  let k := s.lock n
  match k.queue with
  | [] => s
  | l :: _ =>
    if k.state = lkHeld then s
    else
      let s := s.until (match k.freed with | some t => t + 1 | none => 0)
      let r := s.grantLock n 1 (s.lane l).slot l
      (r.1.bump pgLCK 0x084).endWait l r.2

def execLockQueueGrant (n : Nat) (s : State) : Out := event (fun s => lockQueueGrant n s) s

/-- LOCK_TIMEOUT (R215): the deadline of a queued request passes before its grant; a grant of the same ft wins (R148). -/
def lockTimeout (l : Nat) (s : State) : State :=
  match (s.lane l).wait with
  | none => s
  | some w =>
    match w.deadline with
    | none => s
    | some d =>
      let k := s.lock w.lock
      let granted := k.state ≠ lkHeld && k.queue.head? = some l && (match k.freed with | some t => t + 1 ≤ d | none => true)
      if granted then s
      else
        let s := (s.until d).endWait l lrTimeout
        ((s.bump pgLCK 0x08C).setPend pgLCK 2).setPend (pgSCL l) 2

def execLockTimeout (l : Nat) (s : State) : Out := event (fun s => lockTimeout l s) s

/-- LOCK_HOLD_EXPIRY (R217): HOLD_MAX + 1 ft after the grant the hold expires. -/
def lockHoldExpiry (n : Nat) (s : State) : State :=
  if (s.lock n).state = lkHeld then (s.until ((s.lock n).since + s.holdMax n + 1)).expireHold n else s

def execLockHoldExpiry (n : Nat) (s : State) : Out := event (fun s => lockHoldExpiry n s) s

/-- A program names a lock (R214). -/
def Prog.namesLock (g : Prog) (n : Nat) : Bool := g.code.any fun w => opOf w = 0x70 && w.toNat % 256 = n

/-- A write of LOCK_CFGn with its settled value (R196, R214, R217, R264). -/
def lockCfgEffect (n : Nat) (w : Word) (s : State) : State × Nat :=
  if lockLimit s.small ≤ n then (s, stOk)
  else if fld w 23 9 ≠ s.lockCtx n && s.progs.any (fun e => e.2.namesLock n) then (s, stInUse)
  else if s.progs.any (fun e => e.2.spans.any fun x => x.1 = n && fld w 0 23 < x.2) then (s, stBudget)
  else (s.setReg pgLCK (0x800 + 4 * n) w, stOk)

/-- LOCK_CFGn's row (Table LCK-2). -/
def lockCfgRow : Row := RegMap.rwN 0x800 256 4 0x4000 0xFFFFFFFF [⟨0, 23, 1, 8388607⟩]

/-- LOCK_CFG_WRITE (R214). -/
def execLockCfgWrite (p : Path) (n : Nat) (data : Word) (s : State) : Out :=
  access (fun s => s.port p pgLCK false fun s =>
    let r := lockCfgEffect n (settled pgLCK 0x800 lockCfgRow .plain 0 data) s
    (r.1.noteClamp pgLCK (0x800 + 4 * n) (wasClamped pgLCK 0x800 lockCfgRow .plain 0 data && decide (r.2 = stOk ∧ n < lockLimit s.small)), r.2)) s

/-- LCK.HELD_COUNT, LOCK_STATEn, and SCL.LOCKS and LOCK_WAIT of a lane (Tables LCK-2, LCK-3, SCL-1). -/
def State.heldCount (s : State) : Word := word (s.locks.filter fun e => e.2.state = lkHeld).length
def State.lockStateWord (s : State) (n : Nat) : Word :=
  let k := s.lock n
  word (k.state + 4 * k.kind + 16 * k.holder + 16384 * k.lane + 1048576 * k.queue.length)
def State.laneLocks (s : State) (l : Nat) : Word :=
  let ln := s.lane l
  let h := if ln.running then s.heldBy 1 ln.slot else []
  word (h.foldl max 0 + 256 * b2n (!h.isEmpty) + 65536 * h.length)
def State.laneWait (s : State) (l : Nat) : Word :=
  match (s.lane l).wait with
  | none => 0
  | some w =>
    let pos := match (s.lock w.lock).queue.idxOf? l with | some i => i + 1 | none => 0
    let est := min (pos * (s.holdMax w.lock + 2) / 64) 65535
    word (w.lock + 256 * pos + 4096 + 65536 * est)

end Sys2Proof.Machine
end

