-- ==== Sys2Proof/Machine/Lanes.lean ====
section
/-! DEFINITION. How a scan lane executes one instruction: when it can, where it goes next (R236, R239 to R241), what a
data access meets at the bank (R243, R416, R420 to R423), and the integer and flow instructions. -/

namespace Sys2Proof.Machine

set_option cleanup.letToHave false

open Sys2Proof.Config

/-! ### Going on -/

/-- The lane exists, is not halted or has been stepped, and waits for no lock, no lookup and no register access (R189, R225). -/
def State.laneReady (s : State) (l : Nat) : Bool :=
  decide (l < laneLimit s.small) && (!s.regBit (pgSCL l) 0x044 0 || (s.lane l).step) && (s.lane l).wait.isNone &&
  !(s.lane l).cred && !(s.lane l).reg

/-- An instruction of a lane: nothing while the lane cannot execute, else its effect and one ft of execution (R236). It uses
up a STEP pulse (R225). A poisoned code word is the fault ECC (R259, R423). -/
def State.insn (s : State) (l : Nat) (f : State → State) : State :=
  if s.laneReady l then
    let r := (s.setLane l { s.lane l with step := false }).fetch l
    (if r.2 then r.1.contextFault l cfEcc 0 else f r.1).bump (pgSCL l) 0x100
  else s

/-- An instruction that acts on the lane alone. -/
def State.laneInsn (s : State) (l : Nat) (f : Lane → Lane) : State := s.insn l fun s => s.setLane l (f (s.lane l))

/-- An instruction that writes a value of a and b to G[D]. -/
def State.alu (s : State) (l : Nat) (f : Fields) (op : Dword → Dword → Dword) : State :=
  s.laneInsn l fun ln => (ln.setG f.d (op (ln.getG f.a) (ln.opB f))).next

/-- A context fault of an instruction (R206, R259): it completes none of its own actions. -/
def State.insnFault (s : State) (l code sub : Nat) : State := s.contextFault l code sub

/-- An instruction of a and b that may fault. -/
def State.aluFault (s : State) (l : Nat) (f : Fields) (op : Dword → Dword → Option Dword) (sub : Nat) : State :=
  s.insn l fun s =>
    let ln := s.lane l
    match op (ln.getG f.a) (ln.opB f) with
    | some v => s.setLane l (ln.setG f.d v).next
    | none => s.insnFault l cfArith sub

/-- Truth values (Table ISA-1). -/
abbrev truth (b : Bool) : Dword := if b then 1 else 0

/-- The signed range of a register. -/
def satInt (x : Int) : Dword := BitVec.ofInt 64 (clampInt (-9223372036854775808) 9223372036854775807 x)

/-! ### Integer instructions (Table ISA-3) -/

def insnNop (l : Nat) (_f : Fields) (s : State) : State := s.laneInsn l Lane.next
def insnAdd (l : Nat) (f : Fields) (s : State) : State := s.alu l f (· + ·)
def insnSub (l : Nat) (f : Fields) (s : State) : State := s.alu l f (· - ·)
def insnMul (l : Nat) (f : Fields) (s : State) : State := s.alu l f (· * ·)
def insnMulhs (l : Nat) (f : Fields) (s : State) : State :=
  s.alu l f fun a b => BitVec.ofInt 64 ((a.toInt * b.toInt) / 2 ^ 64)
def insnDivs (l : Nat) (f : Fields) (s : State) : State :=
  s.aluFault l f (fun a b => if b = 0 then none else some (BitVec.ofInt 64 (a.toInt.tdiv b.toInt))) subDiv
def insnDivu (l : Nat) (f : Fields) (s : State) : State :=
  s.aluFault l f (fun a b => if b = 0 then none else some (a / b)) subDiv
def insnRems (l : Nat) (f : Fields) (s : State) : State :=
  s.aluFault l f (fun a b => if b = 0 then none else some (BitVec.ofInt 64 (a.toInt.tmod b.toInt))) subDiv
def insnRemu (l : Nat) (f : Fields) (s : State) : State :=
  s.aluFault l f (fun a b => if b = 0 then none else some (a % b)) subDiv
def insnAnd (l : Nat) (f : Fields) (s : State) : State := s.alu l f (· &&& ·)
def insnOr (l : Nat) (f : Fields) (s : State) : State := s.alu l f (· ||| ·)
def insnXor (l : Nat) (f : Fields) (s : State) : State := s.alu l f (· ^^^ ·)
def insnShl (l : Nat) (f : Fields) (s : State) : State := s.alu l f fun a b => a <<< (b.toNat % 64)
def insnShr (l : Nat) (f : Fields) (s : State) : State := s.alu l f fun a b => a >>> (b.toNat % 64)
def insnSar (l : Nat) (f : Fields) (s : State) : State := s.alu l f fun a b => a.sshiftRight (b.toNat % 64)
def insnMins (l : Nat) (f : Fields) (s : State) : State := s.alu l f fun a b => if a.toInt ≤ b.toInt then a else b
def insnMaxs (l : Nat) (f : Fields) (s : State) : State := s.alu l f fun a b => if b.toInt ≤ a.toInt then a else b
def insnAddsat (l : Nat) (f : Fields) (s : State) : State := s.alu l f fun a b => satInt (a.toInt + b.toInt)
def insnSubsat (l : Nat) (f : Fields) (s : State) : State := s.alu l f fun a b => satInt (a.toInt - b.toInt)
def insnLdi (l : Nat) (f : Fields) (s : State) : State := s.alu l f fun _ _ => f.imm.signExtend 64
def insnLdhi (l : Nat) (f : Fields) (s : State) : State :=
  s.alu l f fun a _ => (a.setWidth 32).setWidth 64 ||| (f.imm.setWidth 64 <<< 32)
def insnCeq (l : Nat) (f : Fields) (s : State) : State := s.alu l f fun a b => truth (a = b)
def insnCne (l : Nat) (f : Fields) (s : State) : State := s.alu l f fun a b => truth (a ≠ b)
def insnClts (l : Nat) (f : Fields) (s : State) : State := s.alu l f fun a b => truth (a.slt b)
def insnCles (l : Nat) (f : Fields) (s : State) : State := s.alu l f fun a b => truth (a.sle b)
def insnCltu (l : Nat) (f : Fields) (s : State) : State := s.alu l f fun a b => truth (a.ult b)
def insnCleu (l : Nat) (f : Fields) (s : State) : State := s.alu l f fun a b => truth (a.ule b)

/-! ### Flow (Table ISA-5) -/

/-- A branch target: pc + 8 · IMM, IMM signed (R239). -/
def Lane.target (l : Lane) (f : Fields) : Nat := ((l.pc : Int) + 8 * f.imm.toInt).toNat

def insnBr (l : Nat) (f : Fields) (s : State) : State := s.laneInsn l fun ln => ln.land (ln.target f)
def insnBz (l : Nat) (f : Fields) (s : State) : State :=
  s.laneInsn l fun ln => if ln.getG f.a = 0 then ln.land (ln.target f) else ln.next
def insnBnz (l : Nat) (f : Fields) (s : State) : State :=
  s.laneInsn l fun ln => if ln.getG f.a = 0 then ln.next else ln.land (ln.target f)

/-- LOOP (R240): the count, the body, and iteration 0. -/
def insnLoop (l : Nat) (f : Fields) (s : State) : State :=
  s.laneInsn l fun ln =>
    let limit := f.imm.toNat % 8192
    let n := if f.a = 0 then limit else min (ln.getG f.a).toNat limit
    let first := ln.pc + 8
    let stop := first + 8 * (f.imm.toNat / 65536)
    if n = 0 then ln.land stop
    else { ln.setG f.d 0 with loops := ⟨first, stop, 0, n, f.d.toNat⟩ :: ln.loops, pc := first }

/-- LEXIT: out of the innermost loop. -/
def insnLexit (l : Nat) (_f : Fields) (s : State) : State :=
  s.laneInsn l fun ln =>
    match ln.loops with
    | [] => ln.next
    | fr :: rest => { ln with loops := rest }.land fr.stop

/-- CALL and RET (R241): the callee starts with no loops, the caller's lie in its frame. -/
def insnCall (l : Nat) (f : Fields) (s : State) : State :=
  s.laneInsn l fun ln =>
    { ln with frames := ⟨ln.pc + 8, ln.loops⟩ :: ln.frames, loops := [], pc := 8 * (f.imm.toNat % 2 ^ 20) }
def insnRet (l : Nat) (_f : Fields) (s : State) : State :=
  s.laneInsn l fun ln =>
    match ln.frames with
    | [] => ln.next
    | fr :: rest => { ln with frames := rest, loops := fr.loops }.land fr.ret

/-- The run of a lane ends (R210, R218, R241): locks still held break, and the lane comes to its next due work. An event task completes
its source two ft later, and with the source pending again and runs left it is due again at once. -/
def State.endOfRun (s : State) (l : Nat) : State :=
  let ln := s.lane l
  let s := s.breakHolder 1 ln.slot
  let ended := if ln.ended.contains ln.slot then ln.ended else ln.ended ++ [ln.slot]
  let s := s.setLane l { ln with running := false, evb := none, runs := 0, frames := [], loops := [], ended := ended,
                                 endAt := s.tick + (if ln.evb.isSome then 2 else 0) }
  match ln.evb with
  | none => s.checkWork l
  | some e =>
    let s := (s.until (s.tick + 2)).srcDone (s.evbSource e)
    if s.delivered (s.evbSource e) then
      if ln.runs < s.regFld pgSCN (0x400 + 4 * e) 24 4 then
        let cur := s.lane l
        s.setLane l { cur with runs := ln.runs, work := ⟨ln.slot, some e⟩ :: cur.work }
      else ((s.bump pgSCN 0x160).setPend pgSCN 3).checkWork l
    else s.checkWork l

/-- An instruction of lane `l` that reads its held stores (R259): ECC where an uncorrectable error has struck them. -/
def State.withHeld (s : State) (l : Nat) (f : State → State) : State :=
  let r := s.checkStore (.held l)
  if r.2 then (r.1.heal (.held l)).insnFault l cfEcc 0 else f r.1

/-- END (R241): the held stores of the run go towards OUTPUT. -/
def insnEnd (l : Nat) (_f : Fields) (s : State) : State := s.insn l fun s => s.withHeld l fun s => s.endOfRun l

/-! ### The end of EXECUTE (R197) -/

/-- The ft after whose next lane `l` goes on. -/
def State.laneFrom (s : State) (l : Nat) (y : Cycle) : Nat := max (y.at_ + y.tIn) (s.lane l).endAt

/-- Every lane has finished its due work. -/
def State.lanesDone (s : State) : Bool :=
  (List.range (laneLimit s.small)).all fun l =>
    !(s.lane l).running && (s.dueWork l).isEmpty && (s.lane l).posts.isEmpty

/-- Ft x, in which the last lane finishes its last due program. -/
def State.endOfExecute (s : State) (y : Cycle) : Nat :=
  ((List.range (laneLimit s.small)).map fun l => s.laneFrom l y).foldl max (y.at_ + y.tIn)

/-! ### Commands -/

def execNop (l : Nat) (f : Fields) (s : State) : Out := access (fun s => insnNop l f s) s
def execAdd (l : Nat) (f : Fields) (s : State) : Out := access (fun s => insnAdd l f s) s
def execSub (l : Nat) (f : Fields) (s : State) : Out := access (fun s => insnSub l f s) s
def execMul (l : Nat) (f : Fields) (s : State) : Out := access (fun s => insnMul l f s) s
def execMulhs (l : Nat) (f : Fields) (s : State) : Out := access (fun s => insnMulhs l f s) s
def execDivs (l : Nat) (f : Fields) (s : State) : Out := access (fun s => insnDivs l f s) s
def execDivu (l : Nat) (f : Fields) (s : State) : Out := access (fun s => insnDivu l f s) s
def execRems (l : Nat) (f : Fields) (s : State) : Out := access (fun s => insnRems l f s) s
def execRemu (l : Nat) (f : Fields) (s : State) : Out := access (fun s => insnRemu l f s) s
def execAnd (l : Nat) (f : Fields) (s : State) : Out := access (fun s => insnAnd l f s) s
def execOr (l : Nat) (f : Fields) (s : State) : Out := access (fun s => insnOr l f s) s
def execXor (l : Nat) (f : Fields) (s : State) : Out := access (fun s => insnXor l f s) s
def execShl (l : Nat) (f : Fields) (s : State) : Out := access (fun s => insnShl l f s) s
def execShr (l : Nat) (f : Fields) (s : State) : Out := access (fun s => insnShr l f s) s
def execSar (l : Nat) (f : Fields) (s : State) : Out := access (fun s => insnSar l f s) s
def execMins (l : Nat) (f : Fields) (s : State) : Out := access (fun s => insnMins l f s) s
def execMaxs (l : Nat) (f : Fields) (s : State) : Out := access (fun s => insnMaxs l f s) s
def execAddsat (l : Nat) (f : Fields) (s : State) : Out := access (fun s => insnAddsat l f s) s
def execSubsat (l : Nat) (f : Fields) (s : State) : Out := access (fun s => insnSubsat l f s) s
def execLdi (l : Nat) (f : Fields) (s : State) : Out := access (fun s => insnLdi l f s) s
def execLdhi (l : Nat) (f : Fields) (s : State) : Out := access (fun s => insnLdhi l f s) s
def execCeq (l : Nat) (f : Fields) (s : State) : Out := access (fun s => insnCeq l f s) s
def execCne (l : Nat) (f : Fields) (s : State) : Out := access (fun s => insnCne l f s) s
def execClts (l : Nat) (f : Fields) (s : State) : Out := access (fun s => insnClts l f s) s
def execCles (l : Nat) (f : Fields) (s : State) : Out := access (fun s => insnCles l f s) s
def execCltu (l : Nat) (f : Fields) (s : State) : Out := access (fun s => insnCltu l f s) s
def execCleu (l : Nat) (f : Fields) (s : State) : Out := access (fun s => insnCleu l f s) s
def execBr (l : Nat) (f : Fields) (s : State) : Out := access (fun s => insnBr l f s) s
def execBz (l : Nat) (f : Fields) (s : State) : Out := access (fun s => insnBz l f s) s
def execBnz (l : Nat) (f : Fields) (s : State) : Out := access (fun s => insnBnz l f s) s
def execLoop (l : Nat) (f : Fields) (s : State) : Out := access (fun s => insnLoop l f s) s
def execLexit (l : Nat) (f : Fields) (s : State) : Out := access (fun s => insnLexit l f s) s
def execCall (l : Nat) (f : Fields) (s : State) : Out := access (fun s => insnCall l f s) s
def execRet (l : Nat) (f : Fields) (s : State) : Out := access (fun s => insnRet l f s) s
def execEndRun (l : Nat) (f : Fields) (s : State) : Out := access (fun s => insnEnd l f s) s

/-! ### Accesses to the data SRAM -/

/-- The bank of a byte address (R416), and its state in BANK_STAT. -/
def bankOf (a : Nat) : Nat := 4 * (a / 2097152 % 8) + a / 32 % 4
def State.bankStat (s : State) (b : Nat) : Nat := s.regFld pgFAB (if b < 16 then 0x0E8 else 0x0EC) (2 * (b % 16)) 2

/-- An access to the word at byte address `a`: it meets a bank that is not ON (R420), or, where it reads the word, a
poisoned one (R423), or one that it corrects; two bits are a retry in the sense of R202. Answers whether the access is performed. -/
def State.reach32 (s : State) (master a : Nat) (reads : Bool) : State × Bool :=
  if s.bankStat (bankOf a) ≠ 0 then (((s.bump pgFAB 0x310).setPend pgFAB 5).uncorrectable dmSram master (a / 32), false)
  else if !reads then (s, true)
  else if Tbl.get (fun _ => false) s.fabric.poison (a / 32) then (s.uncorrectable dmSram master (a / 32), false)
  else
    let w : EccWord := .sram (a / 32)
    let s := if s.struckBits w = 2 then s.noteCause 4 else s
    ((s.checkWord dmSram master (a / 32) w).1, true)

/-- `k` fabric requests of lane `l`: each takes at most F ft (R243, R261), so STALL_FT counts a free number of ft below k · F
(log entry 15). -/
def State.stalled (s : State) (l k : Nat) : State :=
  (s.bump (pgSCL l) 0x104 (s.freeWord.toNat % max 1 (k * (10 * s.regFld pgFAB (0x060 + 4 * (4 + l)) 0 5 + 12)))).draw

/-- Unpoison a word: all its 256 bits are written. -/
def State.unpoison (s : State) (w : Nat) : State :=
  ({ s with fabric := { s.fabric with poison := Tbl.set (fun _ => false) s.fabric.poison w false } }).heal (.sram w)

/-- The section of a data instruction and the offset after R242; `n` is the bytes of the access. -/
def State.dataAt (s : State) (l : Nat) (f : Fields) (n : Nat) : Option Nat :=
  let ln := s.lane l
  let addr := (ln.getG f.a + f.imm.signExtend 64).toNat
  let off := addr / n * n
  match s.section ln.slot (f.x.toNat % 16) with
  | some (base, len) => if off + n ≤ len then some (base + off) else none
  | none => none

/-- A data instruction: BOUNDS on an invalid offset, ECC where the access is not performed, else its effect at the byte
address (R242, R243, R259). -/
def State.dataInsn (s : State) (l : Nat) (f : Fields) (n : Nat) (reads : Bool) (g : State → Nat → State) : State :=
  s.insn l fun s =>
    match s.dataAt l f n with
    | none => s.insnFault l cfArith subBounds
    | some a =>
      let r := (s.stalled l 1).reach32 (4 + l) a reads
      if r.2 then
        let s := g r.1 a
        s.setLane l (s.lane l).next
      else r.1.insnFault l cfEcc 0

/-- Four registers from G[D] and to G[B] on. -/
def Lane.setQ (l : Lane) (d : BitVec 5) (v : Nat → Dword) : Lane :=
  (((l.setG d (v 0)).setG (d + 1) (v 1)).setG (d + 2) (v 2)).setG (d + 3) (v 3)

def insnLd (l : Nat) (f : Fields) (s : State) : State :=
  s.dataInsn l f 8 true fun s a => s.setLane l ((s.lane l).setG f.d (BitVec.ofNat 64 (s.load a 8)))
def insnSt (l : Nat) (f : Fields) (s : State) : State :=
  s.dataInsn l f 8 true fun s a => s.store a (leBytes 8 ((s.lane l).getG f.b).toNat)
def insnSts (l : Nat) (f : Fields) (s : State) : State :=
  s.dataInsn l f 8 true fun s a =>
    s.store a (leBytes 8 (BitVec.ofNat 64 (s.load a 8) ||| (s.lane l).getG f.b).toNat)
def insnStc (l : Nat) (f : Fields) (s : State) : State :=
  s.dataInsn l f 8 true fun s a =>
    s.store a (leBytes 8 (BitVec.ofNat 64 (s.load a 8) &&& ~~~ (s.lane l).getG f.b).toNat)
def insnLdq (l : Nat) (f : Fields) (s : State) : State :=
  s.dataInsn l f 32 true fun s a => s.setLane l ((s.lane l).setQ f.d fun i => BitVec.ofNat 64 (s.load (a + 8 * i) 8))
def insnStq (l : Nat) (f : Fields) (s : State) : State :=
  s.dataInsn l f 32 false fun s a =>
    let g := fun i : Nat => ((s.lane l).getG (f.b + BitVec.ofNat 5 i)).toNat
    (s.store a (leBytes 8 (g 0) ++ leBytes 8 (g 1) ++ leBytes 8 (g 2) ++ leBytes 8 (g 3))).unpoison (a / 32)

def execLd (l : Nat) (f : Fields) (s : State) : Out := access (fun s => insnLd l f s) s
def execSt (l : Nat) (f : Fields) (s : State) : Out := access (fun s => insnSt l f s) s
def execSts (l : Nat) (f : Fields) (s : State) : Out := access (fun s => insnSts l f s) s
def execStc (l : Nat) (f : Fields) (s : State) : Out := access (fun s => insnStc l f s) s
def execLdq (l : Nat) (f : Fields) (s : State) : Out := access (fun s => insnLdq l f s) s
def execStq (l : Nat) (f : Fields) (s : State) : Out := access (fun s => insnStq l f s) s

end Sys2Proof.Machine
end

