-- ==== Sys2Proof/Machine/FloatInsn.lean ====
section
/-! DEFINITION. The floating-point instructions (Table ISA-4, R233, R238). -/

namespace Sys2Proof.Machine

set_option cleanup.letToHave false

/-- A binary64 operation on register contents; every NaN result is the canonical one (R233). -/
def f64op (g : Nat → Nat → Nat) (a b : Dword) : Dword := BitVec.ofNat 64 (g a.toNat b.toNat)

/-- FMIN and FMAX (R238): −0 below +0, a NaN gives way to the other operand. -/
def fminOf (a b : Nat) : Nat :=
  if fnan f64 a && fnan f64 b then nanBits f64
  else if fnan f64 a then b
  else if fnan f64 b then a
  else if flt f64 a b then a
  else if flt f64 b a then b
  else if a / 2 ^ 63 % 2 = 1 then a else b
def fmaxOf (a b : Nat) : Nat :=
  if fnan f64 a && fnan f64 b then nanBits f64
  else if fnan f64 a then b
  else if fnan f64 b then a
  else if flt f64 a b then b
  else if flt f64 b a then a
  else if a / 2 ^ 63 % 2 = 1 then b else a

/-- The sign bit cleared or inverted; a NaN result is the canonical NaN (R233). -/
def fabsOf (a : Nat) : Nat := if fnan f64 a then nanBits f64 else a % 2 ^ 63
def fnegOf (a : Nat) : Nat := if fnan f64 a then nanBits f64 else (a + 2 ^ 63) % 2 ^ 64

def insnFadd (l : Nat) (f : Fields) (s : State) : State := s.alu l f (f64op (fadd f64))
def insnFsub (l : Nat) (f : Fields) (s : State) : State := s.alu l f (f64op (fsub f64))
def insnFmul (l : Nat) (f : Fields) (s : State) : State := s.alu l f (f64op (fmul f64))
def insnFdiv (l : Nat) (f : Fields) (s : State) : State := s.alu l f (f64op (fdiv f64))
def insnFmin (l : Nat) (f : Fields) (s : State) : State := s.alu l f (f64op fminOf)
def insnFmax (l : Nat) (f : Fields) (s : State) : State := s.alu l f (f64op fmaxOf)
def insnFsqrt (l : Nat) (f : Fields) (s : State) : State := s.alu l f (f64op fun a _ => fsqrt f64 a)
def insnFabs (l : Nat) (f : Fields) (s : State) : State := s.alu l f (f64op fun a _ => fabsOf a)
def insnFneg (l : Nat) (f : Fields) (s : State) : State := s.alu l f (f64op fun a _ => fnegOf a)
def insnFceq (l : Nat) (f : Fields) (s : State) : State := s.alu l f fun a b => truth (feq f64 a.toNat b.toNat)
def insnFclt (l : Nat) (f : Fields) (s : State) : State := s.alu l f fun a b => truth (flt f64 a.toNat b.toNat)
def insnFcle (l : Nat) (f : Fields) (s : State) : State := s.alu l f fun a b => truth (fle f64 a.toNat b.toNat)
def insnCvtif (l : Nat) (f : Fields) (s : State) : State := s.alu l f fun a _ => BitVec.ofNat 64 (fofInt f64 a.toInt)
def insnCvtfi (l : Nat) (f : Fields) (s : State) : State :=
  s.alu l f fun a _ => BitVec.ofInt 64 (ftoInt f64 (-9223372036854775808) 9223372036854775807 a.toNat)
def insnCvtsd (l : Nat) (f : Fields) (s : State) : State :=
  s.alu l f fun a _ => BitVec.ofNat 64 (fconv f32 f64 (a.toNat % 2 ^ 32))
def insnCvtds (l : Nat) (f : Fields) (s : State) : State := s.alu l f fun a _ => BitVec.ofNat 64 (fconv f64 f32 a.toNat)

def execFadd (l : Nat) (f : Fields) (s : State) : Out := access (fun s => insnFadd l f s) s
def execFsub (l : Nat) (f : Fields) (s : State) : Out := access (fun s => insnFsub l f s) s
def execFmul (l : Nat) (f : Fields) (s : State) : Out := access (fun s => insnFmul l f s) s
def execFdiv (l : Nat) (f : Fields) (s : State) : Out := access (fun s => insnFdiv l f s) s
def execFmin (l : Nat) (f : Fields) (s : State) : Out := access (fun s => insnFmin l f s) s
def execFmax (l : Nat) (f : Fields) (s : State) : Out := access (fun s => insnFmax l f s) s
def execFsqrt (l : Nat) (f : Fields) (s : State) : Out := access (fun s => insnFsqrt l f s) s
def execFabs (l : Nat) (f : Fields) (s : State) : Out := access (fun s => insnFabs l f s) s
def execFneg (l : Nat) (f : Fields) (s : State) : Out := access (fun s => insnFneg l f s) s
def execFceq (l : Nat) (f : Fields) (s : State) : Out := access (fun s => insnFceq l f s) s
def execFclt (l : Nat) (f : Fields) (s : State) : Out := access (fun s => insnFclt l f s) s
def execFcle (l : Nat) (f : Fields) (s : State) : Out := access (fun s => insnFcle l f s) s
def execCvtif (l : Nat) (f : Fields) (s : State) : Out := access (fun s => insnCvtif l f s) s
def execCvtfi (l : Nat) (f : Fields) (s : State) : Out := access (fun s => insnCvtfi l f s) s
def execCvtsd (l : Nat) (f : Fields) (s : State) : Out := access (fun s => insnCvtsd l f s) s
def execCvtds (l : Nat) (f : Fields) (s : State) : Out := access (fun s => insnCvtds l f s) s

end Sys2Proof.Machine
end

