-- ==== Sys2Proof/Machine/PointInsn.lean ====
section
/-! DEFINITION. The scan instructions on points, timers, edges, locks, events, credentials and time (R244 to R250, R256 to
R258). -/

namespace Sys2Proof.Machine

set_option cleanup.letToHave false

open Sys2Proof.Config

/-! ### Points (R244 to R246) -/

/-- The context of the program of a lane. -/
abbrev State.laneCtx (s : State) (l : Nat) : Nat := s.slotCtx (s.lane l).slot

/-- The point mapper refuses a program's access (R161, R246). -/
def State.pointFault (s : State) (l j : Nat) : State :=
  let c := s.laneCtx l
  ((s.accessRefused c j).addKey (ikey pgPTM (ctxAddr c + 8)) 1).contextFault l cfPoint 0

/-- The value that a program holds for a point (R198, R245). -/
def Lane.heldFor (l : Lane) (pt : Nat) : Option Dword :=
  (l.held.find? fun h => h.slot = l.slot && h.pt = pt).map (·.value)

/-- A point load at relative index `j`: an entry or a value that changes in this ft is read as it was (R23, R184). -/
def State.pointLoad (s : State) (l : Nat) (f : Fields) (j : Nat) : State :=
  match s.past.resolve (s.laneCtx l) j with
  | none => s.pointFault l j
  | some (pt, _) =>
    let ln := s.lane l
    let v := (ln.heldFor pt).getD (s.past.ptValue pt)
    s.setLane l (ln.setG f.d v).next

/-- A point store at relative index `j`: held until OUTPUT. -/
def State.pointStore (s : State) (l : Nat) (f : Fields) (j : Nat) : State :=
  match s.past.resolveOwn (s.laneCtx l) j with
  | none => s.pointFault l j
  | some pt =>
    let ln := s.lane l
    let rest := ln.held.filter fun h => !(h.slot = ln.slot && h.pt = pt)
    s.setLane l ({ ln with held := rest ++ [⟨ln.slot, pt, ln.getG f.b⟩] } : Lane).next

abbrev idxOf (f : Fields) : Nat := f.imm.toNat % 8192

/-- PLDX and PSTX: INDEX when a is not below N (R244). -/
def State.indexed (s : State) (l : Nat) (f : Fields) (g : State → Nat → State) : State :=
  let a := ((s.lane l).getG f.a).toNat
  if a < f.imm.toNat / 65536 % 16384 then g s (idxOf f + a) else s.contextFault l cfArith subIndex

def insnPld (l : Nat) (f : Fields) (s : State) : State := s.insn l fun s => s.pointLoad l f (idxOf f)
def insnPldx (l : Nat) (f : Fields) (s : State) : State := s.insn l fun s => s.indexed l f fun s j => s.pointLoad l f j
def insnPst (l : Nat) (f : Fields) (s : State) : State := s.insn l fun s => s.withHeld l fun s => s.pointStore l f (idxOf f)
def insnPstx (l : Nat) (f : Fields) (s : State) : State :=
  s.insn l fun s => s.withHeld l fun s => s.indexed l f fun s j => s.pointStore l f j

/-! ### Timers and edges (R247, R248) -/

def State.timer (s : State) (slot n : Nat) : Timer := Tbl.get (fun _ => {}) (s.slot slot).timers n
def State.setTimer (s : State) (slot n : Nat) (t : Timer) : State :=
  let x := s.slot slot
  (s.setSlot slot { x with timers := Tbl.set (fun _ => {}) x.timers n t }).mark (some (0x02000000 + slot * 0x1000 + n / 2))

/-- Ticks since a timer started, modulo 2^64. -/
def since64 (now start : Nat) : Nat := (now % 2 ^ 64 + 2 ^ 64 - start % 2 ^ 64) % 2 ^ 64

/-- TON, TOF and TP of R247: the timer after the sub-operation. -/
def tonOf (now pt : Nat) (in_ : Bool) (t : Timer) : Timer :=
  if !in_ then { t with run := false, q := false, last := in_ }
  else
    let t := if t.run then t else { t with run := true, start := now }
    { t with q := decide (pt ≤ since64 now t.start), last := in_ }
def tofOf (now pt : Nat) (in_ : Bool) (t : Timer) : Timer :=
  if in_ then { t with run := false, q := true, last := in_ }
  else if !t.run && t.q then { t with run := true, start := now, q := decide (0 < pt), last := in_ }
  else if t.run then
    let q := decide (since64 now t.start < pt)
    { t with run := q, q := q, last := in_ }
  else { t with q := false, last := in_ }
def tpOf (now pt : Nat) (in_ : Bool) (t : Timer) : Timer :=
  let t := if !t.run && in_ && !t.last then { t with run := true, start := now } else t
  let t := if t.run && decide (pt ≤ since64 now t.start) then { t with run := false } else t
  { t with q := t.run, last := in_ }

/-- A timer sub-operation that answers q. -/
def State.timerInsn (s : State) (l : Nat) (f : Fields) (op : Nat → Nat → Bool → Timer → Timer) : State :=
  s.insn l fun s =>
    let ln := s.lane l
    let n := f.imm.toNat % 64
    let t := op s.scan.capture (ln.getG f.b).toNat (decide (ln.getG f.a ≠ 0)) (s.timer ln.slot n)
    (s.setTimer ln.slot n t).setLane l (ln.setG f.d (truth t.q)).next

def insnTon (l : Nat) (f : Fields) (s : State) : State := s.timerInsn l f tonOf
def insnTof (l : Nat) (f : Fields) (s : State) : State := s.timerInsn l f tofOf
def insnTp (l : Nat) (f : Fields) (s : State) : State := s.timerInsn l f tpOf
def insnTrd (l : Nat) (f : Fields) (s : State) : State :=
  s.insn l fun s =>
    let ln := s.lane l
    let t := s.timer ln.slot (f.imm.toNat % 64)
    s.setLane l (ln.setG f.d (BitVec.ofNat 64 (if t.run then since64 s.scan.capture t.start else 0))).next
def insnTrst (l : Nat) (f : Fields) (s : State) : State :=
  s.insn l fun s =>
    let ln := s.lane l
    let n := f.imm.toNat % 64
    (s.setTimer ln.slot n { s.timer ln.slot n with run := false, q := false, last := false }).setLane l (ln.setG f.d 0).next

/-- An edge sub-operation: the result, then the bit takes the value of in. -/
def State.edgeInsn (s : State) (l : Nat) (f : Fields) (op : Bool → Bool → Bool) : State :=
  s.insn l fun s =>
    let ln := s.lane l
    let n := f.imm.toNat % 256
    let x := s.slot ln.slot
    let in_ := decide (ln.getG f.a ≠ 0)
    let r := op in_ (Tbl.get (fun _ => false) x.edges n)
    ((s.setSlot ln.slot { x with edges := Tbl.set (fun _ => false) x.edges n in_ }).mark
      (some (0x02000000 + ln.slot * 0x1000 + 64 + n / 256))).setLane l (ln.setG f.d (truth r)).next

def insnRise (l : Nat) (f : Fields) (s : State) : State := s.edgeInsn l f fun i p => i && !p
def insnFall (l : Nat) (f : Fields) (s : State) : State := s.edgeInsn l f fun i p => !i && p
def insnBoth (l : Nat) (f : Fields) (s : State) : State := s.edgeInsn l f fun i p => i != p

/-! ### Locks (R250) -/

/-- A lane joins a queue behind the lanes already queued; of lanes that join in one ft the lower number first (R213). -/
def joinQueue (s : State) (l : Nat) : List Nat → List Nat
  | [] => [l]
  | a :: t =>
    let same := match (s.lane a).wait with | some w => decide (w.since = s.tick) | none => false
    if same && l < a then l :: a :: t else a :: joinQueue s l t

/-- A LOCK instruction: holds that have expired are decided before it (R217). The expiry of one of the lane's own locks abandons its
program first. -/
def State.lockInsn (s : State) (l : Nat) (f : State → State) : State :=
  let own := s.overdue.any fun n => (s.lock n).kind = 1 && (s.lock n).lane = l
  let t := s.expireHolds s.overdue
  if own then t else t.insn l f

/-- LOCK acquire (R212 to R215, R250). -/
def insnAcquire (l : Nat) (f : Fields) (s : State) : State :=
  s.lockInsn l fun s =>
    let ln := s.lane l
    let n := f.imm.toNat % 256
    let tmo := f.imm.toNat / 256
    let c := s.laneCtx l
    if lockLimit s.small ≤ n || (c ≠ 0 && s.lockCtx n ≠ c) then s.contextFault l cfLockDenied 0
    else if s.breaksOrder 1 ln.slot n then s.orderResult.setLane l (ln.setG f.d 2).next
    else if s.lockTaken n then
      let k := s.lock n
      let q := joinQueue s l k.queue
      let d := if tmo = 0 then none else some (s.tick + tmo)
      (s.setLock n { k with queue := q }).setLane l { ln with wait := some ⟨n, f.d.toNat, d, s.tick⟩ }
    else
      let r := s.grantLock n 1 ln.slot l
      r.1.setLane l (ln.setG f.d (BitVec.ofNat 64 r.2)).next

/-- LOCK release (R215, R250). -/
def insnRelease (l : Nat) (f : Fields) (s : State) : State :=
  s.lockInsn l fun s =>
    let ln := s.lane l
    let n := f.imm.toNat % 256
    let k := s.lock n
    if k.state = lkHeld && k.kind = 1 && k.holder = ln.slot then (s.freeLock n).setLane l (ln.setG f.d 0).next
    else s.contextFault l cfNotHeld 0

/-! ### Events, credentials, time (R256 to R258) -/

/-- EVT: 0 when Cairn accepts the record, 1 when it is lost. -/
def insnEvt (l : Nat) (f : Fields) (s : State) : State :=
  s.insn l fun s =>
    let ln := s.lane l
    let body := leBytes 8 (ln.getG f.a).toNat ++ leBytes 8 (ln.getG f.b).toNat ++ leBytes 2 ln.slot ++ leBytes 1 l ++ leBytes 13 0
    let s := s.markFirst
    let t := s.crnDecide ⟨1, s.laneCtx l, f.imm.toNat % 65536, s.reg pgPHT 0x050, s.tick, body, 0, 0, 0⟩
    let lost := t.reg pgCRN 0x08C ≠ s.reg pgCRN 0x08C
    t.setLane l (ln.setG f.d (truth lost)).next

/-- CRED: the lookup is issued and the lane waits for its result. -/
def insnCred (l : Nat) (f : Fields) (s : State) : State :=
  s.insn l fun s =>
    let ln := s.lane l
    let k : Lookup := ⟨l, f.d.toNat, ln.getG f.a, f.imm.getLsbD 0, (ln.getG f.b).toNat % 16, s.laneCtx l, s.tick, true, 0, none, true⟩
    (s.issueLookup k).setLane l { ln with cred := true }

/-- NOW: a value to G[D]. -/
def State.nowInsn (s : State) (l : Nat) (f : Fields) (v : State → Nat) : State :=
  s.insn l fun s => s.setLane l ((s.lane l).setG f.d (BitVec.ofNat 64 (v s))).next
def insnNowCapture (l : Nat) (f : Fields) (s : State) : State := s.nowInsn l f fun s => s.scan.capture
def insnNowTick (l : Nat) (f : Fields) (s : State) : State := s.nowInsn l f fun s => s.tick
def insnNowCycle (l : Nat) (f : Fields) (s : State) : State := s.nowInsn l f fun s => s.scan.stamp

def execPld (l : Nat) (f : Fields) (s : State) : Out := access (fun s => insnPld l f s) s
def execPldx (l : Nat) (f : Fields) (s : State) : Out := access (fun s => insnPldx l f s) s
def execPst (l : Nat) (f : Fields) (s : State) : Out := access (fun s => insnPst l f s) s
def execPstx (l : Nat) (f : Fields) (s : State) : Out := access (fun s => insnPstx l f s) s
def execTmrTon (l : Nat) (f : Fields) (s : State) : Out := access (fun s => insnTon l f s) s
def execTmrTof (l : Nat) (f : Fields) (s : State) : Out := access (fun s => insnTof l f s) s
def execTmrTp (l : Nat) (f : Fields) (s : State) : Out := access (fun s => insnTp l f s) s
def execTmrTrd (l : Nat) (f : Fields) (s : State) : Out := access (fun s => insnTrd l f s) s
def execTmrTrst (l : Nat) (f : Fields) (s : State) : Out := access (fun s => insnTrst l f s) s
def execEdgRise (l : Nat) (f : Fields) (s : State) : Out := access (fun s => insnRise l f s) s
def execEdgFall (l : Nat) (f : Fields) (s : State) : Out := access (fun s => insnFall l f s) s
def execEdgBoth (l : Nat) (f : Fields) (s : State) : Out := access (fun s => insnBoth l f s) s
def execLockAcquire (l : Nat) (f : Fields) (s : State) : Out := access (fun s => insnAcquire l f s) s
def execLockRelease (l : Nat) (f : Fields) (s : State) : Out := access (fun s => insnRelease l f s) s
def execEvt (l : Nat) (f : Fields) (s : State) : Out := access (fun s => insnEvt l f s) s
def execCred (l : Nat) (f : Fields) (s : State) : Out := access (fun s => insnCred l f s) s
def execNowCapture (l : Nat) (f : Fields) (s : State) : Out := access (fun s => insnNowCapture l f s) s
def execNowTick (l : Nat) (f : Fields) (s : State) : Out := access (fun s => insnNowTick l f s) s
def execNowCycle (l : Nat) (f : Fields) (s : State) : Out := access (fun s => insnNowCycle l f s) s

end Sys2Proof.Machine
end

