-- ==== Sys2Proof/Machine/Verify.lean ====
section
/-! DEFINITION. What the loader checks in a container before it places it (R260 to R263, R268, R269): the container's form,
the encoding of every instruction, the flow rules, call depth, lock spans, and the proven bound. -/

namespace Sys2Proof.Machine

set_option cleanup.letToHave false

open Sys2Proof.Config

/-! ### Encoding (R235, Table ISA-10) -/

abbrev wD (w : BitVec 64) : Nat := w.toNat / 2 ^ 51 % 32
abbrev wA (w : BitVec 64) : Nat := w.toNat / 2 ^ 46 % 32
abbrev wB (w : BitVec 64) : Nat := w.toNat / 2 ^ 41 % 32
abbrev wI (w : BitVec 64) : Nat := w.toNat / 2 ^ 40 % 2
abbrev wX (w : BitVec 64) : Nat := w.toNat / 2 ^ 32 % 256
abbrev wImm (w : BitVec 64) : Nat := w.toNat % 2 ^ 32

/-- An instruction meets the encoding rules: `ns` is the number of its program's sections. -/
def encOk (small : Bool) (ns : Nat) (w : BitVec 64) : Bool :=
  let op := opOf w
  let d0 := wD w = 0
  let a0 := wA w = 0
  let b0 := wB w = 0
  let i0 := wI w = 0
  let x0 := wX w = 0
  let m := wImm w
  let sect := wX w < 16 && wX w < ns
  if op = 0x00 then w.toNat = 0
  else if (0x01 ≤ op && op ≤ 0x12) || (0x18 ≤ op && op ≤ 0x1D) then x0 && (if i0 then m = 0 else b0)
  else if op = 0x13 then a0 && b0 && x0
  else if op = 0x14 then b0 && i0 && x0
  else if (0x20 ≤ op && op ≤ 0x25) || (0x29 ≤ op && op ≤ 0x2B) then i0 && x0 && m = 0
  else if (0x26 ≤ op && op ≤ 0x28) || (0x2C ≤ op && op ≤ 0x2F) then b0 && i0 && x0 && m = 0
  else if op = 0x40 then d0 && a0 && b0 && i0 && x0
  else if op = 0x41 || op = 0x42 then d0 && b0 && i0 && x0
  else if op = 0x43 then b0 && i0 && x0 && m / 8192 % 8 = 0
  else if op = 0x44 || op = 0x46 || op = 0x47 || op = 0x71 then d0 && a0 && b0 && i0 && x0 && m = 0
  else if op = 0x45 then d0 && a0 && b0 && i0 && x0 && m < 2 ^ 20
  else if op = 0x50 then b0 && i0 && sect
  else if 0x51 ≤ op && op ≤ 0x53 then d0 && i0 && sect
  else if op = 0x54 then b0 && i0 && sect && wD w % 4 = 0
  else if op = 0x55 then d0 && i0 && sect && wB w % 4 = 0
  else if op = 0x60 then a0 && b0 && i0 && x0 && m < 8192
  else if op = 0x62 then d0 && a0 && i0 && x0 && m < 8192
  else if op = 0x61 || op = 0x63 then
    let n := m / 65536 % 16384
    i0 && x0 && (if op = 0x61 then b0 else d0) && m / 8192 % 8 = 0 && m / 2 ^ 30 = 0 && 1 ≤ n && n ≤ 8192 &&
      m % 8192 + n ≤ 8192
  else if op = 0x68 then i0 && wX w ≤ 4 && m < 64 && (wX w ≤ 2 || (a0 && b0))
  else if op = 0x69 then b0 && i0 && wX w ≤ 2 && m < 256
  else if op = 0x70 then a0 && b0 && i0 && wX w ≤ 1 && m % 256 < lockLimit small && (wX w = 0 || m < 256)
  else if op = 0x72 then b0 && i0 && x0
  else if op = 0x73 then i0 && x0
  else if op = 0x74 || op = 0x75 then
    let n := m / 65536 % 512
    i0 && sect && (op = 0x74 || b0) && m / 2 ^ 25 = 0 && 1 ≤ n && n ≤ 256
  else if op = 0x76 then i0 && x0 && m < 65536
  else if op = 0x77 then i0 && x0 && m < 2
  else if op = 0x78 then a0 && b0 && i0 && wX w ≤ 2 && m = 0
  else false

/-! ### Flow (R239 to R241) -/

/-- The instruction at an index. -/
def insnAt (code : List (BitVec 64)) (i : Nat) : BitVec 64 := (code[i]?).getD 0

/-- The bodies of the loops of a program, as (LOOP index, first index after the body). -/
def loopsFrom : Nat → List (BitVec 64) → List (Nat × Nat)
  | _, [] => []
  | i, w :: t => if opOf w = 0x43 then (i, i + 1 + wImm w / 65536) :: loopsFrom (i + 1) t else loopsFrom (i + 1) t

/-- The innermost loop whose body contains index `j`. -/
def innermost (ls : List (Nat × Nat)) (j : Nat) : Option (Nat × Nat) :=
  (ls.filter fun x => x.1 < j && j < x.2).foldl (fun b x => match b with
    | none => some x
    | some y => if y.1 < x.1 then some x else some y) none

/-- How many bodies contain index `j`. -/
def nestOf (ls : List (Nat × Nat)) (j : Nat) : Nat := (ls.filter fun x => x.1 < j && j < x.2).length

/-- The functions as (first index, index after the last instruction), from sorted entries (R241). -/
def funcSpans (entries : List Nat) (n : Nat) : List (Nat × Nat) :=
  entries.map fun e => (e, ((entries.filter (e < ·)).foldl min n))

/-- The function that holds index `j`. -/
def funcOf (fs : List (Nat × Nat)) (j : Nat) : Nat × Nat := (fs.find? fun x => x.1 ≤ j && j < x.2).getD (0, 0)

/-- A branch target in instructions. -/
def branchTo (i : Nat) (w : BitVec 64) : Int := (i : Int) + (w.setWidth 32).toInt

/-- The flow rules for the instruction at `i`. -/
def flowOk (code : List (BitVec 64)) (ls fs : List (Nat × Nat)) (i : Nat) : Bool :=
  let w := insnAt code i
  let op := opOf w
  let fn := funcOf fs i
  let inn := innermost ls i
  let goesOn := i + 1 < fn.2
  let branch :=
    let t := branchTo i w
    let tn := t.toNat
    (i : Int) + 1 ≤ t && decide (tn < fn.2) &&
      (match inn with
       | some x => decide (tn = x.2) || (decide (innermost ls tn = some x))
       | none => decide (innermost ls tn = none))
  if op = 0x40 then branch
  else if op = 0x41 || op = 0x42 then branch && goesOn
  else if op = 0x43 then
    let n := wImm w % 8192
    let m := wImm w / 65536
    1 ≤ n && n ≤ 4096 && 1 ≤ m && decide (i + 1 + m < fn.2) &&
      (match inn with | some x => decide (i + 1 + m ≤ x.2) | none => true) && nestOf ls i < 4
  else if op = 0x44 then inn.isSome
  else if op = 0x46 then fn.1 ≠ 0
  else if op = 0x47 then true
  else goesOn

/-! ### Call depth (R241) -/

/-- The entries of functions called from the function at `e`. -/
def callsOf (code : List (BitVec 64)) (fs : List (Nat × Nat)) (e : Nat × Nat) : List Nat :=
  ((List.range (e.2 - e.1)).map (· + e.1)).filterMap fun i =>
    let w := insnAt code i
    if opOf w = 0x45 && fs.any (fun x => x.1 = wImm w % 2 ^ 20) then some (wImm w % 2 ^ 20) else none

/-- The functions that start a call chain of at least `k` calls. -/
def chains (code : List (BitVec 64)) (fs : List (Nat × Nat)) : Nat → List (Nat × Nat)
  | 0 => fs
  | k + 1 => let s := chains code fs k
    s.filter fun e => (callsOf code fs e).any fun c => s.any fun x => x.1 = c

/-- Functions that a function reaches through calls, in at most `k` steps. -/
def reaches (code : List (BitVec 64)) (fs : List (Nat × Nat)) : Nat → Nat → List Nat
  | 0, e => [e]
  | k + 1, e => e :: ((callsOf code fs (funcOf fs e)).flatMap (reaches code fs k))

/-! ### Charges and bounds (R261, R262) -/

/-- What the charges depend on: F of the lane, the lanes of the variant, the variant, and HOLD_MAX of each lock. -/
structure Charges where
  f : Nat
  lanes : Nat
  small : Bool
  hold : List Nat
deriving DecidableEq, Repr

/-- The charge of a register access (Table ISA-11). -/
def regCharge (small : Bool) (w : BitVec 64) : Nat :=
  let a := wImm w
  let pg := a / 16384
  let sns := if small then 14 else 520003
  if wA w ≠ 0 then max 104003 sns
  else if 0x01000000 ≤ a then 14
  else if pg = pgPWR ∨ pg = pgRTC ∨ pg = pgFUS then 104003
  else if pg = pgSNS then sns else 14

/-- The charge of one instruction, without loop bodies and callees. -/
def chargeOf (k : Charges) (w : BitVec 64) : Nat :=
  let op := opOf w
  if 0x50 ≤ op ∧ op ≤ 0x55 then k.f
  else if op = 0x74 ∨ op = 0x75 then 2 + 4 * ((wImm w / 65536 % 512 + 63) / 64) * k.f
  else if op = 0x72 ∨ op = 0x73 then regCharge k.small w
  else if op = 0x70 ∧ wX w = 0 then
    let full := k.lanes * ((k.hold[wImm w % 256]?).getD 0 + 2)
    let t := wImm w / 256
    if t = 0 then full else min t full
  else if op = 0x77 then 24 * k.lanes
  else 1

/-- Entry `t` of the table of longest paths that starts at index `i`. -/
def pathAt (tab : List Nat) (i t : Nat) : Nat := (tab[t - i]?).getD 0

/-- The longest paths of the instructions `i`, `i` + 1, … to the end of their innermost bodies, by R262, from the last
instruction back; `bounds` gives the bounds of callees. -/
def longPaths (k : Charges) (ls : List (Nat × Nat)) (bounds : Nat → Nat) : Nat → List (BitVec 64) → List Nat
  | _, [] => []
  | i, w :: t =>
    let tab := longPaths k ls bounds (i + 1) t
    let stop := match innermost ls i with | some x => x.2 | none => 0
    let at_ := fun j => if j = stop then 0 else pathAt tab (i + 1) j
    let op := opOf w
    let c := chargeOf k w
    let v :=
      if op = 0x44 ∨ op = 0x46 ∨ op = 0x47 then c
      else if op = 0x40 then c + at_ (branchTo i w).toNat
      else if op = 0x41 ∨ op = 0x42 then c + max (at_ (branchTo i w).toNat) (at_ (i + 1))
      else if op = 0x43 then 1 + wImm w % 8192 * pathAt tab (i + 1) (i + 1) + at_ (i + 1 + wImm w / 65536)
      else if op = 0x45 then 1 + bounds (wImm w % 2 ^ 20) + at_ (i + 1)
      else c + at_ (i + 1)
    v :: tab

/-- The tables of longest paths after `n` rounds of callee bounds; nine rounds reach every chain of at most 8 calls. -/
def pathRounds (k : Charges) (ls : List (Nat × Nat)) (code : List (BitVec 64)) : Nat → List Nat
  | 0 => longPaths k ls (fun _ => 0) 0 code
  | n + 1 =>
    let prev := pathRounds k ls code n
    longPaths k ls (fun e => pathAt prev 0 e) 0 code

/-- The proven bound of a program (R262): its dispatch charge and the bound of its body. -/
def provenBound (k : Charges) (code : List (BitVec 64)) (event : Bool) : Nat :=
  (if event then 4 else 2) + pathAt (pathRounds k (loopsFrom 0 code) code 9) 0 0

/-! ### Lock spans (R263) -/

/-- From which instructions a path reaches a release of lock `m` before it leaves their innermost body or function, loop bodies and callees
on the way included; `callee` answers for the functions it calls. -/
def relPaths (m : Nat) (ls : List (Nat × Nat)) (callee : Nat → Bool) : Nat → List (BitVec 64) → List Bool
  | _, [] => []
  | i, w :: t =>
    let tab := relPaths m ls callee (i + 1) t
    let stop := match innermost ls i with | some x => x.2 | none => 0
    let from_ := fun (j : Nat) => (tab[j - (i + 1)]?).getD false
    let at_ := fun (j : Nat) => if j = stop then false else from_ j
    let op := opOf w
    let v :=
      if op = 0x70 ∧ wX w = 1 ∧ wImm w % 256 = m then true
      else if op = 0x44 ∨ op = 0x46 ∨ op = 0x47 then false
      else if op = 0x40 then at_ (branchTo i w).toNat
      else if op = 0x41 ∨ op = 0x42 then at_ (branchTo i w).toNat || at_ (i + 1)
      else if op = 0x43 then from_ (i + 1) || at_ (i + 1 + wImm w / 65536)
      else if op = 0x45 then callee (wImm w % 2 ^ 20) || at_ (i + 1)
      else at_ (i + 1)
    v :: tab

/-- The table after `n` rounds of callees; nine rounds reach every chain of at most 8 calls. -/
def relRounds (m : Nat) (ls : List (Nat × Nat)) (code : List (BitVec 64)) : Nat → List Bool
  | 0 => relPaths m ls (fun _ => false) 0 code
  | n + 1 =>
    let prev := relRounds m ls code n
    relPaths m ls (fun e => (prev[e]?).getD false) 0 code

/-- Longest paths from each index to the release of `m`, or to END, in the body of the acquire (`lvl`) and its function,
which ends before `fin`; none where a path reaches the end of that body or function, or passes an inner body or a callee
in which a path reaches a release of `m` (`rel`), first. -/
def spanPaths (k : Charges) (ls : List (Nat × Nat)) (long : List Nat) (rel : List Bool) (m : Nat)
    (lvl : Option (Nat × Nat)) (fin : Nat) : Nat → List (BitVec 64) → List (Option Nat)
  | _, [] => []
  | i, w :: t =>
    let tab := spanPaths k ls long rel m lvl fin (i + 1) t
    let stop := match lvl with | some x => x.2 | none => fin
    let at_ := fun j => if stop ≤ j then none else (tab[j - (i + 1)]?).getD none
    let op := opOf w
    let c := chargeOf k w
    let plus := fun (n : Nat) (o : Option Nat) => o.map (n + ·)
    let v :=
      if innermost ls i ≠ lvl then none
      else if op = 0x70 ∧ wX w = 1 ∧ wImm w % 256 = m then some c
      else if op = 0x47 then some c
      else if op = 0x44 ∨ op = 0x46 then none
      else if op = 0x40 then plus c (at_ (branchTo i w).toNat)
      else if op = 0x41 ∨ op = 0x42 then
        match at_ (branchTo i w).toNat, at_ (i + 1) with
        | some a, some b => some (c + max a b)
        | _, _ => none
      else if op = 0x43 then
        let e := i + 1 + wImm w / 65536
        if (rel[i + 1]?).getD false then none
        else plus (1 + wImm w % 8192 * pathAt long 0 (i + 1)) (at_ e)
      else if op = 0x45 then
        let e := wImm w % 2 ^ 20
        if (rel[e]?).getD false then none
        else plus (1 + pathAt long 0 e) (at_ (i + 1))
      else plus c (at_ (i + 1))
    v :: tab

/-- The span of the acquire at index `i`: none where R263 refuses its shape. -/
def spanOf (k : Charges) (code : List (BitVec 64)) (ls fs : List (Nat × Nat)) (long : List Nat) (i : Nat) : Option Nat :=
  let m := wImm (insnAt code i) % 256
  let lvl := innermost ls i
  let fn := funcOf fs i
  let stop := match lvl with | some x => x.2 | none => fn.2
  if stop ≤ i + 1 then none
  else ((spanPaths k ls long (relRounds m ls code 9) m lvl fn.2 (i + 1) (code.drop (i + 1)))[0]?).getD none

/-- The acquires of a program with their spans. -/
def spansOf (k : Charges) (code : List (BitVec 64)) (fs : List (Nat × Nat)) : List (Nat × Nat × Option Nat) :=
  let ls := loopsFrom 0 code
  let long := pathRounds k ls code 9
  ((List.range code.length).filter fun i => opOf (insnAt code i) = 0x70 && wX (insnAt code i) = 0).map fun i =>
    (i, wImm (insnAt code i) % 256, spanOf k code ls fs long i)

/-- Steps of Table ISA-10: the first failing status and the index of the failing instruction. -/
def verifyCode (k : Charges) (ns : Nat) (entries : List Nat) (code : List (BitVec 64)) : Option (Nat × Nat) :=
  let ls := loopsFrom 0 code
  let fs := funcSpans entries code.length
  let is := List.range code.length
  match is.find? (fun i => !encOk k.small ns (insnAt code i)) with
  | some i => some (stEncoding, i)
  | none =>
    match is.find? (fun i => !flowOk code ls fs i) with
    | some i => some (stFlow, i)
    | none =>
      match is.find? (fun i => opOf (insnAt code i) = 0x45 && !fs.any (fun x => x.1 = wImm (insnAt code i) % 2 ^ 20)) with
      | some i => some (stCallDepth, i)
      | none =>
        match chains code fs 9 with
        | e :: _ => some (stCallDepth, e.1)
        | [] =>
          match (spansOf k code fs).find? (fun x => match x.2.2 with
            | none => true
            | some v => (k.hold[x.2.1]?).getD 0 < v) with
          | some x => some (stLockSpan, x.1)
          | none => none

/-! ### The container (R268, Tables LDR-2 to LDR-4 and LDR-7) -/

/-- A little-endian word of the container. -/
def cw (c : List Byte) (o n : Nat) : Nat := ofLeBytes ((c.drop o).take n)

/-- CRC-32 of IEEE 802.3 over bytes. -/
def crcBit : Nat → Nat → Nat
  | 0, c => c
  | k + 1, c => crcBit k (if c % 2 = 1 then Nat.xor (c / 2) 0xEDB88320 else c / 2)
def crcGo : List Byte → Nat → Nat
  | [], c => c
  | b :: t, c => crcGo t (crcBit 8 (Nat.xor c b.toNat))
def crc32 (bs : List Byte) : Nat := Nat.xor (crcGo bs 0xFFFFFFFF) 0xFFFFFFFF

/-- Round up to a multiple of 8. -/
abbrev up8 (n : Nat) : Nat := (n + 7) / 8 * 8

/-- Offsets of the tables: functions, sections, point definitions, carry map, edges, and the first byte after them. -/
structure Layout where
  nf : Nat
  ns : Nat
  np : Nat
  nc : Nat
  sect : Nat
  pdef : Nat
  carry : Nat
  edge : Nat
  fin : Nat
  code : Nat
  len : Nat
  total : Nat
deriving DecidableEq, Repr

def layoutOf (c : List Byte) : Layout :=
  let nf := cw c 0x20 1
  let ns := cw c 0x21 1 % 32
  let np := cw c 0x24 4 % 16384
  let nc := cw c 0x28 4 % 8192
  let sect := up8 (64 + 4 * nf)
  let pdef := sect + 16 * ns
  let carry := pdef + 16 * np
  let edge := carry + 16 * nc
  ⟨nf, ns, np, nc, sect, pdef, carry, edge, edge + 32, cw c 0x18 4, cw c 0x1C 4, cw c 0x08 4⟩

/-- The functions' entries. -/
def entriesOf (c : List Byte) (y : Layout) : List Nat := (List.range y.nf).map fun i => cw c (64 + 4 * i) 4

/-- The first index of a list whose value fails, or stands before it too. -/
def firstWrong (bad : Nat → Nat → Bool) (l : List Nat) : Option Nat :=
  (List.range l.length).find? fun i => bad i ((l[i]?).getD 0) || (l.take i).contains ((l[i]?).getD 0)

def sectOk (c : List Byte) (y : Layout) (i : Nat) : Bool :=
  let o := y.sect + 16 * i
  let w0 := cw c o 4
  let n := w0 % 2 ^ 19
  w0 / 2 ^ 19 % 32 = 0 && w0 / 2 ^ 26 = 0 && 32 ≤ n && n ≤ 262144 && n % 32 = 0 && cw c (o + 8) 8 = 0 &&
  (if w0 / 2 ^ 25 % 2 = 1 then
    let a := cw c (o + 4) 4
    a % 8 = 0 && y.fin ≤ a && a + n ≤ y.total
   else cw c (o + 4) 4 = 0)

def pdefOk (c : List Byte) (y : Layout) (i : Nat) : Bool :=
  let o := y.pdef + 16 * i
  let w0 := cw c o 4
  let t := w0 / 2 ^ 16 % 16
  w0 / 2 ^ 13 % 8 = 0 && w0 / 2 ^ 20 % 16 = 0 && w0 / 2 ^ 25 = 0 && 1 ≤ t && t ≤ 9 && cw c (o + 4) 4 = 0

def carryOk (c : List Byte) (y : Layout) (i : Nat) : Bool :=
  let o := y.carry + 16 * i
  let n := cw c (o + 8) 4
  cw c o 4 / 2 ^ 20 = 0 && 1 ≤ n && n ≤ 32768 && cw c (o + 12) 4 = 0

/-- Step 2 of Table LDR-5: the offset of the first wrong item. -/
def containerBad (small : Bool) (c : List Byte) : Option Nat :=
  let y := layoutOf c
  let w3 := cw c 0x0C 4
  let es := entriesOf c y
  let idx := (List.range y.np).map fun i => cw c (y.pdef + 16 * i) 4 % 8192
  if cw c 0 4 ≠ 0x43505344 then some 0
  else if cw c 4 2 ≠ 1 ∨ cw c 6 2 ≠ 64 then some 4
  else if y.total < 64 ∨ 1048576 < y.total ∨ y.total % 8 ≠ 0 then some 8
  else if w3 / 512 % 8 ≠ 0 ∨ w3 / 2 ^ 15 % 2 ≠ 0 ∨ w3 / 2 ^ 19 % 2 ≠ 0 ∨ w3 / 2 ^ 21 % 8 ≠ 0 ∨ w3 / 2 ^ 25 ≠ 0 ∨
      laneLimit small ≤ w3 / 2 ^ 12 % 8 then some 0x0C
  else if cw c 0x16 1 = 0 ∨ cw c 0x17 1 ≠ 0 then some 0x14
  else if y.code % 8 ≠ 0 ∨ y.code < y.fin then some 0x18
  else if y.len < 8 ∨ 917504 < y.len ∨ y.len % 8 ≠ 0 ∨ y.total < y.code + y.len then some 0x1C
  else if y.nf = 0 ∨ y.nf = 256 ∨ 16 < y.ns ∨ cw c 0x20 4 / 2 ^ 13 ≠ 0 then some 0x20
  else if 8192 < y.np ∨ cw c 0x24 4 / 2 ^ 14 ≠ 0 then some 0x24
  else if 4096 < y.nc ∨ cw c 0x28 4 / 2 ^ 13 ≠ 0 then some 0x28
  else if cw c 0x2C 16 ≠ 0 then some 0x2C
  else if crc32 (c.take 0x3C ++ [0, 0, 0, 0] ++ c.drop 0x40) ≠ cw c 0x3C 4 then some 0x3C
  else match firstWrong (fun i e => (i = 0 && e ≠ 0) || decide (y.len / 8 ≤ e)) es with
    | some i => some (0x40 + 4 * i)
    | none => match (List.range y.ns).find? (fun i => !sectOk c y i) with
      | some i => some (y.sect + 16 * i)
      | none => match firstWrong (fun i _ => !pdefOk c y i) idx with
        | some i => some (y.pdef + 16 * i)
        | none => match (List.range y.nc).find? (fun i => !carryOk c y i) with
          | some i => some (y.carry + 16 * i)
          | none => none

/-- 64-bit words of a byte list. -/
def dwordsOf : Nat → List Byte → List (BitVec 64)
  | 0, _ => []
  | n + 1, c => BitVec.ofNat 64 (ofLeBytes (c.take 8)) :: dwordsOf n (c.drop 8)

/-- The program that a well-formed container holds. -/
def parseProg (k : Charges) (c : List Byte) : Prog :=
  let y := layoutOf c
  let w3 := cw c 0x0C 4
  let code := dwordsOf (y.len / 8) (c.drop y.code)
  let es := entriesOf c y
  let sects := (List.range y.ns).map fun i =>
    let o := y.sect + 16 * i
    let w0 := cw c o 4
    let n := w0 % 2 ^ 19
    (⟨n, w0 / 2 ^ 24 % 2 = 1, if w0 / 2 ^ 25 % 2 = 1 then some ((c.drop (cw c (o + 4) 4)).take n) else none⟩ : Sect)
  let pdefs := (List.range y.np).map fun i =>
    let o := y.pdef + 16 * i
    let w0 := cw c o 4
    (⟨w0 % 8192, w0 / 2 ^ 16 % 16, if w0 / 2 ^ 24 % 2 = 1 then some (BitVec.ofNat 64 (cw c (o + 8) 8)) else none⟩ : PDef)
  let carry := (List.range y.nc).map fun i =>
    let o := y.carry + 16 * i
    let w0 := cw c o 4
    (⟨w0 % 16, w0 / 16 % 16, w0 / 256 % 16, w0 / 4096 % 16, w0 / 65536 % 16, cw c (o + 4) 2, cw c (o + 6) 2,
      cw c (o + 8) 4⟩ : Carry)
  { ctx := w3 % 512, lane := w3 / 2 ^ 12 % 8, cls := w3 / 2 ^ 16 % 8, event := w3 / 2 ^ 20 % 2 = 1,
    skip := w3 / 2 ^ 24 % 2 = 1, limit := cw c 0x16 1, pid := word (cw c 0x10 4), gen := cw c 0x14 2,
    sects := sects, pdefs := pdefs, carry := carry, edges := 256, code := code,
    bound := provenBound k code (w3 / 2 ^ 20 % 2 = 1), bytes := y.total,
    spans := (spansOf k code (funcSpans es code.length)).filterMap fun x => x.2.2.map fun v => (x.2.1, v),
    edgeInit := (c.drop y.edge).take 32, crc := word (cw c 0x3C 4), raw := c }

end Sys2Proof.Machine
end

