-- ==== Sys2Proof/Machine/Loader.lean ====
section
/-! DEFINITION. Loading and changing programs (R265 to R282): the checks of Table LDR-5, placing, arming, the carry and the
switch, unloading, and the loader's registers. -/

namespace Sys2Proof.Machine

set_option cleanup.letToHave false

open Sys2Proof.Config

/-! ### Placing (R268, R549) -/

abbrev bufferBase : Nat := 0xC00000
abbrev sectionArea : Nat := 0xC00000

def Sect.occupies (x : Sect) : Nat := if x.retained then 2 * x.len else x.len

/-- The SRAM areas that sections occupy, as (slot, index, address, bytes). -/
def State.placed (s : State) : List (Nat × Nat × Nat × Nat) :=
  s.slots.flatMap fun e =>
    match e.2.prog with
    | none => []
    | some g => ((g.sects.zip e.2.sects).zipIdx).map fun x => (e.1, x.2, x.1.2, x.1.1.occupies)

def State.sectionSum (s : State) : Nat := (s.placed.map fun x => x.2.2.2).sum

/-- Does [a, a + n) lie free of the occupied areas? -/
def freeAt (occ : List (Nat × Nat)) (a n : Nat) : Bool := occ.all fun x => a + n ≤ x.1 || x.1 + x.2 ≤ a

/-- The lowest address at which `n` bytes fit below `limit`. -/
def firstFit (occ : List (Nat × Nat)) (n limit : Nat) : Option Nat :=
  ((0 :: occ.map fun x => x.1 + x.2).filter fun a => a + n ≤ limit && freeAt occ a n).foldl
    (fun b a => match b with | none => some a | some c => some (min a c)) none

/-- Place sections one after another. -/
def placeAll : List (Nat × Nat) → List Sect → Option (List Nat)
  | _, [] => some []
  | occ, x :: t =>
    match firstFit occ x.occupies sectionArea with
    | none => none
    | some a => (placeAll ((a, x.occupies) :: occ) t).map (a :: ·)

/-- Write pieces of content to the SRAM. -/
def State.storeAll (s : State) : List (Nat × List Byte) → State
  | [] => s
  | (a, b) :: t => (s.store a b).storeAll t

/-- Give a slot's section `k` a new address. -/
def State.moveSect (s : State) (slot k a : Nat) : State :=
  let x := s.slot slot
  s.setSlot slot { x with sects := x.sects.set k a }
def State.moveSects (s : State) : List (Nat × Nat × Nat) → State
  | [] => s
  | (slot, k, a) :: t => (s.moveSect slot k a).moveSects t

/-- New addresses in order. -/
def packFrom : Nat → List (Nat × Nat × Nat × Nat) → List (Nat × Nat × Nat)
  | _, [] => []
  | a, (slot, k, _, n) :: t => (slot, k, a) :: packFrom (a + n) t

/-- Move every section to the lowest addresses, so that any set of sections fits that the section area holds (R549). -/
def State.compact (s : State) : State :=
  let ps := s.placed
  let new := packFrom 0 ps
  let content := (ps.zip new).map fun x => (x.2.2.2, readBytes s.sram x.1.2.2.1 x.1.2.2.2)
  ({ s with sram := Tbl.clear (fun a => decide (a < sectionArea)) s.sram }.storeAll content).moveSects new

/-- A bank that is not ON and gets content is set ON, and is ON after its time (R419). -/
def State.wakeBank (s : State) (b : Nat) : State :=
  let o := if b < 16 then 0x0E0 else 0x0E4
  let old := s.regFld pgFAB o (2 * (b % 16)) 2
  if old = 0 then s
  else
    let f := s.fabric
    let s := { s with fabric := { f with changing := Tbl.set (fun _ => 0) f.changing b (s.tick + if old = 1 then 400 else 16384) } }
    (s.setRegFld pgFAB o (2 * (b % 16)) 2 0).setRegFld pgFAB (o + 8) (2 * (b % 16)) 2 3
def State.wakeBanks (s : State) (areas : List (Nat × Nat)) : List Nat → State
  | [] => s
  | b :: t =>
    let g := b / 4 * 2097152
    let hit : Bool := areas.any fun (x : Nat × Nat) => decide (x.2 ≠ 0) && decide (x.1 < g + 2097152) && decide (g < x.1 + x.2)
    (if hit then s.wakeBank b else s).wakeBanks areas t

/-- The occupied areas as (address, bytes). -/
def State.areas (s : State) : List (Nat × Nat) := s.placed.map fun x => (x.2.2.1, x.2.2.2)

/-- Addresses for the sections of a program: where no gap serves, the others are moved first. -/
def State.placeFree (s : State) (xs : List Sect) : State × List Nat :=
  match placeAll s.areas xs with
  | some l => (s, l)
  | none => (s.compact, (placeAll s.compact.areas xs).getD [])

/-- Place the sections of a program, in banks that are ON or are set ON. -/
def State.placeSects (s : State) (xs : List Sect) : State × List Nat :=
  let r := s.placeFree xs
  (r.1.wakeBanks (r.2.zip (xs.map Sect.occupies)) (List.range 32), r.2)

/-- The code-store areas in use. -/
def State.codeAreas (s : State) : List (Nat × Nat) :=
  s.slots.filterMap fun e => match e.2.prog with | some g => some (e.2.codeAt, 8 * g.code.length) | none => none
def State.placeCode (s : State) (g : Prog) : Option Nat := firstFit s.codeAreas (8 * g.code.length) 8388608

/-- The content with which a section starts (R271). -/
def Sect.start (x : Sect) : List Byte :=
  let b := (x.init).getD (List.replicate x.len 0)
  if x.retained then b ++ b else b

/-- The sections of a program take their initial values. -/
def State.initSects (s : State) : List (Sect × Nat) → State
  | [] => s
  | (x, a) :: t => (s.store a x.start).initSects t

/-- The edge bits of a container. -/
def edgeTable (bs : List Byte) : Tbl Bool :=
  (List.range 256).filterMap fun n => if ((bs[n / 8]?).getD 0).getLsbD (n % 8) then some (n, true) else none

/-! ### Points of a program (R270, R278) -/

def Prog.defines (g : Prog) (j : Nat) : Bool := g.pdefs.any fun d => d.idx = j

/-- The indices that the old program defines and the new one does not. -/
def removedIdx (old : Option Prog) (new : List PDef) : List Nat :=
  match old with
  | none => []
  | some g => (g.pdefs.filter fun d => !new.any fun e => e.idx = d.idx).map (·.idx)

/-- The points to be removed, and those to be retyped. -/
def State.removedPts (s : State) (c : Nat) (old : Option Prog) (new : List PDef) : List Nat :=
  (removedIdx old new).filterMap (s.windowPoint c)
def State.retypedPts (s : State) (c : Nat) (new : List PDef) : List Nat :=
  new.filterMap fun d => match s.windowPoint c d.idx with
    | some p => if s.ptType p ≠ 0 ∧ s.ptType p ≠ d.typ then some p else none
    | none => none

/-- Apply one definition (R270, R271): a new point takes its initial value, a kept one keeps its value, a retyped one is
converted; a clamped conversion counts. -/
def State.applyDef (s : State) (c : Nat) (d : PDef) : State :=
  match s.windowPoint c d.idx with
  | none => s
  | some p =>
    let old := s.ptType p
    if old = 0 then (s.defPoint p d.typ c).setPtStored p (normalise d.typ (d.value.getD 0))
    else if old = d.typ then s
    else
      let r := convert old d.typ (s.ptStored p)
      let s := s.defPoint p d.typ c
      if r.2 then s.addKey (lkey 0x04C) 1 else s
def State.applyDefs (s : State) (c : Nat) : List PDef → State
  | [] => s
  | d :: t => (s.applyDef c d).applyDefs c t

def State.removePts (s : State) : List Nat → State
  | [] => s
  | p :: t => ((s.defPoint p 0 0).setWriter p wkNone 0).removePts t

/-- Writers of the indices that a program writes, and of those that only the old one wrote. -/
def State.setWriters (s : State) (c slot : Nat) : List Nat → State
  | [] => s
  | j :: t =>
    (match s.windowPoint c j with | some p => s.setWriter p wkProgram slot | none => s).setWriters c slot t
def State.dropWriters (s : State) (c slot : Nat) : List Nat → State
  | [] => s
  | j :: t =>
    (match s.windowPoint c j with
     | some p => if s.ptKind p = wkProgram ∧ s.ptId p = slot then s.setWriter p wkNone 0 else s
     | none => s).dropWriters c slot t

/-- Definitions, removals and writers of a load, switch or unload, in one ft (R270, R278). -/
def State.applyPoints (s : State) (slot c : Nat) (old new : Option Prog) : State :=
  let defs := match new with | some g => g.pdefs | none => []
  let s := s.dropWriters c slot (match old with | some g => g.written | none => [])
  let s := s.removePts (s.removedPts c old defs)
  let s := s.applyDefs c defs
  s.setWriters c slot (match new with | some g => g.written | none => [])

/-! ### The checks of Table LDR-5 -/

/-- The charges of a lane (R261): its fabric position in force. -/
def State.charges (s : State) (lane : Nat) : Charges :=
  ⟨10 * s.regFld pgFAB (0x060 + 4 * (4 + lane)) 0 5 + 12, laneLimit s.small, s.small, (List.range 256).map s.holdMax⟩

/-- The first item of a list, with its index, that fails. -/
def firstIdx {α : Type} (f : α → Bool) (l : List α) : Option Nat := (l.zipIdx.find? fun x => f x.1).map (·.2)

/-- Step 4: a definition is wrong. A point number above those of the variant is a matter of step 10 (R9). -/
def State.defBad (s : State) (c : Nat) (old : Option Prog) (d : PDef) : Bool :=
  match s.windowPoint c d.idx with
  | none => c ≠ 0
  | some p => s.ptType p ≠ 0 &&
      (s.ptOwner p ≠ c || (s.ptType p ≠ d.typ && !(match old with | some o => o.writesIdx d.idx | none => false)))

/-- Step 4: an instruction names a point or a lock that it may not name. -/
def State.insnBad (s : State) (g : Prog) (removed : List Nat) (w : BitVec 64) : Bool :=
  ((insnRefs w).any fun r => (List.range r.2.1).any fun i =>
    let j := r.1 + i
    !(g.defines j || (!removed.contains j && (if r.2.2 then (s.resolveOwn g.ctx j).isSome else (s.resolve g.ctx j).isSome)))) ||
  (g.ctx ≠ 0 && opOf w = 0x70 && s.lockCtx (w.toNat % 256) ≠ g.ctx)

/-- Step 4: INVALID, with the offset of the failing item (R269). -/
def State.loadInvalid (s : State) (g : Prog) (old : Option Prog) (y : Layout) : Option Nat :=
  let c := g.ctx
  if decide (ctxLimit s.small ≤ c) || s.ctxState c = 0 ||
      (match old with | some o => o.ctx ≠ c || o.event ≠ g.event | none => false) then some 0x0C
  else match firstIdx (s.defBad c old) g.pdefs with
    | some k => some (y.pdef + 16 * k)
    | none => (firstIdx (s.insnBad g (removedIdx old g.pdefs)) g.code).map fun i => y.code + 8 * i

/-- The offset of the definition of one of some points, else the start of the definitions (R269). -/
def State.pdefOfs (s : State) (g : Prog) (y : Layout) (p : Nat) : Nat :=
  match firstIdx (fun (d : PDef) => decide (s.windowPoint g.ctx d.idx = some p)) g.pdefs with
  | some k => y.pdef + 16 * k
  | none => y.pdef

/-- The points of which a force refuses a change (R173): to be removed or retyped, or to gain or lose their writer. -/
def State.forceItems (s : State) (c : Nat) (old : Option Prog) (defs : List PDef) (new : List Nat) : List Nat :=
  let was := match old with | some g => g.written | none => []
  s.removedPts c old defs ++ s.retypedPts c defs ++
  (if old.isSome then
    ((was.filter fun j => !new.contains j) ++ (new.filter fun j => !was.contains j)).filterMap (s.windowPoint c)
  else [])

/-- Step 7: a forced point among them. -/
def State.forcedItem (s : State) (c : Nat) (old : Option Prog) (defs : List PDef) (new : List Nat) : Option Nat :=
  (s.forceItems c old defs new).find? s.ptForced
def State.forcedBad (s : State) (c : Nat) (old : Option Prog) (defs : List PDef) (new : List Nat) : Bool :=
  (s.forcedItem c old defs new).isSome

/-- Step 8: a point to be removed or retyped that is in use (R182). -/
def State.inUseItem (s : State) (slot c : Nat) (old : Option Prog) (defs : List PDef) : Option Nat :=
  (s.removedPts c old defs ++ s.retypedPts c defs).find? fun p => s.grantSource p || s.pointRefd p (some slot)

/-- Step 9: a point has, or will have, another writer than the slot (R22). -/
def State.writerTaken (s : State) (slot p : Nat) : Bool :=
  (s.ptKind p ≠ wkNone && !(s.ptKind p = wkProgram && s.ptId p = slot)) ||
  s.comingWriter p (some slot)

/-- Step 9: the first instruction that writes such a point. -/
def State.writerBad (s : State) (slot : Nat) (g : Prog) : Option Nat :=
  firstIdx (fun w => (insnRefs w).any fun r => r.2.2 && (List.range r.2.1).any fun i =>
    match s.windowPoint g.ctx (r.1 + i) with | some p => s.writerTaken slot p | none => false) g.code

/-- Step 10: points, code store, sections, slots. -/
def State.loadCapacity (s : State) (g : Prog) (old : Option Prog) : Bool :=
  let fresh := (g.pdefs.filter fun d => match s.windowPoint g.ctx d.idx with
    | some p => s.ptType p = 0
    | none => false).length
  let gone := (s.removedPts g.ctx old g.pdefs).length
  (g.ctx = 0 && g.pdefs.any fun d => decide (pointLimit s.small ≤ d.idx)) ||
  decide (pointLimit s.small < (s.reg pgPTM 0x040).toNat + fresh - gone) || (s.placeCode g).isNone ||
  decide (sectionArea < s.sectionSum + (g.sects.map Sect.occupies).sum)

/-- A slot that a CHANGE may take as its beside holder. -/
def State.freeSlot (s : State) : Option Nat :=
  (List.range (slotLimit s.small)).find? fun n => (s.slot n).state = 0 && !(s.slot n).loading

/-- The first destination word of a carry entry, in a numbering of all destinations. -/
def Carry.dest (e : Carry) : Nat := if e.kind = 0 then 2 ^ 20 * (e.dstSect + 1) + e.dstIdx else 2 ^ 26 * e.kind + e.dstIdx

/-- A carry entry reaches outside, or its types do not convert (R279). -/
def carryEntryBad (old new : Prog) (e : Carry) : Bool :=
  let words := fun (g : Prog) k => match g.sects[k]? with | some x => x.len / 8 | none => 0
  match e.kind with
  | 0 => !convertible e.srcType e.dstType || words old e.srcSect < e.srcIdx + e.count || words new e.dstSect < e.dstIdx + e.count
  | 1 => 64 < e.srcIdx + e.count || 64 < e.dstIdx + e.count
  | 2 => 256 < e.srcIdx + e.count || 256 < e.dstIdx + e.count
  | _ => true

/-- The first bad entry of a carry map: bad in itself, or a destination that an entry before it writes. -/
def carryBad (old new : Prog) : Option Nat :=
  firstIdx (fun (x : Carry × Nat) =>
    carryEntryBad old new x.1 || (new.carry.take x.2).any fun f =>
      f.dest < x.1.dest + x.1.count && x.1.dest < f.dest + f.count) new.carry.zipIdx

/-- Step 6: CARRY, for a carry entry, or for a retyped point whose types do not convert (R279). -/
def State.carryItem (s : State) (old g : Prog) (y : Layout) : Option Nat :=
  match carryBad old g with
  | some k => some (y.carry + 16 * k)
  | none => (firstIdx (fun (d : PDef) => match s.windowPoint g.ctx d.idx with
      | some p => s.ptType p ≠ 0 && s.ptType p ≠ d.typ && !convertible (s.ptType p) d.typ
      | none => false) g.pdefs).map fun k => y.pdef + 16 * k

/-- The carry charge C (R277), with F of the slot's lane. -/
def State.carryCharge (s : State) (slot : Nat) (g : Prog) : Nat :=
  let f := match (s.slot slot).prog with | some o => (s.charges o.lane).f | none => 0
  let words := ((g.carry.filter fun e => e.kind = 0).map (·.count)).sum
  let bits := ((g.carry.filter fun e => e.kind ≠ 0).map (·.count)).sum
  2 * f * words + bits + 2 * (s.retypedPts g.ctx g.pdefs).length

/-- The program that replaces a slot's when its change switches. -/
def State.besideProg (s : State) (slot : Nat) : Option Prog :=
  match (s.slot slot).change with
  | some ch => (s.slot ch.beside).prog
  | none => none

/-- The largest per-lane sum of C of all armed changes of a class, with `also` armed (R277). -/
def State.armCharge (s : State) (also : Nat) (c : Nat) : Nat :=
  let armed := s.slots.filterMap fun e =>
    match e.2.prog, e.2.change with
    | some o, some ch => if (ch.armed.isSome ∨ e.1 = also) ∧ o.cls = c then some (o.lane, e.1) else none
    | _, _ => none
  ((List.range 8).map fun l => ((armed.filter fun x => x.1 = l).map fun x =>
    match s.besideProg x.2 with | some g => s.carryCharge x.2 g | none => 0).sum).foldl max 0

/-- Step 11: R195 fails with the carry charge of a change (R277). -/
def State.carryTooLong (s : State) (slot : Nat) (old : Option Prog) (g : Prog) : Bool :=
  match old with
  | some o => !s.budgetOk fun c => if c = o.cls then s.carryCharge slot g else 0
  | none => false

/-- The checks of a LOAD or CHANGE, in the order of Table LDR-5: the program, or the status and the offset. -/
def State.loadCheck (s : State) (chg : Bool) (slot : Nat) : Except (Nat × Nat) Prog :=
  let x := s.slot slot
  let old := if chg then x.prog else none
  let head := readBytes s.sram bufferBase 64
  let total := cw head 8 4
  let raw := if 64 ≤ total ∧ total ≤ 1048576 then readBytes s.sram bufferBase total else head
  let stateBad := x.loading || (if chg then !(x.state = 1 || x.state = 2) || x.change.isSome else x.state ≠ 0)
  if stateBad then .error (stSlotState, 0)
  else match containerBad s.small raw with
  | some o => .error (stContainer, o)
  | none =>
    let y := layoutOf raw
    let k := s.charges (cw raw 0x0C 4 / 2 ^ 12 % 8)
    match verifyCode k y.ns (entriesOf raw y) (dwordsOf (y.len / 8) (raw.drop y.code)) with
    | some (st, i) => .error (st, y.code + 8 * i)
    | none =>
      let g := parseProg k raw
      let moved := (g.gen + 65536 - (match old with | some o => o.gen | none => 0)) % 65536
      match s.loadInvalid g old y with
      | some o => .error (stInvalid, o)
      | none =>
        if chg && !(1 ≤ moved && moved ≤ 32767) then .error (stGeneration, 0x14)
        else match (match old with | some o => s.carryItem o g y | none => none) with
          | some o => .error (stCarry, o)
          | none => match s.forcedItem g.ctx old g.pdefs g.written with
            | some p => .error (stForcedPointRemoved, s.pdefOfs g y p)
            | none => match s.inUseItem slot g.ctx old g.pdefs with
              | some p => .error (stInUse, s.pdefOfs g y p)
              | none => match s.writerBad slot g with
                | some i => .error (stWriterConflict, y.code + 8 * i)
                | none =>
                  if s.loadCapacity g old || decide (slotLimit s.small ≤ slot) || (chg && s.freeSlot.isNone) then .error (stCapacity, 0)
                  else if !(s.setSlot slot { x with prog := some g, loading := true }).budgetOk || s.carryTooLong slot old g then
                    .error (stBudget, 0)
                  else .ok g

/-! ### Commands -/

abbrev opLoad : Nat := 1
abbrev opChange : Nat := 2
abbrev opSwitch : Nat := 3
abbrev opAbort : Nat := 4
abbrev opUnload : Nat := 5
abbrev opRestart : Nat := 6

abbrev State.ldrBusy (s : State) : Bool := bit (s.ldr 0x004) 31

/-- A count of slots not FREE. -/
def State.slotCount (s : State) (up : Bool) : State :=
  if up then
    let n := (s.ldr 0x024).toNat + 1
    let s := s.setLdr 0x024 (word n)
    if (s.ldr 0x028).toNat < n then s.setLdr 0x028 (word n) else s
  else s.setLdr 0x024 (s.ldr 0x024 - 1)

/-- STATE of LDR_STAT after a command on a slot (R272, R273): ARMED or READY as the slot's change is; without one, as the changes that
other slots hold, else IDLE (DESIGN CHOICE, log entry 55: with changes of several slots the register shows one). -/
def State.changeState (s : State) (slot : Nat) : Nat :=
  let has := fun (f : Change → Bool) => s.slots.any fun e => match e.2.change with
    | some ch => f ch
    | none => false
  match (s.slot slot).change with
  | some ch => if ch.armed.isSome then 5 else 4
  | none => if has (·.armed.isSome) then 5 else if has (fun _ => true) then 4 else 0
def State.noteState (s : State) (slot : Nat) : State :=
  if s.ldrBusy then s else s.setLdr 0x004 (setFld (s.ldr 0x004) 0 3 (s.changeState slot))

/-- A command ends its checks with a status (R282): BUSY sets, the counters count, and the record is written. The write of
LDR_CMD itself ends OK (DEDUCED, log 11). -/
def State.ldrEnd (s : State) (op slot st : Nat) : State × Nat :=
  let s := { s with loader := { s.loader with op := op, slot := slot, status := st, prog := none, since := s.tick } }
  let s := s.setLdr 0x004 (setBit (setFld (setFld (s.ldr 0x004) 0 3 (s.changeState slot)) 8 8 st) 31 true)
  let s := if st = stOk then s.addKey (lkey 0x040) 1 else s.addKey (lkey 0x048) 1
  (s.record 0x0720 [op, slot, st], stOk)

/-- How long a LOAD or CHANGE shows VERIFY and PLACE while it is in progress: within the 400 ms of R272 the spec gives no times, so they
are free (R282, log entry 55). -/
def State.ldrTimes (s : State) : State :=
  let f := s.freeWord.toNat
  ({ s with loader := { s.loader with verify := f % 2 ^ 32 % (400 * ftPerMs), place := f / 2 ^ 32 % (400 * ftPerMs) } }).draw

/-- A refused container, with the offset of the failing item (R269). -/
def State.ldrBad (s : State) (op slot st ofs : Nat) : State × Nat := ((s.setLdr 0x008 (word ofs)).ldrTimes).ldrEnd op slot st

/-- An accepted container, which goes to the archive and to the mirror before the command completes (R272). -/
def State.ldrTake (s : State) (g : Prog) : State := { s.ldrTimes with loader := { s.ldrTimes.loader with prog := some g } }

/-- LOAD (R269 to R272). -/
def ldrLoad (slot : Nat) (s : State) : State × Nat :=
  match s.loadCheck false slot with
  | .error (st, o) => s.ldrBad opLoad slot st o
  | .ok g =>
    let r := s.placeSects g.sects
    let s := r.1.setSlot slot { (r.1.slot slot) with prog := some g, sects := r.2, codeAt := (s.placeCode g).getD 0, loading := true,
                                                       loadedAt := none }
    let e := (s.setLdr 0x00C (word g.bound)).ldrEnd opLoad slot stOk
    (e.1.ldrTake g, e.2)

/-- CHANGE (R273): a beside holder, and with AUTO_SWITCH the arm of R277. -/
def ldrChange (slot : Nat) (auto : Bool) (s : State) : State × Nat :=
  match s.loadCheck true slot with
  | .error (st, o) => s.ldrBad opChange slot st o
  | .ok g =>
    let b := s.freeSlot.getD 0
    let r := s.placeSects g.sects
    let s := r.1.setSlot b { state := 3, prog := some g, sects := r.2, codeAt := (s.placeCode g).getD 0, holderOf := some slot }
    let s := s.initSects (s.slotSections b)
    let s := (s.slotCount true).setSlot slot { (s.slot slot) with change := some { beside := b } }
    let s := (s.setLdr 0x00C (word g.bound)).setLdr 0x010 (word (s.carryCharge slot g))
    let s := s.setLdr 0x004 (setFld (s.ldr 0x004) 16 10 b)
    let ok := auto && s.budgetOk (s.armCharge slot)
    let s := if ok then s.setSlot slot { (s.slot slot) with change := some { beside := b, armed := some s.tick } } else s
    let e := s.ldrEnd opChange slot (if auto && !ok then stBudget else stOk)
    ((if auto && !ok then e.1.addKey (lkey 0x040) 1 else e.1).ldrTake g, e.2)

/-- SWITCH (R273, R277). -/
def ldrSwitch (slot : Nat) (s : State) : State × Nat :=
  match (s.slot slot).change with
  | some ⟨b, none, unm⟩ =>
    if s.budgetOk (s.armCharge slot) then
      (s.setSlot slot { s.slot slot with change := some ⟨b, some s.tick, unm⟩ }).ldrEnd opSwitch slot stOk
    else s.ldrEnd opSwitch slot stBudget
  | _ => s.ldrEnd opSwitch slot stSlotState

/-- The slots of the due classes whose change or unload has its switch cycle in cycle `y`: it was armed before the cycle's base anchor ft
(R275, R280). -/
def State.switchSlots (s : State) (y : Cycle) : List Nat :=
  let early := fun (t : Option Nat) => match t with | some t => decide (t < y.at_) | none => false
  s.slots.filterMap fun e =>
    match e.2.prog with
    | some g =>
      if y.due / 2 ^ g.cls % 2 = 1 ∧ (early e.2.unload || early (e.2.change.bind (·.armed))) then some e.1 else none
    | none => none

/-- The slots that switch in the cycle in progress, from its OUTPUT commit ft on. -/
def State.switchingNow (s : State) : List Nat :=
  match s.scan.cycle with
  | some y => if y.phase = 2 then (if s.lanesDone && decide (s.endOfExecute y + 1 ≤ s.tick) then s.switchSlots y else []) else y.switching
  | none => []

/-- Free a beside holder. -/
def State.freeBeside (s : State) (slot b : Nat) : State :=
  (((s.setSlot b {}).setSlot slot { (s.setSlot b {}).slot slot with change := none })).slotCount false

/-- ABORT (R273). -/
def ldrAbort (slot : Nat) (s : State) : State × Nat :=
  match (s.slot slot).change with
  | some ⟨b, _, _⟩ =>
    if s.switchingNow.contains slot then s.ldrEnd opAbort slot stSlotState
    else (s.freeBeside slot b).ldrEnd opAbort slot stOk
  | _ => s.ldrEnd opAbort slot stSlotState

/-- UNLOAD (R280). -/
def ldrUnload (slot : Nat) (s : State) : State × Nat :=
  let x := s.slot slot
  match x.prog with
  | none => s.ldrEnd opUnload slot stSlotState
  | some g =>
    let bound := (List.range 64).any fun e => s.regBit pgSCN (0x400 + 4 * e) 31 && s.regFld pgSCN (0x400 + 4 * e) 0 10 = slot
    if !(x.state = 1 || x.state = 2) then s.ldrEnd opUnload slot stSlotState
    else if s.forcedBad g.ctx (some g) [] [] then s.ldrEnd opUnload slot stForcedPointRemoved
    else if bound || (s.inUseItem slot g.ctx (some g) []).isSome then s.ldrEnd opUnload slot stInUse
    else (s.setSlot slot { x with unload := some s.tick }).ldrEnd opUnload slot stOk

/-- RESTART (R280). -/
def ldrRestart (slot : Nat) (s : State) : State × Nat :=
  let x := s.slot slot
  if x.state = 2 then (s.setSlot slot { x with restarting := some s.tick }).ldrEnd opRestart slot stOk
  else s.ldrEnd opRestart slot stSlotState

/-- A write of LDR_CMD: refused while a command is in progress (R266). -/
def ldrCmd (f : State → State × Nat) (s : State) : State × Nat :=
  if s.ldrBusy then (s.addKey (lkey 0x048) 1, stLoaderBusy) else f s

/-- LDR_CMD as a register write (Table LDR-11). -/
def ldrCmdEffect (data : Word) (s : State) : State × Nat :=
  let slot := fld data 4 10
  match fld data 0 4 with
  | 1 => ldrCmd (ldrLoad slot) s
  | 2 => ldrCmd (ldrChange slot (bit data 16)) s
  | 3 => ldrCmd (ldrSwitch slot) s
  | 4 => ldrCmd (ldrAbort slot) s
  | 5 => ldrCmd (ldrUnload slot) s
  | 6 => ldrCmd (ldrRestart slot) s
  | _ => (s, stOk)

def execLoad (p : Path) (slot : Nat) (s : State) : Out := access (fun s => s.port p pgSCN false (ldrCmd (ldrLoad slot))) s
def execChange (p : Path) (slot : Nat) (auto : Bool) (s : State) : Out :=
  access (fun s => s.port p pgSCN false (ldrCmd (ldrChange slot auto))) s
def execSwitch (p : Path) (slot : Nat) (s : State) : Out := access (fun s => s.port p pgSCN false (ldrCmd (ldrSwitch slot))) s
def execAbort (p : Path) (slot : Nat) (s : State) : Out := access (fun s => s.port p pgSCN false (ldrCmd (ldrAbort slot))) s
def execUnload (p : Path) (slot : Nat) (s : State) : Out := access (fun s => s.port p pgSCN false (ldrCmd (ldrUnload slot))) s
def execRestart (p : Path) (slot : Nat) (s : State) : Out := access (fun s => s.port p pgSCN false (ldrCmd (ldrRestart slot))) s

/-- The two newest generations of each slot stay in the archive (R281). -/
def archiveAdd (slot : Nat) (g : Prog) (l : List (Nat × Prog)) : List (Nat × Prog) :=
  (slot, g) :: ((l.filter fun e => e.1 = slot).take 1 ++ l.filter fun e => e.1 ≠ slot)

/-- An accepted container enters the archive; the primary of an intact pair mirrors it to its standby (R272, R523). -/
def State.archiveNew (s : State) (slot : Nat) (g : Prog) : State :=
  let s := { s with loader := { s.loader with archive := archiveAdd slot g s.loader.archive, prog := none } }
  if s.pair.up && s.regFld pgPAR 0x044 0 2 = 1 && decide (s.regFld pgPAR 0x044 2 4 ≠ 0) then
    { s with pair := { s.pair with archOut := s.pair.archOut ++ [(slot, g.gen)] } }
  else s

/-- The generation of a slot as MRAM records it (R281). -/
def State.noteGen (s : State) (n : Nat) : State :=
  let x := s.slot n
  let gen := if x.state = 1 || x.state = 2 then x.prog.map (·.gen) else none
  { s with loader := { s.loader with recorded := Tbl.set (fun _ => none) s.loader.recorded n gen } }
def State.noteGens (s : State) : List Nat → State
  | [] => s
  | n :: t => (s.noteGen n).noteGens t

/-- LOADER_COMMAND_COMPLETE (R272): an accepted container is archived, mirrored where the Col link is up, and BUSY clears. -/
def loaderComplete (s : State) : State :=
  if s.ldrBusy then
    let s := s.until (s.fabric.changing.foldl (fun m (e : Nat × Nat) => max m e.2) 0)
    let x := s.loader
    let s := match x.prog with
      | some g => s.archiveNew x.slot g
      | none => s
    let unm := if x.prog.isSome then !s.pair.up else bit (s.ldr 0x004) 3
    let s := if x.op = opChange && x.prog.isSome && unm then
        match (s.slot x.slot).change with
        | some ch => s.setSlot x.slot { s.slot x.slot with change := some { ch with unmirrored := true } }
        | none => s
      else s
    let s := if x.op = opLoad && x.prog.isSome then s.setSlot x.slot { s.slot x.slot with loadedAt := some s.tick } else s
    let st := if x.op = opLoad ∧ x.prog.isSome then 0 else s.changeState x.slot
    s.setLdr 0x004 (setBit (setBit (setFld (s.ldr 0x004) 0 3 st) 3 unm) 31 false)
  else s

def execLoaderCommandComplete (s : State) : Out := event (fun s => loaderComplete s) s

/-! ### The load buffer (R267) -/

/-- A write of the window below the loader registers. -/
def loadBufferEffect (ofs : Nat) (data : Word) (s : State) : State × Nat :=
  if 0x100000 ≤ ofs then (s, stAbsent)
  else if s.ldrBusy then (s, stDenied)
  else (s.store (bufferBase + ofs / 4 * 4) (leBytes 4 data.toNat), stOk)

/-- LOAD_BUFFER_WRITE (R267). -/
def execLoadBufferWrite (p : Path) (ofs : Nat) (data : Word) (s : State) : Out :=
  access (fun s => s.port p pgSCN false (loadBufferEffect ofs data)) s

/-- HWM_CLR of the loader. -/
def ldrHwmEffect (data : Word) (s : State) : State × Nat :=
  (if bit data 0 then s.setLdr 0x028 (s.ldr 0x024) else s, stOk)

/-! ### Starting and switching (R271, R275 to R280) -/

/-- An accepted LOAD takes effect at the capture ft of its first cycle (R271). -/
def State.startLoad (s : State) (slot : Nat) : State :=
  let x := s.slot slot
  match x.prog with
  | none => s
  | some g =>
    let s := (s.setSlot slot { x with state := 1, loading := false, loadedAt := none, timers := [], edges := edgeTable g.edgeInit, faults := 0,
                                      faulted := false }).slotCount true
    let s := (s.initSects (s.slotSections slot)).noteGen slot
    s.applyPoints slot g.ctx none (some g)

/-- Carry one entry from the old slot to the new content (R276, R279). -/
def State.carryWords (s : State) (src dst2 : Nat) (dst : Nat) (st dt : Nat) : Nat → State
  | 0 => s
  | n + 1 =>
    let r := convert st dt (BitVec.ofNat 64 (s.load src 8))
    let b := leBytes 8 r.1.toNat
    let s := s.store dst b
    let s := if dst2 = 0 then s else s.store dst2 b
    let s := if r.2 then s.addKey (lkey 0x04C) 1 else s
    s.carryWords (src + 8) (if dst2 = 0 then 0 else dst2 + 8) (dst + 8) st dt n

/-- The sections' part of the carry. -/
def State.carrySects (s : State) (old new : Slot) : List Carry → State
  | [] => s
  | e :: t =>
    let s :=
      if e.kind = 0 then
        match old.sects[e.srcSect]?, new.sects[e.dstSect]? with
        | some a, some b =>
          let len := match new.prog with
            | some g => match g.sects[e.dstSect]? with | some x => if x.retained then x.len else 0 | none => 0
            | none => 0
          let d := b + 8 * e.dstIdx
          s.carryWords (a + 8 * e.srcIdx) (if len = 0 then 0 else d + len) d e.srcType e.dstType e.count
        | _, _ => s
      else s
    s.carrySects old new t

/-- The carried timers and edges. -/
def carryTimers (old : Tbl Timer) : List Carry → Tbl Timer → Tbl Timer
  | [], t => t
  | e :: r, t =>
    carryTimers old r (if e.kind = 1 then
      (List.range e.count).foldl (fun t i => Tbl.set (fun _ => {}) t (e.dstIdx + i) (Tbl.get (fun _ => {}) old (e.srcIdx + i))) t
    else t)
def carryEdges (old : Tbl Bool) : List Carry → Tbl Bool → Tbl Bool
  | [], t => t
  | e :: r, t =>
    carryEdges old r (if e.kind = 2 then
      (List.range e.count).foldl (fun t i => Tbl.set (fun _ => false) t (e.dstIdx + i) (Tbl.get (fun _ => false) old (e.srcIdx + i))) t
    else t)

/-- The switch ft of one slot (Table LDR-6, R278, R280). An UNLOAD comes before a change that the slot also holds, whose beside holder is
freed (DESIGN CHOICE, log entry 55: the rules name no order). -/
def State.switchSlot (s : State) (slot : Nat) : State :=
  let x := s.slot slot
  match x.unload, x.change, x.prog with
  | some _, ch, some old =>
    let s := match ch with | some ch => s.freeBeside slot ch.beside | none => s
    let s := s.applyPoints slot old.ctx (some old) none
    let s := ((s.setSlot slot {}).slotCount false).noteState slot
    s.record 0x0723 [slot, old.gen]
  | none, some ⟨b, _, _⟩, some old =>
    let y := s.slot b
    match y.prog with
    | none => s
    | some g =>
      let s := s.carrySects x y g.carry
      let s := s.applyPoints slot g.ctx (some old) (some g)
      let s := (s.setSlot b {}).setSlot slot
        { state := 1, prog := some g, sects := y.sects, codeAt := y.codeAt, timers := carryTimers x.timers g.carry [],
          edges := carryEdges x.edges g.carry (edgeTable g.edgeInit) }
      (((s.slotCount false).noteState slot).addKey (lkey 0x044) 1).record 0x0721 [slot, old.gen, g.gen]
  | _, _, _ => s

def State.switchAll (s : State) : List Nat → State
  | [] => s
  | n :: t => (s.switchSlot n).switchAll t

/-- The recheck of R173 in the OUTPUT commit ft of a switch cycle: a change returns to READY, an unload is dropped. -/
def State.recheck (s : State) : List Nat → State × List Nat
  | [] => (s, [])
  | n :: t =>
    let x := s.slot n
    match x.prog with
    | some old =>
      let new := if x.unload.isSome then none else s.besideProg n
      let defs := match new with | some g => g.pdefs | none => []
      let wr := match new with | some g => g.written | none => []
      if s.forcedBad old.ctx (some old) defs wr then
        let op := if x.unload.isSome then opUnload else opSwitch
        let s := s.setSlot n (if x.unload.isSome then { x with unload := none }
          else { x with change := x.change.map fun (ch : Change) => ({ ch with armed := none } : Change) })
        let s := (s.addKey (lkey 0x048) 1).record 0x0720 [op, n, stForcedPointRemoved]
        let s := (s.setLdr 0x004 (setFld (s.ldr 0x004) 8 8 stForcedPointRemoved)).noteState n
        s.recheck t
      else
        let r := s.recheck t
        (r.1, n :: r.2)
    | none => s.recheck t

/-- STATE of LDR_STAT as read: while a LOAD or CHANGE is in progress VERIFY, then PLACE and MIRROR once its container is accepted. -/
def State.ldrState (s : State) : Nat :=
  let x := s.loader
  if s.ldrBusy && (x.op = opLoad || x.op = opChange) then
    (if x.prog.isNone || decide (s.tick < x.since + x.verify) then 1 else if s.tick < x.since + x.verify + x.place then 2 else 3)
  else fld (s.ldr 0x004) 0 3

/-- SLOT_INFO, SLOT_GEN, SLOT_PID and SLOT_CODE of a slot (Table LDR-11). -/
def State.slotInfo (s : State) (n : Nat) : Word :=
  let x := s.slot n
  match x.prog with
  | some g => if x.state = 0 then 0 else word (x.state + 16 * g.lane + 256 * g.cls + 2048 * b2n g.event + 65536 * g.ctx)
  | none => 0
def State.slotGen (s : State) (n : Nat) : Word :=
  match (s.slot n).prog with
  | some g =>
    if (s.slot n).state = 0 then 0
    else word (g.gen + 65536 * (match s.besideProg n with | some b => b.gen | none => 0))
  | none => 0
def State.slotPid (s : State) (n : Nat) : Word :=
  match (s.slot n).prog with | some g => if (s.slot n).state = 0 then 0 else g.pid | none => 0
def State.slotCode (s : State) (n : Nat) : Word := if (s.slot n).state = 0 then 0 else word (s.slot n).codeAt

end Sys2Proof.Machine
end

