-- ==== Sys2Proof/Machine/Fault.lean ====
section
/-! DEFINITION. The module fault (R537 to R541), the role of the module in its pair as every block sees it (Tables PAR-4 and
PAR-9), and the conditions under which a base cycle may start (R203, R533). -/

namespace Sys2Proof.Machine

set_option cleanup.letToHave false

open Sys2Proof.Config

/-! ### Role and pair state -/

abbrev roleNone : Nat := 0
abbrev rolePrimary : Nat := 1
abbrev roleStandby : Nat := 2
abbrev State.role (s : State) : Nat := s.regFld pgPAR 0x044 0 2
abbrev State.pairState (s : State) : Nat := s.regFld pgPAR 0x044 2 4

/-- Pair states (Table PAR-4). -/
abbrev psSolo : Nat := 0
abbrev psJoin : Nat := 1
abbrev psArchive : Nat := 2
abbrev psResync : Nat := 3
abbrev psSync : Nat := 4
abbrev psLag : Nat := 5
abbrev psOrphan : Nat := 6
abbrev psMismatch : Nat := 7
abbrev psFaulted : Nat := 8

abbrev State.isStandby (s : State) : Bool := s.role = roleStandby

/-- COPY runs at the end of a cycle of this primary (R514). -/
def State.copyRuns (s : State) : Bool :=
  s.role = rolePrimary && (s.pairState = psResync || s.pairState = psSync || s.pairState = psLag)

/-- PAR.STAT.STATE changes; IRQ_PEND bit 1 sets when IN_SYNC changes (R526). Entry into RESYNC marks every word dirty
(R514). -/
def State.setPairState (s : State) (st : Nat) : State :=
  let was := s.pairState = psSync
  let s := s.setReg pgPAR 0x044 (setBit (setFld (s.reg pgPAR 0x044) 2 4 st) 10 (decide (st = psSync)))
  let s := if was ≠ (st = psSync) then s.setPend pgPAR 1 else s
  if st = psResync then { s with pair := { s.pair with dirtyFrom := some 0 } } else s

/-- PAR.STAT.ROLE changes (R511): IRQ_PEND bit 0 sets. -/
def State.setRole (s : State) (r : Nat) : State :=
  if s.role = r then s else (s.setRegFld pgPAR 0x044 0 2 r).setPend pgPAR 0

/-- STANDBY_SELF_TEST_FAIL (R516, Table PAR-7): STF takes the code, IRQ_PEND bit 6 sets, and the standby is FAULTED. -/
def State.selfTestFail (s : State) (code : Nat) : State :=
  if s.isStandby && s.pairState ≠ psFaulted then ((s.setReg pgPAR 0x0B8 (word code)).setPend pgPAR 6).setPairState psFaulted else s

/-! ### Module states -/

/-- SYS.SYS_STATE.STATE (Table SYS-7). -/
abbrev ssBoot : Nat := 0
abbrev ssRestore : Nat := 1
abbrev ssWait : Nat := 2
abbrev ssRun : Nat := 3
abbrev ssFault : Nat := 4
abbrev ssHalted : Nat := 5
abbrev ssSave : Nat := 6
abbrev State.sysState (s : State) : Nat := s.regFld pgSYS 0x040 0 3
abbrev State.setSysState (s : State) (v : Nat) : State := s.setRegFld pgSYS 0x040 0 3 v

/-- PWR.PWR_STATE (Table PWR-6). -/
abbrev pwStart : Nat := 0
abbrev pwNormal : Nat := 1
abbrev pwRide : Nat := 2
abbrev pwSave : Nat := 3
abbrev pwDown : Nat := 4
abbrev State.pwrState (s : State) : Nat := s.regFld pgPWR 0x040 0 3
abbrev State.setPwrState (s : State) (v : Nat) : State := s.setRegFld pgPWR 0x040 0 3 v

/-- In a module fault, in FAULT or HALTED (R539, R541). -/
abbrev State.faulted (s : State) : Bool := s.sys.fault ≠ 0

/-- A save runs. -/
def State.saving (s : State) : Bool := s.sysState = ssSave || s.pwrState = pwSave

/-- Scheduled work runs: the rails are up, the I/O domains are released, and neither a fault nor a save has stopped it. -/
def State.working (s : State) : Bool :=
  s.power.powered && s.sys.released && !s.faulted && s.pwrState ≠ pwSave && s.pwrState ≠ pwDown && s.sysState ≠ ssSave

/-- The LOAD of a slot completed before this ft: one that completes in a base anchor ft belongs to the following cycle (R271, R272). -/
def State.loadDone (s : State) (n : Nat) : Bool := s.sooner (s.slot n).loadedAt

/-- A program is loaded (R534): it runs, or its LOAD has completed. -/
def State.hasProgram (s : State) : Bool :=
  s.slots.any fun e => (e.2.loading && s.loadDone e.1) || e.2.state = 1 || e.2.state = 2

/-- The role allows cycles (R203, R512, R533): PRIMARY, or SOLO with no partner to wait for. -/
def State.roleRuns (s : State) : Bool :=
  s.role = rolePrimary || (s.role = roleNone && (!s.regBit pgPAR 0x040 0 || s.pair.solo))

/-- A base cycle could start at a base anchor (R203, R204, R533, R534). A write of RUN in its ft comes too late for it (R129). -/
def State.canCycle (s : State) : Bool :=
  s.ridge.locked && s.working && s.roleRuns && (s.sys.firstDone || s.pwrState = pwNormal) &&
  bit (s.sampledKey (rkey pgSCN 0x040)) 0 && s.hasProgram

/-! ### The running image -/

/-- The image of a slot of the image flash; a slot without a manifest reads as zeros (log entry 1). -/
def State.imageOf (s : State) (slot : Nat) : Image := Tbl.get (fun _ => {}) s.upd.image slot
abbrev State.activeImage (s : State) : Image := s.imageOf s.upd.active

/-! ### The module fault -/

abbrev mfCredit : Nat := 1
abbrev mfEccSup : Nat := 2
abbrev mfCycle : Nat := 3
abbrev mfWdtSup : Nat := 4
abbrev mfRail : Nat := 5
abbrev mfClock : Nat := 6
abbrev mfSoftware : Nat := 7

/-- Whether Table SYS-4 gives a save, and its WARM_OK. -/
abbrev faultSaves (code : Nat) : Bool := code = mfCredit || code = mfCycle || code = mfSoftware
abbrev faultWarm (code : Nat) : Bool := code ≠ mfCredit

/-- A lane's work in progress ends with nothing of it in force. -/
def Lane.abandon (l : Lane) : Lane :=
  { l with running := false, evb := none, runs := 0, frames := [], loops := [], held := [], ended := [], work := [],
           posts := [], wait := none, cred := false, reg := false }

/-- Every block's work in progress ends (R539): cycle, lanes, lookups, loop samples and pending outputs, COPY. -/
def State.endWork (s : State) : State :=
  let cyc := s.scan
  { s with lanes := Tbl.mapVals (fun _ => {}) Lane.abandon s.lanes,
           scan := { cyc with cycle := none },
           points := { s.points with lookups := [] },
           loops := { s.loops with loop := Tbl.mapVals (fun _ => {}) (fun (x : Loop) => { x with pend := none, cap := none }) s.loops.loop,
                                   running := [] },
           pair := { s.pair with out := none } }

/-- The module faults within FAULT_WINDOW minutes before now. -/
def State.recentFaults (s : State) : List Nat :=
  s.sys.faultAts.filter fun t => s.tick ≤ t + s.regFld pgSYS 0x054 24 8 * 60 * ftPerS

/-- A module fault (R538, R539): work ends, terminals take their safe states, the fault is recorded, SYS_STATE becomes FAULT
(a power-on reset in the same ft follows it where the fault's own rule says so). A save that a power-fail decision of this ft has started
carries the fault's WARM_OK. -/
def State.moduleFault (s : State) (code : Nat) : State :=
  let s := s.endWork
  let fs := s.tick :: s.recentFaults
  let draft := s.sys.draft.map fun (r : SaveRec) => if r.img.at_ = s.tick then ({ r with warmOk := r.warmOk && faultWarm code } : SaveRec) else r
  let s := { s with sys := { s.sys with fault := code, faultAt := s.tick, faultAts := fs, draft := draft,
                                        saveCause := if faultSaves code then 5 else s.sys.saveCause, faultSaved := false } }
  let s := s.setReg pgSYS 0x058 (word (code + 256 + 4096 * min fs.length 15))
  let s := (s.setReg64 pgSYS 0x05C s.tick).setReg pgSYS 0x064 (s.reg pgPHT 0x050)
  let s := (s.bump pgSYS 0x10C).setSysState ssFault
  let s := if s.regBit pgSYS 0x054 0 then s.setPend pgSYS 2 else s
  s.record 0x0102 [code, s.tick, (s.reg pgPHT 0x050).toNat]

/-- SUPERVISOR_CONSISTENCY_FAULT (R538). -/
def execSupervisorConsistencyFault (s : State) : Out := event (fun s => if s.alive then s.moduleFault mfSoftware else s) s

end Sys2Proof.Machine
end

