-- ==== Sys2Proof/Machine/Fabric.lean ====
section
/-! DEFINITION. The Saddle fabric (R406 to R427): requests, grants and parking, conflicts, priorities, starvation, bank power,
the scrubber and the background test. -/

namespace Sys2Proof.Machine

set_option cleanup.letToHave false

open Sys2Proof.Config

/-! ### Beats (R407 to R409, R416) -/

/-- FAB.PRIOm, the position of a master. -/
abbrev State.prioOf (s : State) (m : Nat) : Nat := s.regFld pgFAB (0x060 + 4 * m) 0 5

/-- The path has a beat for ft t. -/
def FabPath.beats (x : FabPath) (t : Nat) : Bool := x.busy && x.start ≤ t
/-- One beat crosses; after the last one the path stays parked on its owner. -/
def FabPath.cross (x : FabPath) : FabPath :=
  if x.left ≤ 1 then { x with busy := false, parked := true, left := 0, sent := 0 }
  else { x with left := x.left - 1, sent := x.sent + 1, addr := x.addr + 32 }

/-- Ft t: a beat of each path crosses, and where both reach one bank the owner of lower position stalls (R416). -/
def State.fabFt (s : State) (t : Nat) : State :=
  let f := s.fabric
  let b0 := f.d0.beats t
  let b1 := f.d1.beats t
  if b0 && b1 && bankOf f.d0.addr = bankOf f.d1.addr then
    let zeroStalls := s.prioOf f.d1.owner < s.prioOf f.d0.owner
    let f := if zeroStalls then { f with d1 := f.d1.cross, upTo := t + 1 } else { f with d0 := f.d0.cross, upTo := t + 1 }
    ({ s with fabric := f }).bump pgFAB (0x240 + 4 * (if zeroStalls then f.d0.owner else f.d1.owner))
  else
    { s with fabric := { f with d0 := if b0 then f.d0.cross else f.d0, d1 := if b1 then f.d1.cross else f.d1, upTo := t + 1 } }

/-! ### Requests and grants -/

/-- A master's sideband line is asserted (R413); the masters that the MF2048-A lacks stay masked (R15). -/
def State.fabMasked (s : State) (m : Nat) : Bool :=
  s.regBit pgFAB 0x04C m || (s.small && ((8 ≤ m && m ≤ 11) || m = 15))

/-- The place of a new request (R410): behind the last request of a higher or equal position, and behind the last one that its
master has passed already. -/
def fabEnter (pos : Nat → Nat) (r : FabReq) : List FabReq → List FabReq
  | [] => [r]
  | e :: t =>
    if (e :: t).any (fun q => pos q.m ≤ pos r.m || q.passedBy.contains r.m) then e :: fabEnter pos r t else r :: e :: t

/-- A grant in ft `d` (R407, R408, R410, R436): the path with its first beat in ft `start`, the counters, and who was passed. -/
def State.fabGrant (s : State) (d1 : Bool) (r : FabReq) (d start : Nat) : State :=
  let x : FabPath := { owner := r.m, busy := true, start := start, left := r.beats, addr := r.addr }
  let f := s.fabric
  let q := f.queue.map fun e => { e with passedBy := if e.passedBy.contains r.m then e.passedBy else r.m :: e.passedBy }
  let f := { f with queue := q, mayAt := Tbl.set (fun _ => 0) f.mayAt r.m (d + 12) }
  let s := { s with fabric := if d1 then { f with d1 := x } else { f with d0 := x } }
  let s := s.bump pgFAB (0x200 + 4 * r.m)
  let wait := start - r.since
  if (s.reg pgFAB (0x2C0 + 4 * r.m)).toNat < wait then s.setReg pgFAB (0x2C0 + 4 * r.m) (word wait) else s

/-- The decision of ft t (R407, R410): a path that is free, or whose last beat crosses in this ft, goes to the head of the queue if that
was raised in an earlier ft. D0 comes before D1. -/
def State.fabDecide (s : State) (t : Nat) : State :=
  match s.fabric.queue with
  | [] => s
  | r :: rest =>
    if r.since < t && !(s.fabric.d0.busy && s.fabric.d1.busy) then
      ({ s with fabric := { s.fabric with queue := rest } }).fabGrant s.fabric.d0.busy r t (t + 1)
    else s
/-- Ft t: its beats, and its decision for each path. -/
def State.fabStep (s : State) (t : Nat) : State := ((s.fabFt t).fabDecide t).fabDecide t

/-- The ft up to `t` are accounted for. Sixteen waiting bursts of 8 beats, each beat stalled once, end within 400 ft. -/
def State.fabRun (s : State) (t : Nat) : Nat → State
  | 0 => { s with fabric := { s.fabric with upTo := max s.fabric.upTo (t + 1) } }
  | n + 1 =>
    if t < s.fabric.upTo then s
    else if s.fabric.queue.isEmpty && !s.fabric.d0.busy && !s.fabric.d1.busy then { s with fabric := { s.fabric with upTo := t + 1 } }
    else (s.fabStep s.fabric.upTo).fabRun t n
/-- Up to the present ft; and for an access or a request, which come before the beats of their ft (R13, R138), up to the ft before. -/
def State.fabSync (s : State) : State := s.fabRun s.tick 400
def State.fabPast (s : State) : State := if s.tick = 0 then s else s.fabRun (s.tick - 1) 400

/-- The burst limit of a master (R406, R481): 8 − code of FUSE_BURST0 or FUSE_BURST1. -/
def State.burstLimit (s : State) (m : Nat) : Nat :=
  8 - (if m < 10 then fld s.fabric.burst0 (3 * m) 3 else fld s.fabric.burst1 (3 * (m - 10)) 3)

/-- The path is parked on master m (R409). -/
def FabPath.parkedOn (x : FabPath) (m : Nat) : Bool := x.parked && !x.busy && x.owner = m

/-- A request in the present ft, whose decision is still open (R408 to R410): at once where a path is parked on its master and the
decision of this ft leaves it there (R409), else into the queue. -/
def State.fabRaise (s : State) (m beats addr : Nat) : State :=
  let f := s.fabric
  if (f.queue.any fun e => e.m = m) || (f.d0.busy && f.d0.owner = m) || (f.d1.busy && f.d1.owner = m) then s
  else
    let r : FabReq := { m := m, beats := min beats (s.burstLimit m), addr := addr / 32 * 32, since := s.tick }
    let then_ := s.fabSync.fabric
    if f.d0.parkedOn m && then_.d0.parkedOn m then s.fabGrant false r s.tick s.tick
    else if f.d1.parkedOn m && then_.d1.parkedOn m then s.fabGrant true r s.tick s.tick
    else { s with fabric := { f with queue := fabEnter s.prioOf r f.queue } }

/-- FABRIC_REQUEST: a burst of 1 to 8 beats from byte address `addr`, in the first ft in which the master may raise it (R408). -/
def fabricRequest (m beats addr : Nat) (s : State) : State :=
  if s.fabMasked m then s
  else
    let s := s.fabPast
    let s := s.until (max (Tbl.get (fun _ => 0) s.fabric.mayAt m) s.fabric.upTo)
    s.fabPast.fabRaise m beats addr
def execFabricRequest (m beats addr : Nat) (s : State) : Out := event (fun s => fabricRequest m beats addr s) s

/-- The ft pass until the queue is shorter than `q`. -/
def State.fabUntil (s : State) (q : Nat) : Nat → State
  | 0 => s
  | n + 1 => if s.fabric.queue.length < q then s else ((s.elapse 1).fabSync).fabUntil q n

/-- PATH_GRANT (R407, R410): the head of the queue takes a path in the first ft of decision; its beats start in the next. -/
def pathGrant (s : State) : State :=
  let p := s.fabPast
  if p.fabric.queue.isEmpty then p else p.fabSync.fabUntil p.fabric.queue.length 40
def execPathGrant (s : State) : Out := event (fun s => pathGrant s) s

/-- STARVATION (R415): a request still waits, not granted in this ft either, when its wait passes the threshold. -/
def starvation (m : Nat) (s : State) : State :=
  let s := s.fabPast
  match s.fabric.queue.find? fun e => e.m = m && !e.counted with
  | none => s
  | some r =>
    let s := (s.until (r.since + s.regFld pgFAB 0x044 0 16 + 1)).fabSync
    if s.fabric.queue.any fun e => e.m = m then
      let q := s.fabric.queue.map fun e => if e.m = m then { e with counted := true } else e
      let s := ({ s with fabric := { s.fabric with queue := q } }).setRegBit pgFAB 0x048 m true
      (s.bump pgFAB (0x280 + 4 * m)).event pgFAB 0 [m, s.prioOf m, s.tick - r.since]
    else s
def execStarvation (m : Nat) (s : State) : Out := event (fun s => starvation m s) s

/-- A path that its masked owner leaves: the beat of this ft completes, no further one is performed (R413). -/
def FabPath.leave (x : FabPath) (m : Nat) : FabPath := if x.owner = m then {} else x

/-- SIDEBAND_ASSERT (R413): the request is gone before the decision of this ft, and the path is free behind its beat. -/
def sidebandAssert (m : Nat) (on : Bool) (s : State) : State :=
  let s := s.fabPast
  let f := s.fabric
  if on then
    let s := ({ s with fabric := { f with queue := f.queue.filter fun e => e.m ≠ m } }).fabSync
    let f := s.fabric
    ({ s with fabric := { f with d0 := f.d0.leave m, d1 := f.d1.leave m } }).setRegBit pgFAB 0x04C m true
  else if s.small && ((8 ≤ m && m ≤ 11) || m = 15) then s
  else
    let may := max (Tbl.get (fun _ => 0) f.mayAt m) (s.tick + 1)
    ({ s with fabric := { f with mayAt := Tbl.set (fun _ => 0) f.mayAt m may } }).setRegBit pgFAB 0x04C m false
def execSidebandAssert (m : Nat) (on : Bool) (s : State) : Out := event (fun s => sidebandAssert m on s) s

/-- The beats that a path's owner may still send (R411). -/
def FabPath.owed (x : FabPath) : Nat := if x.busy then 8 - x.sent else 0
/-- FAB.HINTm (R411): the place in the queue, and the estimate behind the beats of this ft. -/
def State.fabHint (s : State) (m : Nat) : Word :=
  let s := s.fabPast
  let s := if s.fabric.upTo ≤ s.tick then s.fabFt s.tick else s
  let pos := (s.fabric.queue.findIdx fun e => e.m = m) + 1
  if s.fabric.queue.length < pos then 0
  else word (pos + 65536 * (min s.fabric.d0.owed s.fabric.d1.owed + 2 + 10 * (pos - 1)))

/-- FAB.PATHS. -/
def State.fabPaths (s : State) : Word :=
  let f := s.fabPast.fabric
  word (f.d0.owner + 16 * b2n f.d0.busy + 32 * b2n (f.d0.parked && !f.d0.busy) +
    256 * f.d1.owner + 4096 * b2n f.d1.busy + 8192 * b2n (f.d1.parked && !f.d1.busy))

/-! ### Priority (R414) -/

/-- Eight positions as one word of a record. -/
def packPos (s : State) (f : State → Nat → Nat) (lo : Nat) : Nat :=
  ((List.range 8).map fun j => f s (lo + j) * 2 ^ (8 * j)).sum

/-- A request among requests in the order of their positions. -/
def fabPlace (pos : Nat → Nat) (r : FabReq) : List FabReq → List FabReq
  | [] => [r]
  | e :: t => if pos r.m ≤ pos e.m then r :: e :: t else e :: fabPlace pos r t

/-- SHADOW_COMMIT of FAB (R414). -/
def fabCommit (s : State) : State × Nat :=
  let new := fun (s : State) m => fld (s.getShadow pgFAB (0x060 + 4 * m)) 0 5
  let ps := (List.range 16).map (new s)
  if new s 0 ≠ 1 || !(ps.all fun p => 1 ≤ p && p ≤ 16) || !decide ps.Nodup then s.commitErr pgFAB
  else
    let old := fun (s : State) m => s.prioOf m
    let s := s.record 0x0420 [packPos s old 0, packPos s old 8, packPos s new 0, packPos s new 8]
    let s := (s.fabPast).applyShadows pgFAB (shadowOfs pgFAB)
    let q := s.fabric.queue.foldr (fabPlace s.prioOf) []
    let s := { s with fabric := { s.fabric with queue := q } }
    (if s.hasProgram then ({ s with scan := { s.scan with prio := true } }).noteCause 3 else s, stOk)

/-! ### Banks (R418 to R420) -/

/-- FAB.BANK_ALLOC (R418): the groups with a section; once the supervisor runs its load buffer, DMA buffers and the spare
region, those of groups 6 and 7 (Table FAB-6). -/
def State.bankAlloc (s : State) (b : Nat) : Bool :=
  let g := b / 4
  (s.sys.released && 6 ≤ g) ||
  s.placed.any fun x => decide (x.2.2.2 ≠ 0) && x.2.2.1 < (g + 1) * 2097152 && g * 2097152 < x.2.2.1 + x.2.2.2
def State.bankAllocWord (s : State) : Word := word (((List.range 32).map fun b => if s.bankAlloc b then 2 ^ b else 0).sum)

/-- A bank loses its content. -/
def State.clearBank (s : State) (b : Nat) : State :=
  { s with sram := Tbl.clear (fun a => bankOf a = b) s.sram,
           fabric := { s.fabric with poison := Tbl.clear (fun w => bankOf (32 * w) = b) s.fabric.poison } }

def State.setBankStat (s : State) (b v : Nat) : State := s.setRegFld pgFAB (if b < 16 then 0x0E8 else 0x0EC) (2 * (b % 16)) 2 v

/-- One bank takes its new state: RETENTION and OFF at once, ON after its time (R419). -/
def State.bankTo (s : State) (b old new : Nat) : State :=
  if old = new then s
  else
    let f := s.fabric
    if new = 0 then
      let f := { f with changing := Tbl.set (fun _ => 0) f.changing b (s.tick + if old = 1 then 400 else 16384) }
      ({ s with fabric := f }).setBankStat b 3
    else
      let s := { s with fabric := { f with changing := Tbl.drop b f.changing } }
      let s := if new = 2 then s.clearBank b else s
      (s.setBankStat b new).setPend pgFAB 4
def State.banksTo (s : State) (which : Nat) (old new : Word) : Nat → State
  | 0 => s
  | j + 1 => (s.bankTo (16 * which + j) (fld old (2 * j) 2) (fld new (2 * j) 2)).banksTo which old new j

/-- A bank field of 3 clamps to 2. -/
def bankClamp (w : Word) : Nat → Word
  | 0 => w
  | j + 1 => bankClamp (if fld w (2 * j) 2 = 3 then setFld w (2 * j) 2 2 else w) j

/-- A write of BANK_PWR0 or BANK_PWR1 (R418). -/
def bankPwrEffect (which : Nat) (w : Word) (s : State) : State × Nat :=
  let o := 0x0E0 + 4 * which
  let new := bankClamp w 16
  let old := s.reg pgFAB o
  if (List.range 16).any fun j => fld old (2 * j) 2 = 0 && fld new (2 * j) 2 ≠ 0 && s.bankAlloc (16 * which + j) then
    (s, stInUse)
  else (((s.setReg pgFAB o new).banksTo which old new 16).noteClamp pgFAB o (decide (new ≠ w)), stOk)

/-- BANK_PWR_WRITE (R418). -/
def execBankPwrWrite (p : Path) (which : Nat) (data : Word) (s : State) : Out :=
  access (fun s => s.port p pgFAB false (bankPwrEffect which data)) s

/-- BANK_STATE_REACHED (R419): a bank that is CHANGING becomes ON at its time. -/
def bankStateReached (b : Nat) (s : State) : State :=
  if s.bankStat b = 3 then
    let s := s.until (Tbl.get (fun _ => 0) s.fabric.changing b)
    let s := { s with fabric := { s.fabric with changing := Tbl.drop b s.fabric.changing } }
    (s.setBankStat b 0).setPend pgFAB 4
  else s
def execBankStateReached (b : Nat) (s : State) : Out := event (fun s => bankStateReached b s) s

/-! ### The scrubber (R422, R424) -/

/-- The SRAM word that a bank holds at word `w` (R416). -/
def bankWord (b w : Nat) : Nat := b / 4 * 65536 + 4 * w + b % 4

/-- A word of the SRAM is poisoned. -/
def State.poisonWord (s : State) (w : Nat) : State :=
  ({ s with fabric := { s.fabric with poison := Tbl.set (fun _ => false) s.fabric.poison w true } }).heal (.sram w)

/-- `n` bits of a word are struck. Three in a word of the SRAM poison it; a poisoned word at the supervisor or the key vault is the module
fault ECC_SUP (R423); counts show their error at once. -/
def State.strike (s : State) (e : EccWord) (n : Nat) : State :=
  let s := { s with fabric := { s.fabric with struck := s.fabric.struck ++ [(e, n)] } }
  match e with
  | .sram w => if 3 ≤ s.struckBits e then s.poisonWord w else s
  | .supervisor =>
    let r := s.checkStore e
    if r.2 then (r.1.heal e).moduleFault mfEccSup else r.1
  | _ => match countWords e with | some names => s.suspect e names | none => s
def State.strikeAll (s : State) : List (EccWord × Nat) → State
  | [] => s
  | (e, n) :: t => (s.strike e n).strikeAll t

/-- One word of one bank with `n` flipped bits. The scrubber is no master, so the recorded master is a free value. -/
def State.scrubOne (s : State) (w b n : Nat) : State :=
  if n = 0 || 32 ≤ b || s.bankStat b ≠ 0 then s
  else
    let m := s.freeWord.toNat % 16
    let s := s.draw
    let a := bankWord b w
    if n ≤ 2 then ((s.heal (.sram a)).bump pgFAB 0x30C).corrected dmSram n m a
    else
      let s := (s.poisonWord a).uncorrectable dmSram m a
      if s.areas.any fun (x : Nat × Nat) => decide (x.1 / 32 ≤ a) && decide (32 * a < x.1 + x.2) then s.selfTestFail 0x30 else s
def State.scrubAll (s : State) (w : Nat) : List (Nat × Nat) → State
  | [] => s
  | (b, n) :: t => (s.scrubOne w b n).scrubAll w t

/-- The struck words of the code store at the scrubber's position, which walks it with the banks (log entry 56). -/
def State.scrubCode (s : State) (w : Nat) : List (EccWord × Nat) → State
  | [] => s
  | (.code a, _) :: t =>
    (if a % 16384 = w then
      let m := s.freeWord.toNat % 16
      let r := s.draw.checkWord dmCode m a (.code a)
      if r.2 || s.struckBits (.code a) = 0 then r.1 else r.1.bump pgFAB 0x30C
    else s).scrubCode w t
  | _ :: t => s.scrubCode w t

/-- The flips that the scrubber finds in the words at its position: those given, and those that have struck before. -/
def State.found (s : State) (w : Nat) (flips : List (Nat × Nat)) : List (Nat × Nat) :=
  (List.range 32).map fun b => (b, ((flips.filter fun x => x.1 = b).map fun x => x.2).sum + s.struckBits (.sram (bankWord b w)))

/-- SCRUB (R424): DIV ft after the last one, the next word of every ON bank, and of the code store. -/
def scrub (e : Errors) (s : State) : State :=
  if !s.power.powered then s
  else
    let s := s.until (s.fabric.scrubAt + s.regFld pgFAB 0x0F4 0 16)
    let s := ({ s with fabric := { s.fabric with scrubAt := s.tick } }).strikeAll e.strikes
    let w := (s.regFld pgFAB 0x0F8 0 14 + 1) % 16384
    let n := s.regFld pgFAB 0x0F8 16 16 + b2n (decide (w = 16383))
    ((s.setReg pgFAB 0x0F8 (word (w + 65536 * (n % 65536)))).scrubAll w (s.found w e.flips)).scrubCode w s.fabric.struck
def execScrub (e : Errors) (s : State) : Out := event (fun s => scrub e s) s

/-! ### The background test (R426, R427) -/

/-- Paused from a power-fail decision until mains good. -/
abbrev State.btPaused (s : State) : Bool := s.power.pf
abbrev State.btRegion (s : State) : Nat := s.regFld pgFAB 0x124 0 11

/-- BT_POS advances; a sweep ends with region 2,047. -/
def State.btAdvance (s : State) : State :=
  let n := s.btRegion + 1
  let sweeps := (s.regFld pgFAB 0x124 16 16 + n / 2048) % 65536
  s.setReg pgFAB 0x124 (word (n % 2048 + 65536 * sweeps))

/-- PERIOD × 60 / 2,048 s in ft of 2.5 ns (R426). -/
abbrev State.btPeriod (s : State) : Nat := s.regFld pgFAB 0x120 4 12 * 11718750

/-- BT_REGION_START (R426, R427): the engine is enabled, idle and not paused, and the next region is due. Copying 256 words takes 256 ft
at least and ten operations on each 2,560; the steps begin at free instants behind that. -/
def btRegionStart (s : State) : State :=
  if s.small || !s.power.powered || !s.regBit pgFAB 0x120 0 || s.btPaused || s.fabric.bt.isSome then s
  else
    let s := s.until (match s.fabric.btAt with | some t => t + s.btPeriod | none => 0)
    let s := { s with fabric := { s.fabric with btAt := some s.tick } }
    let g := s.btRegion / 256
    if [0, 1, 2, 3].any fun j => s.bankStat (4 * g + j) ≠ 0 then (s.bump pgFAB 0x31C).btAdvance
    else
      let march := s.tick + 256 + s.freeWord.toNat
      let back := march + 2560 + s.draw.freeWord.toNat
      { s.draw.draw with fabric := { s.fabric with bt := some ⟨s.tick, march, back⟩ } }
def execBtRegionStart (s : State) : Out := event (fun s => btRegionStart s) s

/-- BT_REGION_END: the region is restored whatever was found; `fail` gives the word and bit of a mismatch. A region takes 22.4 µs, which
are 8,960 ft, at least (R426). -/
def btRegionEnd (fail : Option (Nat × Nat)) (s : State) : State :=
  match s.fabric.bt with
  | none => s
  | some x =>
    let s := s.until (x.start + 8960)
    let s := match fail with
      | none => s
      | some (w, b) =>
        let s := s.setReg pgFAB 0x128 (word (s.btRegion + 2048 * (w % 256) + 524288 * (b % 512)))
        ((s.bump pgFAB 0x318).event pgFAB 3 [s.btRegion, w % 256, b % 512]).selfTestFail 0x30
    let s := { s with fabric := { s.fabric with bt := none } }
    (s.bump pgFAB 0x314).btAdvance
def execBtRegionEnd (fail : Option (Nat × Nat)) (s : State) : Out := event (fun s => btRegionEnd fail s) s

/-- The step of Table FAB-3 in progress; 0 idle. -/
def State.btStep (s : State) : Nat :=
  match s.fabric.bt with
  | none => 0
  | some x => if s.tick < x.march then 1 else if s.tick < x.back then 2 else 3

/-- FAB.STAT as read. -/
def State.fabStat (s : State) : Word :=
  word (b2n (s.regBit pgFAB 0x120 0 && !s.small) + 2 * b2n s.fabric.bt.isSome + 4 * s.btStep + 16 * b2n s.btPaused)

end Sys2Proof.Machine
end

