-- ==== Sys2Proof/Machine/Crypto.lean ====
section
/-! DEFINITION. The algorithms that the spec names by their standards (R392, R466, R469, R470, R476, R486): SHA-256 (FIPS 180-4), HMAC,
the counter-mode KDF (SP 800-108), AES-256 (FIPS 197), GCM (SP 800-38D), key unwrap (RFC 3394) and ECDSA on P-256 (FIPS 186-5). The spec
gives none of their steps, which are those of the standards (PRESUMED, log entry 16). -/

namespace Sys2Proof.Machine

set_option cleanup.letToHave false

/-! ### Byte strings -/

/-- The number that a byte string spells, most significant byte first, and its `n` bytes. -/
def beNat (b : List Byte) : Nat := b.foldl (fun a x => a * 256 + x.toNat) 0
def beBytes (n v : Nat) : List Byte := (leBytes n v).reverse

/-- The letters of a label. -/
def ascii (s : String) : List Byte := s.toList.map fun c => BitVec.ofNat 8 c.toNat

/-- Entry `i` of a table of `w`-bit entries, `n` to a number. -/
def rowEntry (w n : Nat) (t : List Nat) (i : Nat) : Nat := (t.getD (i / n) 0 >>> (w * (i % n))) % 2 ^ w

/-! ### The tables of the standards -/

/-- The S-box of AES, sixteen entries to a number, the first lowest. -/
def sboxRows : List Nat :=
  [0x76ABD7FE2B670130C56F6BF27B777C63,
   0xC072A49CAFA2D4ADF04759FA7DC982CA,
   0x1531D871F1E5A534CCF73F362693FDB7,
   0x75B227EBE28012079A059618C323C704,
   0x842FE329B3D63B52A05A6E1B1A2C8309,
   0xCF584C4A39BECB6A5BB1FC20ED00D153,
   0xA89F3C507F02F94585334D43FBAAEFD0,
   0xD2F3FF1021DAB6BCF5389D928F40A351,
   0x73195D643D7EA7C41744975FEC130CCD,
   0xDB0B5EDE14B8EE4688902A22DC4F8160,
   0x79E4959162ACD3C25C2406490A3A32E0,
   0x08AE7A65EAF4566CA94ED58D6D37C8E7,
   0x8A8BBD4B1F74DDE8C6B4A61C2E2578BA,
   0x9E1DC186B95735610EF6034866B53E70,
   0xDF2855CEE9871E9B948ED9691198F8E1,
   0x16BB54B00F2D99416842E6BF0D89A18C]

/-- The inverse S-box of AES, in the same form. -/
def invSboxRows : List Nat :=
  [0xFBD7F3819EA340BF38A53630D56A0952,
   0xCBE9DEC444438E3487FF2F9B8239E37C,
   0x4EC3FA420B954CEE3D23C2A632947B54,
   0x25D18B6D49A25B76B224D92866A12E08,
   0x92B6655DCC5CA4D41698688664F6F872,
   0x849D8DA75746155EDAB9EDFD5048706C,
   0x0645B3B80558E4F70AD3BC8C00ABD890,
   0x6B8A130103BDAFC1020F3FCA8F1E2CD0,
   0x73E6B4F0CECFF297EADC674F4111913A,
   0x6EDF751CE837F9E28535ADE72274AC96,
   0x1BBE18AA0E62B76F89C5291D711AF147,
   0xF45ACD78FEC0DB9A2079D2C64B3E56FC,
   0x5FEC8027591012B131C7078833A8DD1F,
   0xEF9CC9939F7AE52D0D4AB519A97F5160,
   0x619953833CBBEBC8B0F52AAE4D3BE0A0,
   0x7D0C2155631469E126D677BA7E042B17]

/-- The round constants of SHA-256, four to a number, the first lowest. -/
def shaRows : List Nat :=
  [0xE9B5DBA5B5C0FBCF71374491428A2F98,
   0xAB1C5ED5923F82A459F111F13956C25B,
   0x550C7DC3243185BE12835B01D807AA98,
   0xC19BF1749BDC06A780DEB1FE72BE5D74,
   0x240CA1CC0FC19DC6EFBE4786E49B69C1,
   0x76F988DA5CB0A9DC4A7484AA2DE92C6F,
   0xBF597FC7B00327C8A831C66D983E5152,
   0x1429296706CA6351D5A79147C6E00BF3,
   0x53380D134D2C6DFC2E1B213827B70A85,
   0x92722C8581C2C92E766A0ABB650A7354,
   0xC76C51A3C24B8B70A81A664BA2BFE8A1,
   0x106AA070F40E3585D6990624D192E819,
   0x34B0BCB52748774C1E376C0819A4C116,
   0x682E6FF35B9CCA4F4ED8AA4A391C0CB3,
   0x8CC7020884C8781478A5636F748F82EE,
   0xC67178F2BEF9A3F7A4506CEB90BEFFFA]

/-! ### SHA-256 -/

def rotr32 (n x : Nat) : Nat := (x >>> n ||| x <<< (32 - n)) % 2 ^ 32

/-- The message schedule, newest word first: `n` more words. -/
def shaSchedule : Nat → List Nat → List Nat
  | 0, w => w
  | n + 1, w =>
    let a := w.getD 14 0
    let b := w.getD 1 0
    let s0 := (rotr32 7 a).xor ((rotr32 18 a).xor (a >>> 3))
    let s1 := (rotr32 17 b).xor ((rotr32 19 b).xor (b >>> 10))
    shaSchedule n ((w.getD 15 0 + s0 + w.getD 6 0 + s1) % 2 ^ 32 :: w)

/-- The eight words of the hash. -/
structure ShaState where
  a : Nat := 0x6A09E667
  b : Nat := 0xBB67AE85
  c : Nat := 0x3C6EF372
  d : Nat := 0xA54FF53A
  e : Nat := 0x510E527F
  f : Nat := 0x9B05688C
  g : Nat := 0x1F83D9AB
  h : Nat := 0x5BE0CD19

/-- One round with its schedule word and constant. -/
def shaRound (s : ShaState) (wk : Nat) : ShaState :=
  let s1 := (rotr32 6 s.e).xor ((rotr32 11 s.e).xor (rotr32 25 s.e))
  let ch := (s.e &&& s.f).xor ((2 ^ 32 - 1 - s.e) &&& s.g)
  let t := s.h + s1 + ch + wk
  let s0 := (rotr32 2 s.a).xor ((rotr32 13 s.a).xor (rotr32 22 s.a))
  let maj := (s.a &&& s.b).xor ((s.a &&& s.c).xor (s.b &&& s.c))
  ⟨(t + s0 + maj) % 2 ^ 32, s.a, s.b, s.c, (s.d + t) % 2 ^ 32, s.e, s.f, s.g⟩

/-- The rounds from number `i` on. -/
def shaRounds (s : ShaState) : Nat → List Nat → ShaState
  | _, [] => s
  | i, w :: t => shaRounds (shaRound s (w + rowEntry 32 4 shaRows i)) (i + 1) t

/-- One block of 64 bytes. -/
def shaBlock (s : ShaState) (b : List Byte) : ShaState :=
  let w := (List.range 16).map fun i => beNat ((b.drop (4 * i)).take 4)
  let r := shaRounds s 0 (shaSchedule 48 w.reverse).reverse
  let p := fun x y => (x + y) % 2 ^ 32
  ⟨p s.a r.a, p s.b r.b, p s.c r.c, p s.d r.d, p s.e r.e, p s.f r.f, p s.g r.g, p s.h r.h⟩

def shaBlocks : Nat → ShaState → List Byte → ShaState
  | 0, s, _ => s
  | n + 1, s, b => shaBlocks n (shaBlock s (b.take 64)) (b.drop 64)

/-- SHA-256 of a byte string: 32 bytes. -/
def sha256 (m : List Byte) : List Byte :=
  let n := (m.length + 72) / 64
  let padded := m ++ [0x80] ++ List.replicate (64 * n - m.length - 9) 0 ++ beBytes 8 (8 * m.length)
  let s := shaBlocks n {} padded
  [s.a, s.b, s.c, s.d, s.e, s.f, s.g, s.h].flatMap (beBytes 4)

/-- HMAC-SHA-256 under a key of at most 64 bytes. -/
def hmacSha256 (key m : List Byte) : List Byte :=
  let pad := fun (x : Byte) => (key ++ List.replicate (64 - key.length) 0).map (· ^^^ x)
  sha256 (pad 0x5C ++ sha256 (pad 0x36 ++ m))

/-- The KDF of R466: the first `bits / 8` bytes of K(1) ‖ … ‖ K(n), with K(i) = HMAC(KI, [i]32 ‖ Label ‖ 0x00 ‖ Context ‖ [L]32). -/
def kdf (key : List Byte) (label : String) (ctx : List Byte) (bits : Nat) : List Byte :=
  ((List.range ((bits + 255) / 256)).flatMap fun i =>
    hmacSha256 key (leBytes 4 (i + 1) ++ ascii label ++ [0] ++ ctx ++ leBytes 4 bits)).take (bits / 8)

/-! ### AES-256 -/

/-- Multiplication by x in GF(2^8), and by a small factor. -/
def xtime (b : Nat) : Nat := if 128 ≤ b then (2 * b - 256).xor 0x1B else 2 * b
def gfMul (k b : Nat) : Nat :=
  let b2 := xtime b
  let b4 := xtime b2
  let pick := fun (i x : Nat) => if k.testBit i then x else 0
  ((pick 0 b).xor (pick 1 b2)).xor ((pick 2 b4).xor (pick 3 (xtime b4)))

def sbox (x : Nat) : Nat := rowEntry 8 16 sboxRows x
def invSbox (x : Nat) : Nat := rowEntry 8 16 invSboxRows x

/-- The key schedule in words of four bytes, newest first: `n` more words, the next one numbered `i`. -/
def aesSchedule : Nat → Nat → Nat → List (List Nat) → List (List Nat)
  | 0, _, _, ws => ws
  | n + 1, i, rcon, ws =>
    let t := ws.getD 0 []
    let u := if i % 8 = 0 then
        ((t.drop 1 ++ t.take 1).map sbox).zipWith Nat.xor [rcon, 0, 0, 0]
      else if i % 8 = 4 then t.map sbox
      else t
    aesSchedule n (i + 1) (if i % 8 = 0 then xtime rcon else rcon) (List.zipWith Nat.xor (ws.getD 7 []) u :: ws)

/-- Bytes in groups of four. -/
def groups4 : Nat → List Nat → List (List Nat)
  | 0, _ => []
  | n + 1, l => l.take 4 :: groups4 n (l.drop 4)

/-- The fifteen round keys of a 32-byte key. -/
def aesKeys (key : List Byte) : List (List Nat) :=
  let ws := (aesSchedule 52 8 1 (groups4 8 (key.map (·.toNat))).reverse).reverse
  (List.range 15).map fun r => ((ws.drop (4 * r)).take 4).flatten

/-- ShiftRows and its inverse: the byte at place i comes from place `5 i` or `13 i` modulo 16. -/
def shiftBy (k : Nat) (s : List Nat) : List Nat := (List.range 16).map fun i => s.getD (k * i % 16) 0

/-- One column by a circulant matrix with first row `m`. -/
def mixColumn (m c : List Nat) : List Nat :=
  (List.range 4).map fun i =>
    (List.range 4).foldl (fun a j => a.xor (gfMul (m.getD ((4 + j - i) % 4) 0) (c.getD j 0))) 0
def mixColumns (m s : List Nat) : List Nat := (groups4 4 s).flatMap (mixColumn m)

def aesRounds : List (List Nat) → List Nat → List Nat
  | [], s => s
  | k :: t, s =>
    let u := shiftBy 5 (s.map sbox)
    aesRounds t (List.zipWith Nat.xor (if t.isEmpty then u else mixColumns [2, 3, 1, 1] u) k)

def aesInvRounds : List (List Nat) → List Nat → List Nat
  | [], s => s
  | k :: t, s =>
    let u := List.zipWith Nat.xor ((shiftBy 13 s).map invSbox) k
    aesInvRounds t (if t.isEmpty then u else mixColumns [14, 11, 13, 9] u)

/-- One block of 16 bytes as a number, enciphered and deciphered under the round keys. -/
def aesBytes (x : Nat) : List Nat := (beBytes 16 x).map (·.toNat)
def aesNumber (l : List Nat) : Nat := l.foldl (fun a x => a * 256 + x) 0
def aesEncrypt (ks : List (List Nat)) (x : Nat) : Nat :=
  aesNumber (aesRounds (ks.drop 1) (List.zipWith Nat.xor (aesBytes x) (ks.headD [])))
def aesDecrypt (ks : List (List Nat)) (x : Nat) : Nat :=
  let r := ks.reverse
  aesNumber (aesInvRounds (r.drop 1) (List.zipWith Nat.xor (aesBytes x) (r.headD [])))

/-! ### Key unwrap (RFC 3394) -/

/-- The steps t = n·6 down to 1 of the unwrapping of n blocks of 64 bits. -/
def unwrapSteps (ks : List (List Nat)) (n : Nat) : Nat → Nat → List Nat → Nat × List Nat
  | 0, a, r => (a, r)
  | t + 1, a, r =>
    let i := t % n
    let b := aesDecrypt ks ((a.xor (t + 1)) * 2 ^ 64 + r.getD i 0)
    unwrapSteps ks n t (b / 2 ^ 64) (r.set i (b % 2 ^ 64))

/-- The key that a wrapped key of n + 1 blocks holds; none where the integrity check fails. -/
def unwrapKey (kek c : List Byte) : Option (List Byte) :=
  let n := c.length / 8 - 1
  let r := (List.range n).map fun i => beNat ((c.drop (8 * (i + 1))).take 8)
  let x := unwrapSteps (aesKeys kek) n (6 * n) (beNat (c.take 8)) r
  if x.1 = 0xA6A6A6A6A6A6A6A6 then some (x.2.flatMap (beBytes 8)) else none

/-! ### GCM -/

/-- A product in GF(2^128) of GCM, bit by bit of `x` from the most significant. -/
def ghashMul : Nat → Nat → Nat → Nat → Nat
  | 0, _, _, z => z
  | n + 1, x, v, z =>
    ghashMul n x (if v % 2 = 1 then (v / 2).xor (0xE1 * 2 ^ 120) else v / 2) (if x.testBit n then z.xor v else z)

/-- The blocks of 16 bytes of a string, the last padded with zeros. -/
def blocks16 : Nat → List Byte → List Nat
  | 0, _ => []
  | n + 1, b => beNat (b.take 16 ++ List.replicate (16 - b.length) 0) :: blocks16 n (b.drop 16)
def gcmBlocks (b : List Byte) : List Nat := blocks16 ((b.length + 15) / 16) b

/-- The key stream from counter block `j` on, xored with a string. -/
def gcmCtr (ks : List (List Nat)) (j : Nat) : Nat → List Byte → List Byte
  | 0, _ => []
  | n + 1, b =>
    (List.zipWith (fun (x y : Byte) => x ^^^ y) (b.take 16) (beBytes 16 (aesEncrypt ks j))) ++ gcmCtr ks (j + 1) n (b.drop 16)
def gcmStream (key nonce b : List Byte) : List Byte :=
  gcmCtr (aesKeys key) (beNat nonce * 2 ^ 32 + 2) ((b.length + 15) / 16) b

/-- The tag of AES-256-GCM over additional data and ciphertext under a nonce of 12 bytes. -/
def gcmTag (key nonce aad c : List Byte) : List Byte :=
  let ks := aesKeys key
  let h := aesEncrypt ks 0
  let x := (gcmBlocks aad ++ gcmBlocks c ++ [8 * aad.length * 2 ^ 64 + 8 * c.length]).foldl
    (fun z b => ghashMul 128 (z.xor b) h 0) 0
  beBytes 16 (x.xor (aesEncrypt ks (beNat nonce * 2 ^ 32 + 1)))

/-! ### P-256 -/

abbrev p256 : Nat := 2 ^ 256 - 2 ^ 224 + 2 ^ 192 + 2 ^ 96 - 1
abbrev n256 : Nat := 0xFFFFFFFF00000000FFFFFFFFFFFFFFFFBCE6FAADA7179E84F3B9CAC2FC632551
abbrev b256 : Nat := 0x5AC635D8AA3A93E7B3EBBD55769886BC651D06B0CC53B0F63BCE3C3E27D2604B

/-- A point in Jacobian coordinates; z = 0 is the point at infinity. -/
structure EcPoint where
  x : Nat
  y : Nat
  z : Nat

abbrev ecBase : EcPoint :=
  ⟨0x6B17D1F2E12C4247F8BCE6E563A440F277037D812DEB33A0F4A13945D898C296,
   0x4FE342E2FE1A7F9B8EE7EB4A7C0F9E162BCE33576B315ECECBB6406837BF51F5, 1⟩

def subMod (m a b : Nat) : Nat := (a + (m - b % m)) % m

/-- `b` to the power `e`, of at most `n` bits, modulo `m`. -/
def powMod (m b e : Nat) : Nat → Nat
  | 0 => 1 % m
  | n + 1 => let r := powMod m b (e / 2) n; if e % 2 = 1 then r * r % m * b % m else r * r % m

/-- The inverse modulo a prime. -/
def invMod (m a : Nat) : Nat := powMod m (a % m) (m - 2) 256

/-- Doubling on the curve with coefficient −3. -/
def ecDouble (p : EcPoint) : EcPoint :=
  let yy := p.y * p.y % p256
  let s := 4 * p.x * yy % p256
  let zz := p.z * p.z % p256
  let m := 3 * subMod p256 p.x zz * (p.x + zz) % p256
  let x := subMod p256 (m * m) (2 * s)
  ⟨x, subMod p256 (m * subMod p256 s x) (8 * yy * yy), 2 * p.y * p.z % p256⟩

def ecAdd (p q : EcPoint) : EcPoint :=
  if p.z = 0 then q
  else if q.z = 0 then p
  else
    let z1 := p.z * p.z % p256
    let z2 := q.z * q.z % p256
    let u1 := p.x * z2 % p256
    let s1 := p.y * z2 * q.z % p256
    let h := subMod p256 (q.x * z1) u1
    let r := subMod p256 (q.y * z1 * p.z) s1
    if h = 0 then (if r = 0 then ecDouble p else ⟨1, 1, 0⟩)
    else
      let hh := h * h % p256
      let hhh := hh * h % p256
      let v := u1 * hh % p256
      let x := subMod p256 (r * r) (hhh + 2 * v)
      ⟨x, subMod p256 (r * subMod p256 v x) (s1 * hhh), h * p.z * q.z % p256⟩

/-- `k` times a point, `k` of at most `n` bits. -/
def ecMul (p : EcPoint) (k : Nat) : Nat → EcPoint
  | 0 => ⟨1, 1, 0⟩
  | n + 1 => let q := ecDouble (ecMul p (k / 2) n); if k % 2 = 1 then ecAdd q p else q

/-- The affine coordinates of a point. -/
def EcPoint.affine (p : EcPoint) : Nat × Nat :=
  let i := invMod p256 p.z
  (p.x * i * i % p256, p.y * i * i * i % p256)

/-- The public key of a private key. -/
def ecPublic (d : Nat) : Nat × Nat := (ecMul ecBase d 256).affine

/-- The signature (r, s) of a digest under a private key with the per-message number `k`. -/
def ecdsaSign (d k : Nat) (digest : List Byte) : Nat × Nat :=
  let r := (ecMul ecBase k 256).affine.1 % n256
  (r, invMod n256 k * (beNat digest + r * d) % n256)

/-- The point lies on the curve. -/
def onCurve (x y : Nat) : Bool := x < p256 && y < p256 && y * y % p256 = (subMod p256 (x * x * x) (3 * x) + b256) % p256

/-- The signature of a digest verifies under a public key. -/
def ecdsaVerify (qx qy : Nat) (digest : List Byte) (r s : Nat) : Bool :=
  let w := invMod n256 s
  let q := ecAdd (ecMul ecBase (beNat digest * w % n256) 256) (ecMul ⟨qx, qy, 1⟩ (r * w % n256) 256)
  onCurve qx qy && 0 < r && r < n256 && 0 < s && s < n256 && q.z ≠ 0 && q.affine.1 % n256 = r

end Sys2Proof.Machine
end

