-- ==== Sys2Proof/Machine/KeySlots.lean ====
section
/-! DEFINITION. Key slots as other blocks see them: their entries (Table KEY-8), which uses they allow (Table KEY-3), and
one use (R472). -/

namespace Sys2Proof.Machine

set_option cleanup.letToHave false

open Sys2Proof.Config

/-- Slot states (Table KEY-8). -/
abbrev ksFree : Nat := 0
abbrev ksLoaded : Nat := 1
abbrev ksDerived : Nat := 2
abbrev ksExhausted : Nat := 3

abbrev keyAddr (k : Nat) : Nat := 16 * k
abbrev State.keyInfo (s : State) (k : Nat) : Word := s.ind pgKEY (keyAddr k)
abbrev State.setKeyInfo (s : State) (k : Nat) (w : Word) : State := s.setInd pgKEY (keyAddr k) w
abbrev State.keyState (s : State) (k : Nat) : Nat := fld (s.keyInfo k) 0 2
abbrev State.keyLocked (s : State) (k : Nat) : Bool := bit (s.keyInfo k) 2
abbrev State.keyLong (s : State) (k : Nat) : Bool := bit (s.keyInfo k) 4
abbrev State.keyUseBits (s : State) (k : Nat) : Nat := fld (s.keyInfo k) 8 4
abbrev State.keyOwner (s : State) (k : Nat) : Nat := fld (s.keyInfo k) 16 9
abbrev State.keyUses (s : State) (k : Nat) : Word := s.ind pgKEY (keyAddr k + 4)
abbrev State.keyCtr (s : State) (k : Nat) : Nat := s.ind64 pgKEY (keyAddr k + 8)

/-- Uses (Table KEY-3). -/
abbrev kuTunnel : Nat := 0
abbrev kuOsdp : Nat := 1
abbrev kuAuth : Nat := 2
abbrev kuMaster : Nat := 3

/-- The slot's attributes name the use (R471): OSDP on an AES-128 slot, every other on an AES-256 slot. -/
def State.keyNames (s : State) (k use : Nat) : Bool :=
  decide (k < keyLimit s.small) && s.keyUseBits k / 2 ^ use % 2 = 1 && (s.keyLong k != decide (use = kuOsdp))

/-- The slot holds a key for the use, with a use left: LOADED or DERIVED, not EXHAUSTED (R472). -/
def State.keyUsable (s : State) (k use : Nat) : Bool :=
  s.keyNames k use && (s.keyState k = ksLoaded || s.keyState k = ksDerived) && s.keyUses k ≠ 0

/-! ### Roots and derivations (R465, R466) -/

/-- DEV_ID of the module (Table REG-15): 16 bytes, bits [7:0] of DEV_ID0 first. -/
def State.devBytes (s : State) : List Byte := [0x830, 0x834, 0x838, 0x83C].flatMap fun o => leBytes 4 (s.reg pgCAP o).toNat

/-- A root is generated when the module first enters its state, and used as it stands when a transition is retried (R465): `r` is what the
TRNG gives. -/
def State.makeRootOf (s : State) (c : Nat) (r : BitVec 256) : State :=
  if s.keys.roots.any (fun e => e.1 = c) then s else { s with keys := { s.keys with roots := s.keys.roots ++ [(c, r)] } }

/-- The same where no command brings the TRNG's number: four free values. -/
def State.makeRoot (s : State) (c : Nat) : State :=
  if s.keys.roots.any (fun e => e.1 = c) then s
  else
    let f := fun i => freeValue (s.fresh + i)
    { s.makeRootOf c (f 0 ++ f 1 ++ f 2 ++ f 3) with fresh := s.fresh + 4 }

/-- The root of a state; only that of the current state is ever read (R465). -/
def State.root (s : State) (c : Nat) : BitVec 256 := ((s.keys.roots.find? fun e => e.1 = c).map (·.2)).getD 0
def State.rootBytes (s : State) : List Byte := beBytes 32 (s.root s.lifecycle).toNat

/-- SK_c, the sealing key of a context (Table KEY-2). -/
def State.sealKey (s : State) (c : Nat) : BitVec 256 :=
  BitVec.ofNat 256 (ofLeBytes (kdf s.rootBytes "DSKV-STORE" (s.devBytes ++ leBytes 2 c) 256))

/-! ### Key material (R467) -/

/-- The material of a slot, unsealed: its copy opens only under SK_c of its owner and the root of the current state. -/
def State.keyMat (s : State) (k : Nat) : BitVec 256 :=
  if Tbl.get (fun _ => 0) s.keys.sealed k = s.sealKey (s.keyOwner k) then Tbl.get (fun _ => 0) s.keys.mat k else 0

/-- Its 32 bytes, byte 4i of PLAIN_KEYi first (R475). -/
def State.keyBytes (s : State) (k : Nat) : List Byte := leBytes 32 (s.keyMat k).toNat

/-- Zeroise the material of a slot. -/
def State.zeroKey (s : State) (k : Nat) : State :=
  { s with keys := { s.keys with mat := Tbl.set (fun _ => 0) s.keys.mat k 0, sealed := Tbl.set (fun _ => 0) s.keys.sealed k 0 } }

/-- Seal material into a slot under SK_c of its owner (R467). A module that has not started since its manufacture makes its root first. -/
def State.sealMat (s : State) (k : Nat) (m : BitVec 256) : State :=
  let s := s.makeRoot s.lifecycle
  { s with keys := { s.keys with mat := Tbl.set (fun _ => 0) s.keys.mat k m,
                                 sealed := Tbl.set (fun _ => 0) s.keys.sealed k (s.sealKey (s.keyOwner k)) } }

/-- SLOT_COUNT and its mark follow a change of a slot's state. -/
def State.keyCount (s : State) (old new : Nat) : State :=
  if old = ksFree ∧ new ≠ ksFree then s.countUp pgKEY 0x048 0x04C 1
  else if old ≠ ksFree ∧ new = ksFree then s.countDown pgKEY 0x048 1
  else s

/-- One use of a slot (R472): the use that brings USES to 0 exhausts the slot. -/
def State.keyUse (s : State) (k : Nat) : State :=
  let u := s.keyUses k
  let s := s.bump pgKEY 0x208
  if u = 0xFFFFFFFF ∨ u = 0 then s
  else
    let s := s.setInd pgKEY (keyAddr k + 4) (u - 1)
    if u = 1 then
      ((((s.zeroKey k).setKeyInfo k (setFld (s.keyInfo k) 0 2 ksExhausted)).bump pgKEY 0x20C).event pgKEY 2 [k])
    else s

/-- A slot becomes FREE, its owner and attributes cleared, its counter kept (R474). -/
def State.keyErase (s : State) (k : Nat) : State :=
  let old := s.keyState k
  ((((s.zeroKey k).setKeyInfo k (setBit 0 2 (s.keyLocked k))).setInd pgKEY (keyAddr k + 4) 0)).keyCount old ksFree

/-- The listed entries of an indirect table: entry n when the word at its effect word is listed and `p` holds of it. -/
def State.listed (s : State) (pg base stride count : Nat) (p : Word → Bool) : List Nat :=
  s.regs.filterMap fun e =>
    let lo := ikey pg base
    if lo ≤ e.1 ∧ e.1 < lo + stride * count ∧ (e.1 - lo) % stride = 0 ∧ p e.2 then some ((e.1 - lo) / stride) else none

end Sys2Proof.Machine
end

