-- ==== Sys2Proof/Machine/Net.lean ====
section
/-! DEFINITION. The Ethernet ports (R381 to R391): links of the uplinks, the transceiver, Energy-Efficient Ethernet, the
floor ports and their statistics. Ports count T1S0, T1S1, UPL0, UPL1 as 0 to 3. -/

namespace Sys2Proof.Machine

set_option cleanup.letToHave false

open Sys2Proof.Config

def netPage (port : Nat) : Nat := if port < 2 then pgT1S port else pgUPL (port - 2)

/-- Counter n of a port (Table NET-3). -/
abbrev State.netCount (s : State) (port n : Nat) (k : Nat := 1) : State := s.bump (netPage port) (0x100 + 4 * n) k

/-! ### Energy-Efficient Ethernet (R386, R387) -/

/-- The partner's requested wake time where none has arrived. -/
def wakeDefault (hundred : Bool) : Nat := if hundred then 30 else 17

/-- EEE_TW of UPL1 follows TW_MIN and the partner's request; bit 2 sets when the resolved value changes. -/
def State.eeeResolve (s : State) (partner : Option Nat) : State :=
  let s := { s with net := { s.net with partnerTw := partner } }
  let old := s.reg pgTxOne 0x04C
  let asked := match partner with
    | some n => n
    | none => wakeDefault (decide (s.regFld pgTxOne 0x044 1 2 = 1))
  let w := max (s.regFld pgTxOne 0x048 16 16) asked
  let s := s.setReg pgTxOne 0x04C (word (w % 65536 + 65536 * (partner.getD 0 % 65536)))
  if fld old 0 16 = w % 65536 then s else s.setPend pgTxOne 2
where
  pgTxOne : Nat := 0x2B

/-- LLDP_EEE_TLV (R387): received on UPL1. -/
def lldpEeeTlv (wake : Nat) (s : State) : State :=
  if s.regBit (pgUPL 1) 0x044 0 then s.eeeResolve (some wake) else s
def execLldpEeeTlv (wake : Nat) (s : State) : Out := event (fun s => lldpEeeTlv wake s) s

/-- LPI_ENTRY (R386): UPL1's transmit queue has been empty for LPI_IDLE µs. -/
def lpiEntry (s : State) : State :=
  let st := s.reg (pgUPL 1) 0x044
  if bit st 0 && bit st 3 && s.regBit (pgUPL 1) 0x040 4 && !bit st 4 then
    (s.setRegBit (pgUPL 1) 0x044 4 true).netCount 3 9
  else s
def execLpiEntry (s : State) : Out := event (fun s => lpiEntry s) s

/-! ### Links (R384, R402) -/

/-- An uplink goes down: LINK, its speed, EEE and LPI end, the partner's wake time returns to its default. -/
def State.linkDown (s : State) (port : Nat) : State :=
  let pg := netPage port
  if !s.regBit pg 0x044 0 then s
  else
    let s := if port = 3 then s.eeeResolve none else s
    let w := s.reg pg 0x044
    ((s.setReg pg 0x044 (setFld w 0 6 0)).netCount port 8).setPend pg 0

/-- An uplink that may have a link: enabled, released, and, on UPL0, with an accepted transceiver. -/
def State.portReady (s : State) (port : Nat) : Bool :=
  2 ≤ port && s.power.powered && s.sys.released && s.regBit (netPage port) 0x040 0 && (port ≠ 2 || s.net.accepted)

/-- ETH_LINK_CHANGE (R384, R386): UPL0 runs at 1000 Mbit/s only, UPL1 at the speed of PORT_CTL.SPEED or, with auto, at the one negotiated;
EEE is UPL1's, resolved by auto-negotiation. -/
def ethLinkChange (port : Nat) (up gigabit eee : Bool) (s : State) : State :=
  if !s.portReady port then s
  else if !up then s.linkDown port
  else if s.regBit (netPage port) 0x044 0 then s
  else
    let pg := netPage port
    let speed := s.regFld pg 0x040 2 2
    let fast := decide (port = 2) || speed = 2 || (speed = 0 && gigabit)
    let on := eee && port = 3 && s.regBit pg 0x040 4 && s.regBit pg 0x040 1
    let w := setBit (setFld (setBit (s.reg pg 0x044) 0 true) 1 2 (if fast then 2 else 1)) 3 on
    let s := (s.setReg pg 0x044 w).setPend pg 0
    if port = 3 then s.eeeResolve none else s
def execEthLinkChange (port : Nat) (up gigabit eee : Bool) (s : State) : Out :=
  event (fun s => ethLinkChange port up gigabit eee s) s

/-- PORT_CTL's row; SPEED and EEE_EN of UPL0 are not its own. -/
def portCtlRow : Row := RegMap.rw 0x040 0x33 0x3F [⟨2, 2, 0, 2⟩]
/-- PORT_CTL as UPL0 and UPL1 hold it: UPL0 reads SPEED 2 and has no EEE_EN. -/
def portCtlOf (u : Nat) (w : Word) : Word := if u = 0 then setBit (setFld w 2 2 2) 4 false else w

/-- A write of PORT_CTL of UPLu with its settled value: a change of SPEED or ANEG, and a port switched off, end the link. -/
def portCtlEffect (u : Nat) (w : Word) (s : State) : State × Nat :=
  let old := portCtlOf u (s.reg (pgUPL u) 0x040)
  let new := portCtlOf u w
  let s := s.setReg (pgUPL u) 0x040 new
  (if fld old 1 3 ≠ fld new 1 3 || !bit new 0 then s.linkDown (u + 2) else s, stOk)

/-- PORT_CTL_WRITE (R384). -/
def execPortCtlWrite (p : Path) (port : Nat) (data : Word) (s : State) : Out :=
  access (fun s => s.port p (pgUPL port) false fun s =>
    let old := s.reg (pgUPL port) 0x040
    let r := portCtlEffect port (settled (pgUPL port) 0x040 portCtlRow .plain old data) s
    (r.1.noteClamp (pgUPL port) 0x040 (wasClamped (pgUPL port) 0x040 portCtlRow .plain old data), r.2)) s

/-! ### The transceiver of UPL0 (R56, R385) -/

/-- SFP_PRESENCE_CHANGE (R56): only an optical transceiver is accepted. -/
def sfpPresenceChange (present optical : Bool) (s : State) : State :=
  let ok := present && optical
  let s := if ok then s else s.linkDown 2
  let s := { s with net := { s.net with accepted := ok, cache := [], refreshed := s.tick } }
  let w := s.reg (pgUPL 0) 0x044
  (s.setReg (pgUPL 0) 0x044 (setBit (setBit w 8 (!present)) 11 (present && !optical))).setPend (pgUPL 0) 1
def execSfpPresenceChange (present optical : Bool) (s : State) : Out := event (fun s => sfpPresenceChange present optical s) s

/-- Bytes as a cache from address `a`. -/
def cacheOf (a : Nat) : List Byte → Tbl Byte → Tbl Byte
  | [], m => m
  | b :: t, m => cacheOf (a + 1) t (Tbl.set (fun _ => 0) m a b)

/-- SFP_CACHE_REFRESH (R385): one second after the last. -/
def sfpCacheRefresh (bytes : List Byte) (s : State) : State :=
  if s.net.accepted then
    let s := s.until (s.net.refreshed + ftPerS)
    { s with net := { s.net with cache := cacheOf 0 (bytes.take 512) [], refreshed := s.tick } }
  else s
def execSfpCacheRefresh (bytes : List Byte) (s : State) : Out := event (fun s => sfpCacheRefresh bytes s) s

/-- A word of the cache, and SFP_AGE. -/
def State.sfpWord (s : State) (a : Nat) : Word := word (ofLeBytes (readBytes s.net.cache (a / 4 * 4) 4))
def State.sfpAge (s : State) : Word := word (min ((s.tick - s.net.refreshed) / ftPerMs) 0xFFFFFFFF)

/-! ### Floor Ethernet (R388 to R390) -/

/-- The port takes part on its line: not OFF, not shed, its domain released. -/
def State.t1sUp (s : State) (port : Nat) : Bool :=
  s.power.powered && s.sys.released && s.regFld (pgT1S port) 0x040 0 2 ≠ 0 && !s.regBit (pgT1S port) 0x04C 2
/-- Its transmitter is on: not on a standby (R383), not in a module fault (Table SYS-5), not under a save. -/
def State.t1sSends (s : State) (port : Nat) : Bool := s.t1sUp port && s.working && !s.isStandby

/-- STAT of a T1S page (Table T1S-1): PLCA status and shed as held, the rest as it follows. -/
def State.t1sStat (s : State) (port : Nat) : Word :=
  let w := s.reg (pgT1S port) 0x04C
  word (b2n (bit w 0) + 2 * b2n (s.regFld (pgT1S port) 0x040 0 2 = 2 && s.regFld (pgT1S port) 0x044 0 8 = 0) +
    4 * b2n (bit w 2) + 8 * b2n (s.t1sUp port && s.isStandby) + 16 * b2n (s.t1sSends port))

def State.attempts (s : State) (port : Nat) : Nat := Tbl.get (fun _ => 0) s.net.attempts port
def State.setAttempts (s : State) (port n : Nat) : State :=
  { s with net := { s.net with attempts := Tbl.set (fun _ => 0) s.net.attempts port n } }

/-- T1S_COLLISION (R388): after collision n the port waits r slot times, r drawn from 0 to 2^min(n, 10) − 1. Whether the frame is the one that collided last is a fact that no command gives: a free bit says
whether its attempts go on or begin anew (log entry 5). -/
def t1sCollision (port : Nat) (late : Bool) (s : State) : State :=
  if !s.t1sSends port then s
  else if late then (((s.setAttempts port 0).netCount port 6).netCount port 8).setPend (pgT1S port) 1
  else
    let n := if s.freeWord.getLsbD 0 then 1 else s.attempts port + 1
    let s := s.draw.netCount port 5
    if 16 ≤ n then ((s.setAttempts port 0).netCount port 7).setPend (pgT1S port) 2
    else
      let r := s.freeWord.toNat % 2 ^ min n 10
      let s := s.draw.setAttempts port n
      { s with net := { s.net with backoff := Tbl.set (fun _ => 0) s.net.backoff port r } }
def execT1sCollision (port : Nat) (late : Bool) (s : State) : Out := event (fun s => t1sCollision port late s) s

/-- A write of PLCA_CFG or PLCA_BURST with its settled value: refused unless MODE is OFF. -/
def plcaEffect (port ofs : Nat) (w : Word) (s : State) : State × Nat :=
  if s.regFld (pgT1S port) 0x040 0 2 ≠ 0 then (s.setPend (pgT1S port) 3, stInUse)
  else (s.setReg (pgT1S port) ofs w, stOk)

def plcaRow (burst : Bool) : Row :=
  if burst then RegMap.rw 0x048 0x80 0xFF [⟨0, 8, 1, 255⟩]
  else RegMap.rw 0x044 0x20000801 0xFFFFFFFF [⟨0, 8, 0, 254⟩, ⟨8, 8, 1, 255⟩, ⟨24, 8, 1, 255⟩]

/-- PLCA_WRITE (R390). -/
def execPlcaWrite (p : Path) (port : Nat) (burst : Bool) (data : Word) (s : State) : Out :=
  let o := if burst then 0x048 else 0x044
  access (fun s => s.port p (pgT1S port) false fun s =>
    let old := s.reg (pgT1S port) o
    let r := plcaEffect port o (settled (pgT1S port) o (plcaRow burst) .plain old data) s
    (r.1.noteClamp (pgT1S port) o (wasClamped (pgT1S port) o (plcaRow burst) .plain old data && decide (r.2 = stOk)), r.2)) s

/-- PLCA_STATUS_CHANGE (R389): only in PLCA; BEACON_LOSS counts a change to false. -/
def plcaStatusChange (port : Nat) (ok : Bool) (s : State) : State :=
  if s.t1sUp port && s.regFld (pgT1S port) 0x040 0 2 = 2 && s.regBit (pgT1S port) 0x04C 0 ≠ ok then
    let s := (s.setRegBit (pgT1S port) 0x04C 0 ok).setPend (pgT1S port) 0
    if ok then s else s.netCount port 10
  else s
def execPlcaStatusChange (port : Nat) (ok : Bool) (s : State) : Out := event (fun s => plcaStatusChange port ok s) s

/-- A write of T1S CTL with its settled value: outside PLCA there is no PLCA status. -/
def t1sCtlEffect (port : Nat) (w : Word) (s : State) : State × Nat :=
  let s := (s.setReg (pgT1S port) 0x040 w).setAttempts port 0
  (if fld w 0 2 ≠ 2 && s.regBit (pgT1S port) 0x04C 0 then (s.setRegBit (pgT1S port) 0x04C 0 false).setPend (pgT1S port) 0
   else s, stOk)

/-- A port takes frames: a floor port that is up, an uplink with its link (R383, R384). -/
def State.portUp (s : State) (port : Nat) : Bool := if port < 2 then s.t1sUp port else s.regBit (netPage port) 0x044 0

/-! ### Statistics (R391) -/

/-- Octets received count in units of 256, the remainder carried. -/
def State.rxOctets (s : State) (port n : Nat) : State :=
  let t := Tbl.get (fun _ => 0) s.net.octets port + n
  let s := { s with net := { s.net with octets := Tbl.set (fun _ => 0) s.net.octets port (t % 256) } }
  s.netCount port 3 (t / 256)

/-- ETH_FRAME_RECEIVED (R382, Table NET-1): a frame above 1,522 octets is not taken. -/
def ethFrameReceived (port octets : Nat) (fcsOk : Bool) (s : State) : State :=
  if !s.portUp port then s
  else if !fcsOk then s.netCount port 4
  else if 1522 < octets then s.netCount port (if port < 2 then 11 else 5)
  else (s.netCount port 2).rxOctets port octets
def execEthFrameReceived (port octets : Nat) (fcsOk : Bool) (s : State) : Out :=
  event (fun s => ethFrameReceived port octets fcsOk s) s

end Sys2Proof.Machine
end

