-- ==== Sys2Proof/Machine/Tunnel.lean ====
section
/-! DEFINITION. The register tunnel (R392 to R401): sessions, received datagrams, replies, and the closing of sessions. The
execution of requests stands in TunnelRun.lean, after the register accesses that it makes. -/

namespace Sys2Proof.Machine

set_option cleanup.letToHave false

open Sys2Proof.Config

/-- Words of a session entry (Table TUN-8). -/
abbrev State.sesWord (s : State) (n o : Nat) : Word := s.ind pgTUN (32 * n + o)
def State.setSesWord (s : State) (n o : Nat) (w : Word) : State := s.setInd pgTUN (32 * n + o) w
abbrev State.sesCtx (s : State) (n : Nat) : Nat := fld (s.sesWord n 0x04) 0 9
abbrev State.sesKey (s : State) (n : Nat) : Nat := fld (s.sesWord n 0x00) 0 10
abbrev State.sesEn (s : State) (n : Nat) : Bool := bit (s.sesWord n 0x04) 16
abbrev State.sesPeerLock (s : State) (n : Nat) : Bool := bit (s.sesWord n 0x04) 17
abbrev State.sesState (s : State) (n : Nat) : Nat := fld (s.sesWord n 0x08) 0 2
abbrev sesDisabled : Nat := 0
abbrev sesClosed : Nat := 1
abbrev sesOpen : Nat := 2

/-- N, and the next reply sequence. -/
abbrev State.sesNext (s : State) (n : Nat) : Nat := s.ind64 pgTUN (32 * n + 0x0C)
abbrev State.sesReply (s : State) (n : Nat) : Nat := s.ind64 pgTUN (32 * n + 0x14)

/-- SES_STAT shows held requests and cached replies. -/
def State.sesShow (s : State) (n : Nat) : State :=
  let x := s.session n
  let w := setFld (setFld (s.sesWord n 0x08) 4 2 x.held.length) 16 3 x.cache.length
  s.setSesWord n 0x08 w

/-- The tunnel runs: enabled, and neither on a standby nor in a module fault, where it discards (R383, Table SYS-5). -/
def State.tunnelRuns (s : State) : Bool := s.working && !s.isStandby && s.regBit pgTUN 0x040 0

/-- A session opens (R399): one use of its key slot (Table KEY-3), the peer noted. -/
def State.openSession (s : State) (n addr port : Nat) : State :=
  let key := s.keyMat (s.sesKey n)
  let s := (s.keyUse (s.sesKey n)).setSesWord n 0x08 (setFld (s.sesWord n 0x08) 0 2 sesOpen)
  let s := s.setSession n { s.session n with addr := addr, port := port, key := key }
  (s.setReg pgTUN 0x04C (s.reg pgTUN 0x04C + 1)).setPend pgTUN 1

/-- An OPEN session closes with a cause of R400: its locks break, its held requests and its reply cache go, and it owns the
chunk buffer no more (R488). -/
def State.closeSession (s : State) (n cause : Nat) : State :=
  if s.sesState n = sesOpen then
    let s := s.setSesWord n 0x08 (setFld (setFld (s.sesWord n 0x08) 0 2 sesClosed) 8 3 cause)
    let s := (s.setSession n { s.session n with held := [], cache := [], key := 0 }).sesShow n
    let s := (s.setReg pgTUN 0x04C (s.reg pgTUN 0x04C - 1)).breakHolder 2 n
    let s := if s.reg pgUPD 0x068 = word (32768 + n) then s.setReg pgUPD 0x068 0 else s
    s.setPend pgTUN 1
  else s
def State.closeSessions (s : State) (cause : Nat) : List Nat → State
  | [] => s
  | n :: t => (s.closeSession n cause).closeSessions cause t
def sessionNumbers : List Nat := (List.range 512).filter (· ≠ 0)

/-- The key slot of sessions is replaced (R400 cause 4): they close, and a fresh nonce space begins. -/
def State.rekeySessions (s : State) (k : Nat) : List Nat → State
  | [] => s
  | n :: t =>
    let s := if s.sesKey n = k ∧ s.sesState n ≠ sesDisabled then
        let s := (s.closeSession n 4).setInd64 pgTUN (32 * n + 0x0C) 1
        (s.setInd64 pgTUN (32 * n + 0x14) 1).setSession n { s.session n with reserved := 1 }
      else s
    s.rekeySessions k t

/-! ### Datagrams (R392 to R394) -/

/-- The session's key: the material of its slot; an OPEN session whose opening exhausted the slot keeps the key it was opened with, since
the use that exhausts is performed (R472; log entry 16). -/
def State.sesKeyBytes (s : State) (n : Nat) : List Byte :=
  if s.sesState n = sesOpen ∧ s.keyState (s.sesKey n) = ksExhausted then leBytes 32 (s.session n).key.toNat else s.keyBytes (s.sesKey n)

/-- The session has a key: an OPEN one while its slot is not FREE, another while the slot may be used once more (R472). -/
def State.sesKeyed (s : State) (n : Nat) : Bool :=
  if s.sesState n = sesOpen then s.keyState (s.sesKey n) ≠ ksFree else s.keyUsable (s.sesKey n) kuTunnel

/-- A field of a datagram: network byte order (R392). -/
def gramFld (b : List Byte) (ofs n : Nat) : Nat := beNat ((b.drop ofs).take n)
abbrev gramSession (b : List Byte) : Nat := gramFld b 2 2
abbrev gramSeq (b : List Byte) : Nat := gramFld b 8 8

/-- The nonce: SESSION, TYPE, 0x00 and SEQ (R392). -/
def tunNonce (n typ seq : Nat) : List Byte := beBytes 2 n ++ beBytes 1 typ ++ [0] ++ beBytes 8 seq

/-- The ciphertext of a datagram, between its header of 32 bytes and its tag. -/
def gramBody (b : List Byte) : List Byte := (b.drop 32).take (b.length - 48)

/-- The tag verifies under the session's key; the header is the additional data (R392). -/
def State.gramTagOk (s : State) (b : List Byte) : Bool :=
  gcmTag (s.sesKeyBytes (gramSession b)) (tunNonce (gramSession b) 1 (gramSeq b)) (b.take 32) (gramBody b) =
    b.drop (b.length - 16)

/-- Operation `i` of a plaintext (Table TUN-2). -/
def tunOpAt (b : List Byte) (i : Nat) : TunOp :=
  ⟨gramFld b (12 * i) 1, gramFld b (12 * i + 1) 1, word (gramFld b (12 * i + 4) 4), word (gramFld b (12 * i + 8) 4)⟩

/-- The request that an authentic datagram holds. -/
def State.gramOpened (s : State) (b : List Byte) (addr port : Nat) : Datagram :=
  let body := gcmStream (s.sesKeyBytes (gramSession b)) (tunNonce (gramSession b) 1 (gramSeq b)) (gramBody b)
  ⟨gramSession b, gramFld b 4 1, gramSeq b, addr, port, (List.range (gramFld b 5 1)).map (tunOpAt body)⟩

/-- The header is wrong (R393 case 1). A field that Table TUN-1 gives a request as 0 is reserved in it (log entry 16). -/
def State.badHeader (s : State) (b : List Byte) : Bool :=
  b.length < 48 || gramFld b 0 1 ≠ 1 || gramFld b 1 1 ≠ 1 || 64 < gramFld b 5 1 || b.length ≠ 48 + 12 * gramFld b 5 1 ||
  4 ≤ gramFld b 4 1 || gramFld b 6 2 ≠ 0 || gramFld b 16 16 ≠ 0 ||
  gramSession b = 0 || 512 ≤ gramSession b || !s.sesEn (gramSession b)

/-- The datagram does not verify (R393 case 3). -/
def State.authFails (s : State) (b : List Byte) : Bool :=
  gramSeq b = 0 || !s.sesKeyed (gramSession b) || !s.gramTagOk b

/-- TUNNEL_DATAGRAM (R393, R394): a datagram to TUN.CTL.PORT on a port that is up and enabled in TUN.PORT_EN. -/
def tunnelDatagram (via : Nat) (b : List Byte) (addr port : Nat) (s : State) : State :=
  if !s.tunnelRuns || !s.regBit pgTUN 0x044 via || !s.portUp via then s
  else if s.badHeader b then s.bump pgTUN 0x108
  else
    let x := s.session (gramSession b)
    let isOpen := s.sesState (gramSession b) = sesOpen
    if isOpen && s.sesPeerLock (gramSession b) && (x.addr ≠ addr || x.port ≠ port) then s.bump pgTUN 0x10C
    else if s.authFails b then (s.bump pgTUN 0x110).setPend pgTUN 0
    else
      let d := s.gramOpened b addr port
      let s := s.bump pgTUN 0x100
      let s := if isOpen then s else s.openSession d.session d.srcAddr d.srcPort
      let s := s.setSession d.session { s.session d.session with lastAt := s.tick }
      if 64 ≤ s.tun.ingress.length then (s.bump pgTUN 0x104).setPend pgTUN 2
      else
        let s := { s with tun := { s.tun with ingress := s.tun.ingress ++ [d] } }
        s.setReg pgTUN 0x050 (word s.tun.ingress.length)
def execTunnelDatagram (g : Gram) (s : State) : Out := event (fun s => tunnelDatagram g.via g.bytes g.addr g.port s) s

/-! ### Replies (R395, R397) -/

/-- The datagram of a reply (Tables TUN-1 and TUN-3), sealed under a key (R392). -/
def replyBytes (key : List Byte) (n flags status seq ack next : Nat) (ops : List (Nat × Word)) : List Byte :=
  let head := [(0x01 : Byte), 0x02] ++ beBytes 2 n ++ beBytes 1 flags ++ beBytes 1 ops.length ++ beBytes 1 status ++ [0] ++ beBytes 8 seq ++
    beBytes 8 ack ++ beBytes 8 next
  let body := gcmStream key (tunNonce n 2 seq) (ops.flatMap fun o => beBytes 1 o.1 ++ [0, 0, 0] ++ beBytes 4 o.2.toNat)
  head ++ body ++ gcmTag key (tunNonce n 2 seq) head body

/-- A reply leaves. -/
def State.sendReply (s : State) (r : Reply) : State :=
  ({ s with tun := { s.tun with sent := some r } }).bump pgTUN 0x12C

/-- A reply takes a fresh reply sequence; blocks of 2^16 are reserved in MRAM (R397). -/
def State.freshReply (s : State) (d : Datagram) (status : Nat) (ops : List (Nat × Word)) : State × Reply :=
  let n := d.session
  let q := s.sesReply n
  let x := s.session n
  let s := if x.reserved ≤ q then s.setSession n { x with reserved := q + 65536 } else s
  let s := s.setInd64 pgTUN (32 * n + 0x14) (q + 1)
  let next := s.sesNext n
  let r : Reply := ⟨n, d.flags, status, q, d.seq, next, ops, replyBytes (s.sesKeyBytes n) n d.flags status q d.seq next ops⟩
  (s.sendReply r, r)

/-! ### Timeouts -/

/-- The held request that waits longest, among some. -/
def oldestHeld : List (Datagram × Nat) → Option (Datagram × Nat)
  | [] => none
  | a :: t => match oldestHeld t with
    | none => some a
    | some b => if b.2 < a.2 then some b else some a

/-- REORDER_TIMEOUT (R396): the oldest gap has stayed open REORDER_MS; that request and every later one go. -/
def reorderTimeout (n : Nat) (s : State) : State :=
  match oldestHeld (s.session n).held with
  | none => s
  | some (d, t) =>
    let s := s.expire (t + s.regFld pgTUN 0x048 16 8 * ftPerMs)
    let x := s.session n
    let gone := x.held.filter fun e => d.seq ≤ e.1.seq
    let s := s.setSession n { x with held := x.held.filter fun e => e.1.seq < d.seq }
    (s.bump pgTUN 0x124 gone.length).sesShow n
def execReorderTimeout (n : Nat) (s : State) : Out := event (fun s => reorderTimeout n s) s

/-- SESSION_IDLE (R400 cause 2). -/
def sessionIdle (n : Nat) (s : State) : State :=
  if s.sesState n = sesOpen then
    (s.expire ((s.session n).lastAt + s.regFld pgTUN 0x048 0 16 * ftPerS)).closeSession n 2
  else s
def execSessionIdle (n : Nat) (s : State) : Out := event (fun s => sessionIdle n s) s

/-! ### Configuration (R399, R400, R404) -/

abbrev spSession : Nat := 7

/-- A refused write of a session entry (R404). -/
def State.sesRefuse (s : State) (st : Nat) : State × Nat := (s.setPend pgTUN 3, st)

/-- The key slot may carry the sessions of a context (R399, R471). -/
def State.sesKeyOk (s : State) (c k : Nat) : Bool := s.keyNames k kuTunnel && (s.keyOwner k = c || s.keyOwner k = 0)

/-- A write of SES_DEF with its settled value; the latched SES_KEY applies with it. -/
def sesDefEffect (p : Path) (n : Nat) (w : Word) (s : State) : State × Nat :=
  let key := s.latchedWord p spSession (32 * n) 0 (s.sesWord n 0)
  let s := s.dropLatch p spSession
  let c := fld w 0 9
  let k := fld key 0 10
  if ctxLimit s.small ≤ c || s.ctxState c = 0 || !s.sesKeyOk c k then s.sesRefuse stInvalid
  else if s.sesState n = sesOpen && (c ≠ s.sesCtx n || k ≠ s.sesKey n) then s.sesRefuse stInUse
  else
    let s := if bit w 16 then s else s.closeSession n 3
    let s := (s.setSesWord n 0 key).setSesWord n 4 w
    let st := if !bit w 16 then sesDisabled else if s.sesState n = sesDisabled then sesClosed else s.sesState n
    (s.setSesWord n 0x08 (setFld (s.sesWord n 0x08) 0 2 st), stOk)

/-- SES_DEF_WRITE (R399). -/
def execSesDefWrite (p : Path) (n : Nat) (data : Word) (s : State) : Out :=
  access (fun s => s.port p pgTUN false (fun s => sesDefEffect p n (entSettle pgTUN RegMap.entSession 4 .plain 0 data) s)) s

/-- A pulse of SES_CTL.CLOSE (R400 cause 3). -/
def sesCtlEffect (n : Nat) (w : Word) (s : State) : State × Nat := (if bit w 0 then s.closeSession n 3 else s, stOk)

/-- SES_CTL_CLOSE (R400). -/
def execSesCtlClose (p : Path) (n : Nat) (s : State) : Out :=
  access (fun s => s.port p pgTUN false (fun s => sesCtlEffect n 1 s)) s

end Sys2Proof.Machine
end

