-- ==== Sys2Proof/Machine/Keys.lean ====
section
/-! DEFINITION. The key vault, the lifecycle and the fuses (R464 to R483). -/

namespace Sys2Proof.Machine

set_option cleanup.letToHave false

open Sys2Proof.Config

/-- Lifecycle states (Table KEY-1). -/
abbrev lcFactory : Nat := 0
abbrev lcCommission : Nat := 1
abbrev lcField : Nat := 2
abbrev lcReturn : Nat := 3

/-- KEY.LC_STATE as read. -/
def State.lcState (s : State) : Word :=
  word (s.lifecycle + 4 * b2n (bit (s.fuseReg 0x044) 0) + 8 * b2n s.keys.transition.isSome)

/-- SPI port and supervisor, which may move the lifecycle and write plain keys (R468, R475). -/
def vaultPath : Path → Bool
  | .spi => true
  | .supervisor => true
  | _ => false

/-- A refused message, plain write or LC_ADV (R483). -/
def State.vaultRefuse (s : State) (st : Nat) : State × Nat := (s.setPend pgKEY 1, st)

/-! ### Banked words of a path -/

def State.kumBuf (s : State) (p i : Nat) : Word := s.getBank p (dkey pgKEY (0x400 + 4 * i))
abbrev kumStatKey : Nat := dkey pgKEY 0x064
def State.kumStat (s : State) (p : Nat) : Word := s.getBank p kumStatKey
def State.setKumStat (s : State) (p : Nat) (busy : Bool) (st slot : Nat) : State :=
  s.setBank p kumStatKey (word (b2n busy + 256 * st + 65536 * (slot % 1024)))
def State.kumBytes (s : State) (p : Nat) : List Byte := (List.range 30).flatMap fun i => leBytes 4 (s.kumBuf p i).toNat

/-! ### The lifecycle (R467, R468) -/

/-- A write of LC_ADV. -/
def lcAdvEffect (p : Path) (w : Word) (s : State) : State × Nat :=
  let t := fld w 0 2
  if !vaultPath p then s.vaultRefuse stDenied
  else if fld w 16 16 ≠ 0x4C43 || t ≠ s.lifecycle + 1 || (t ≠ lcCommission && t ≠ lcField) then s.vaultRefuse stLifecycle
  else if s.pwrState ≠ pwNormal || !s.regBit pgPWR 0x050 16 then s.vaultRefuse stNotReady
  else if s.keys.transition.isSome then s.vaultRefuse stVaultBusy
  else
    let s := s.makeRoot t
    ({ s with keys := { s.keys with transition := some t } }, stOk)

/-- LC_ADV (R468). -/
def execLcAdv (p : Path) (data : Word) (s : State) : Out := access (fun s => s.port p pgKEY false (lcAdvEffect p data)) s

/-- Slots that do not survive a transition become FREE with OWNER 0 (R467). -/
def State.lcSlots (s : State) (target : Nat) : List Nat → State
  | [] => s
  | k :: t =>
    (if s.keyState k ≠ ksFree && (target = lcCommission || (target = lcReturn && s.keyOwner k ≠ 0)) then s.keyErase k
     else s).lcSlots target t

/-- The surviving slots are sealed anew under the state that the module has entered, from the second area written under the old one
(R467): `old` is the state before the fuse blow. -/
def State.reseal (s old : State) : State :=
  let ks := s.keys
  { s with keys := { ks with mat := ks.mat.map fun e => (e.1, old.keyMat e.1), sealed := ks.mat.map fun e => (e.1, s.sealKey (s.keyOwner e.1)) } }

/-! ### The identity (R469) -/

/-- The private key from the identity seed, a big-endian integer (R469). -/
def State.idPrivate (s : State) : Nat := beNat (kdf s.rootBytes "DSKV-ID" s.devBytes 320) % (n256 - 1) + 1

/-- Sixteen words from two numbers of 256 bits, each most significant word first. -/
def keyWords (a b : Nat) : List Word := (List.range 16).map fun i => word ((if i < 8 then a else b) / 2 ^ (32 * (7 - i % 8)))

/-- The words of ID_PUB: the public key in FIELD, 0 in every other state (R469). -/
def State.idWords (s : State) : List Word :=
  if s.lifecycle = lcField then let q := ecPublic s.idPrivate; keyWords q.1 q.2 else List.replicate 16 0
def State.putId (s : State) : List (Nat × Word) → State
  | [] => s
  | (i, w) :: t => (s.setReg pgKEY (0x080 + 4 * i) w).putId t
def State.showId (s : State) : State := s.putId ((List.range 16).zip s.idWords)

/-- The fuses that a transition blows: for FIELD the lock first, then the state's own. -/
def fusesTo (b : Tbl Word) (target : Nat) : Tbl Word :=
  let get := Tbl.get (fun _ => 0) b
  let b := if target = lcField then Tbl.set (fun _ => 0) b 0x044 (get 0x044 ||| 1) else b
  Tbl.set (fun _ => 0) b 0x040 (get 0x040 ||| bitMask (target - 1))

/-- A message completes with a status: KUM_STAT, counters, pending bits and record (R478). -/
def State.kumDone (s : State) (m : Submission) (st : Nat) : State :=
  let f := fun o n => ofLeBytes ((m.bytes.drop o).take n)
  let s := s.setKumStat m.path false st (f 8 2)
  let s := s.bump pgKEY (if st = stOk then 0x200 else 0x204)
  s.event pgKEY (if st = stOk then 0 else 1) [f 6 2, f 8 2, f 5 1, f 32 8, st]

/-- LIFECYCLE_TRANSITION_END (R467): slots, fuses, identity, record; a RETURN message completes with it. `trng` is the root of the state
where none stands yet (R465). -/
def lifecycleTransitionEnd (trng : BitVec 256) (s : State) : State :=
  match s.keys.transition with
  | none => s
  | some t =>
    let old := s.lifecycle
    let s := s.lcSlots t (List.range (keyLimit s.small))
    let u := { s with fuse := { s.fuse with blown := fusesTo s.fuse.blown t }, keys := { s.keys with transition := none } }
    let s := ((u.makeRootOf t trng).reseal s).showId.event pgKEY 4 [old, t]
    match s.keys.returning, s.keys.queue with
    | true, m :: q => ({ s with keys := { s.keys with queue := q, returning := false } }).kumDone m stOk
    | _, _ => s
def execLifecycleTransitionEnd (trng : BitVec 256) (s : State) : Out :=
  let t := lifecycleTransitionEnd trng s
  .next { s.land t with fuse := t.fuse }

/-! ### Key-update messages (R476 to R478) -/

/-- SUBMIT (R477): the first check of Table KEY-5, then the queue. -/
def submitEffect (p : Path) (s : State) : State × Nat :=
  let i := pathIdx p
  let m : Submission := ⟨i, s.ctxOf p, s.kumBytes i⟩
  if bit (s.kumStat i) 0 then
    let f := fun o n => ofLeBytes ((m.bytes.drop o).take n)
    ((s.bump pgKEY 0x204).event pgKEY 1 [f 6 2, f 8 2, f 5 1, f 32 8, stVaultBusy], stVaultBusy)
  else if s.keys.transition.isSome then (s.kumDone m stVaultBusy, stVaultBusy)
  else
    let s := s.setBank i kumStatKey (setBit (s.kumStat i) 0 true)
    ({ s with keys := { s.keys with queue := s.keys.queue ++ [m] } }, stOk)
def execSubmit (p : Path) (s : State) : Out := access (fun s => s.port p pgKEY true (submitEffect p)) s

/-- The fields of a message (Table KEY-4). -/
structure Kum where
  op : Nat
  ctx : Nat
  slot : Nat
  auth : Nat
  dev : Nat
  ctr : Nat
  attr : Word
  uses : Word
  formOk : Bool
deriving DecidableEq, Repr

def kumOf (b : List Byte) : Kum :=
  let f := fun o n => ofLeBytes ((b.drop o).take n)
  { op := f 5 1, ctx := f 6 2, slot := f 8 2, auth := f 10 2, dev := f 16 16, ctr := f 32 8, attr := word (f 40 4),
    uses := word (f 44 4),
    formOk := f 0 4 = 0x554B5344 && f 4 1 = 1 && 1 ≤ f 5 1 && f 5 1 ≤ 4 && f 12 4 = 0 && f 48 16 = 0 }

abbrev kmLoad : Nat := 1
abbrev kmDerive : Nat := 2
abbrev kmErase : Nat := 3
abbrev kmReturn : Nat := 4

/-- ATTR follows Table KEY-3: an AES-128 slot carries OSDP only, an AES-256 slot the other uses. -/
def attrOk (w : Word) : Bool := w.toNat < 64 && (if bit w 4 then !bit w 1 else fld w 0 4 = 0 || fld w 0 4 = 2)

/-- What the keys of the vault make of a message (Table KEY-4): whether its tag verifies and its wrapped key opens, whether the zero bytes of
its body are zero, the key that it brings and, for a DERIVE, the MASTER slot. -/
structure VaultFacts where
  tagOk : Bool
  wrapOk : Bool
  key : BitVec 256
  master : Nat
  bodyOk : Bool
deriving DecidableEq, Repr

/-- K_env and K_wrap of a message (Table KEY-2). -/
def State.envKey (s : State) (m : Kum) : List Byte := kdf (s.keyBytes m.auth) "DSKV-ENV" (s.devBytes ++ leBytes 2 m.ctx) 256
def State.wrapKey (s : State) (m : Kum) : List Byte :=
  kdf (s.keyBytes m.auth) "DSKV-WRAP" (s.devBytes ++ leBytes 2 m.ctx ++ leBytes 8 m.ctr) 256

/-- The key of a DERIVED slot (Table KEY-2): it does not depend on DEV_ID. -/
def State.derivedKey (s : State) (master ctx : Nat) (label : List Byte) (long : Bool) : List Byte :=
  kdf (s.keyBytes master) "DSKV-DERIVE" (leBytes 2 ctx ++ label) (if long then 256 else 128)

/-- The body of a message, deciphered (R476): the nonce is four zero bytes and COUNTER. -/
def kumNonce (m : Kum) : List Byte := List.replicate 4 0 ++ leBytes 8 m.ctr
def State.kumBody (s : State) (b : List Byte) (m : Kum) : List Byte := gcmStream (s.envKey m) (kumNonce m) ((b.drop 64).take 40)

/-- The vault opens a message (R476, R477). -/
def State.vaultFacts (s : State) (b : List Byte) : VaultFacts :=
  let m := kumOf b
  let body := s.kumBody b m
  let zero := fun (lo n : Nat) => ((body.drop lo).take n).all (· = 0)
  let master := ofLeBytes (body.take 2)
  let long := bit m.attr 4
  let opened := unwrapKey (s.wrapKey m) (if long then body else body.take 24)
  let key := if m.op = kmDerive then s.derivedKey master m.ctx ((body.drop 4).take 32) long else opened.getD []
  { tagOk := gcmTag (s.envKey m) (kumNonce m) (b.take 64) ((b.drop 64).take 40) = (b.drop 104).take 16,
    wrapOk := opened.isSome,
    key := BitVec.ofNat 256 (ofLeBytes key),
    master := master,
    bodyOk := if m.op = kmLoad then long || zero 24 16 else if m.op = kmDerive then zero 2 2 && zero 36 4 else zero 0 40 }

/-- Step 3 of Table KEY-5. RETURN names no target slot. -/
def State.kumInvalid (s : State) (m : Kum) (r : VaultFacts) : Bool :=
  let lim := keyLimit s.small
  !m.formOk || !r.bodyOk || lim ≤ m.slot || lim ≤ m.auth || ctxLimit s.small ≤ m.ctx || s.ctxState m.ctx = 0 ||
  !(s.keyNames m.auth kuAuth && (s.keyOwner m.auth = m.ctx || s.keyOwner m.auth = 0)) ||
  (m.op = kmReturn && m.slot ≠ 0) ||
  (m.op ≠ kmReturn && s.keyState m.slot ≠ ksFree && s.keyOwner m.slot ≠ m.ctx) ||
  (m.op = kmDerive && !(s.keyNames r.master kuMaster && s.keyOwner r.master = m.ctx)) ||
  (if m.op = kmErase ∨ m.op = kmReturn then m.attr ≠ 0 else !attrOk m.attr)

/-- A slot whose counter is at its maximum (R474). -/
abbrev ctrMax : Nat := 0xFFFFFFFFFFFFFFFF

/-- The status of a message (Table KEY-5, steps 2 to 7). -/
def State.kumStatus (s : State) (ctx : Nat) (m : Kum) (r : VaultFacts) : Nat :=
  let lc := s.lifecycle
  let target := m.op ≠ kmReturn
  if m.ctx ≠ ctx && ctx ≠ 0 then stDenied
  else if s.kumInvalid m r then stInvalid
  else if lc = lcFactory || (lc = lcReturn && m.ctx ≠ 0) ||
      (m.op = kmReturn && (lc ≠ lcField || s.keyOwner m.auth ≠ 0)) then stLifecycle
  else if m.dev ≠ ofLeBytes s.devBytes || !r.tagOk || (m.op = kmLoad && !r.wrapOk) || !s.keyUsable m.auth kuAuth ||
      (m.op = kmDerive && !s.keyUsable r.master kuMaster) then stKumAuth
  else if s.keyLocked m.auth || (target && s.keyLocked m.slot) then stSlotLocked
  else if m.ctr ≤ s.keyCtr m.auth || (target && m.ctr ≤ s.keyCtr m.slot) then stKumCounter
  else stOk

/-- A slot's counter takes a value; the highest locks the slot (R474, R483). -/
def State.setKeyCtr (s : State) (k n : Nat) : State :=
  let s := s.setInd64 pgKEY (keyAddr k + 8) n
  if n = ctrMax then (s.setKeyInfo k (setBit (s.keyInfo k) 2 true)).setPend pgKEY 3 else s

/-- A slot takes a key, its attributes, uses and owner; sessions on it close (R473, R478). -/
def State.installKey (s : State) (k st owner : Nat) (attr uses : Word) (key : BitVec 256) : State :=
  let old := s.keyState k
  let info := word (st + 8 * b2n (bit attr 5) + 16 * b2n (bit attr 4) + 256 * fld attr 0 4 + 65536 * owner)
  let s := s.setKeyInfo k (setBit info 2 (s.keyLocked k))
  let s := (s.setInd pgKEY (keyAddr k + 4) uses).sealMat k key
  (s.keyCount old st).rekeySessions k sessionNumbers

/-- KEY_UPDATE_COMPLETE (R478): the submission at the head is refused or applied. `trng` is the root of RETURN where none stands yet
(R465). -/
def keyUpdateComplete (trng : BitVec 256) (s : State) : State :=
  match s.keys.queue with
  | [] => s
  | m :: q =>
    if s.keys.transition.isSome then s
    else
      let k := kumOf m.bytes
      let r := s.vaultFacts m.bytes
      let st := s.kumStatus m.ctx k r
      let out := fun (s : State) => { s with keys := { s.keys with queue := q } }
      if st ≠ stOk then (out s).kumDone m st
      else
        let s := s.keyUse k.auth
        let s := if k.op = kmDerive then s.keyUse r.master else s
        let s :=
          if k.op = kmLoad then s.installKey k.slot ksLoaded k.ctx k.attr k.uses r.key
          else if k.op = kmDerive then s.installKey k.slot ksDerived k.ctx k.attr k.uses r.key
          else if k.op = kmErase then s.keyErase k.slot
          else s
        let s := s.setKeyCtr k.auth k.ctr
        if k.op = kmReturn then
          let s := s.makeRootOf lcReturn trng
          { s with keys := { s.keys with transition := some lcReturn, returning := true } }
        else (out (s.setKeyCtr k.slot k.ctr)).kumDone m stOk
def execKeyUpdateComplete (trng : BitVec 256) (s : State) : Out := event (fun s => keyUpdateComplete trng s) s

/-! ### Attestation (R470) -/

/-- The message that an attestation signs: DEV_ID ‖ [state]8 ‖ [CAP.FW_ACTIVE]32 ‖ N, with N from the path's buffer (R470). -/
def State.attestMessage (s : State) (p : Nat) : List Byte :=
  s.devBytes ++ leBytes 1 s.lifecycle ++ leBytes 4 s.activeImage.fw.toNat ++ (s.kumBytes p).take 32

/-- ATTEST: in FIELD only; any context may. It signs what stands at the command (log entry 16). -/
def attestEffect (p : Path) (s : State) : State × Nat :=
  if s.lifecycle ≠ lcField then (s, stLifecycle)
  else ({ s with keys := { s.keys with attesting := s.keys.attesting ++ [(pathIdx p, s.attestMessage (pathIdx p))] } }, stOk)
def execAttest (p : Path) (s : State) : Out := access (fun s => s.port p pgKEY true (attestEffect p)) s

/-- The words of a signature appear in a path's bank. -/
def State.putSig (s : State) (p : Nat) : List (Nat × Word) → State
  | [] => s
  | (i, w) :: t => (s.setBank p (dkey pgKEY (0x100 + 4 * i)) w).putSig p t

/-- The signature of a message by the identity key, r then s, most significant word first (R470), with a per-message number of 1 to
n − 1 from `k` (FIPS 186-5 leaves its choice). -/
def State.attestation (s : State) (k : BitVec 256) (m : List Byte) : List Word :=
  let q := ecdsaSign s.idPrivate (k.toNat % (n256 - 1) + 1) (sha256 m)
  keyWords q.1 q.2

/-- ATTEST_COMPLETE (R470): the oldest attestation's signature appears in ATT_SIG of its path. A module that has left FIELD since has no
identity key (R469), and shows none. -/
def attestComplete (k : BitVec 256) (s : State) : State :=
  match s.keys.attesting with
  | [] => s
  | (p, m) :: t =>
    let u := { s with keys := { s.keys with attesting := t } }
    if s.lifecycle ≠ lcField then u
    else u.putSig p ((List.range 16).zip (s.attestation k m))
def execAttestComplete (k : BitVec 256) (s : State) : Out := event (fun s => attestComplete k s) s

/-- A write of KUM_CMD. -/
def kumCmdEffect (p : Path) (w : Word) (s : State) : State × Nat :=
  let r := if bit w 0 then submitEffect p s else (s, stOk)
  if bit w 1 then
    let a := attestEffect p r.1
    (a.1, if r.2 = stOk then a.2 else r.2)
  else r

/-! ### Plain keys (R475) -/

/-- Plain writes act in FACTORY and COMMISSION. -/
abbrev State.plainAllowed (s : State) : Bool := s.lifecycle ≤ lcCommission

/-- A write of PLAIN_KEYi. -/
def plainKeyEffect (p : Path) (i : Nat) (w : Word) (s : State) : State × Nat :=
  if !s.plainAllowed then (s, stOk)
  else if !vaultPath p then s.vaultRefuse stDenied
  else ({ s with keys := { s.keys with plain := Tbl.set (fun _ => 0) s.keys.plain i w } }, stOk)

/-- A write of PLAIN_CTL. -/
def plainCtlEffect (p : Path) (w : Word) (s : State) : State × Nat :=
  let k := fld w 0 10
  let attr := word (fld w 11 4 + 16 * fld w 15 1)
  if !bit w 31 then (s, stOk)
  else if !vaultPath p then s.vaultRefuse stDenied
  else if !s.plainAllowed then s.vaultRefuse stLifecycle
  else if s.keys.transition.isSome then s.vaultRefuse stVaultBusy
  else if keyLimit s.small ≤ k || !attrOk attr then s.vaultRefuse stInvalid
  else if s.keyState k ≠ ksFree then s.vaultRefuse stInUse
  else if s.keyLocked k then s.vaultRefuse stSlotLocked
  else
    let key := (List.range 8).foldr (fun i a => a * 2 ^ 32 + (Tbl.get (fun _ => 0) s.keys.plain i : Word).toNat) 0
    let key := if bit attr 4 then key else key % 2 ^ 128
    let s := s.installKey k ksLoaded (fld w 16 9) attr 0xFFFFFFFF (BitVec.ofNat 256 key)
    ({ s with keys := { s.keys with plain := [] } }, stOk)

/-- PLAIN_KEY_GO (R475). -/
def execPlainKeyGo (p : Path) (data : Word) (s : State) : Out :=
  access (fun s => s.port p pgKEY false (plainCtlEffect p (setBit data 31 true))) s

/-! ### Fuses (R479 to R481) -/

/-- FUSE_PROG notes the last blow. -/
def State.fuseNote (s : State) (busy : Bool) (st ofs : Nat) : State :=
  s.setReg pgFUS 0x064 (word (b2n busy + 256 * st + 65536 * (ofs / 4)))

/-- A refused blow (R480). -/
def State.fuseRefuse (s : State) (st ofs : Nat) (bits : Word) : State × Nat :=
  let s := if s.keys.blowing.isSome then s else s.fuseNote false st ofs
  (s.event pgFUS 1 [ofs, bits.toNat, st], st)

/-- A write of an RW fuse register: the bits written as 1 are to be blown, whatever alias is used (R479). -/
def fuseEffect (ofs : Nat) (data : Word) (s : State) : State × Nat :=
  match RegMap.rowOf pgFUS ofs with
  | none => (s, stOk)
  | some r =>
    let bits := data &&& word r.mask
    if s.keys.blowing.isSome then s.fuseRefuse stVaultBusy ofs bits
    else if bit (s.fuseReg 0x044) 0 && !(ofs = 0x04C && bits ≠ 0 && bits &&& 0x5 = 0) then s.fuseRefuse stFuseLocked ofs bits
    else (({ s with keys := { s.keys with blowing := some (ofs, bits) } }).fuseNote true 0 ofs, stOk)

/-- FUSE_BLOW (R479, R480). -/
def execFuseBlow (p : Path) (ofs : Nat) (data : Word) (s : State) : Out :=
  access (fun s => s.parkAt p pgFUS (ofs / 4 * 4) true data fun s => s.port p pgFUS false (fuseEffect (ofs / 4 * 4) data)) s

/-- FUSE_BLOW_COMPLETE (R479): the bits are blown and take effect. -/
def fuseBlowComplete (s : State) : State :=
  match s.keys.blowing with
  | none => s
  | some (ofs, bits) =>
    let blown := Tbl.set (fun _ => 0) s.fuse.blown ofs (s.fuseReg ofs ||| bits)
    let s := { s with fuse := { s.fuse with blown := blown }, keys := { s.keys with blowing := none } }
    (s.fuseNote false stOk ofs).event pgFUS 0 [ofs, bits.toNat]
def execFuseBlowComplete (s : State) : Out :=
  let t := fuseBlowComplete s
  .next { s.land t with fuse := t.fuse }

/-- The burst limits take the fused codes at a reset (R481). -/
def State.burstReset (s : State) : State :=
  { s with fabric := { s.fabric with burst0 := s.fuseReg 0x05C, burst1 := s.fuseReg 0x060 } }

/-- Slots with EXP_RESET become FREE at a restart (R472). -/
def State.expireKeys (s : State) : List Nat → State
  | [] => s
  | k :: t => (if s.keyState k ≠ ksFree && bit (s.keyInfo k) 3 then s.keyErase k else s).expireKeys t

end Sys2Proof.Machine
end

