-- ==== Sys2Proof/Machine/Links.lean ====
section
/-! DEFINITION. Sense links (R331 to R335): the states of Table SNS-1 and the up frames of the heads. -/

namespace Sys2Proof.Machine

set_option cleanup.letToHave false

open Sys2Proof.Config

/-- Link states (Table SNS-4). -/
abbrev lkOff : Nat := 0
abbrev lkDetect : Nat := 1
abbrev lkPower : Nat := 2
abbrev lkTrain : Nat := 3
abbrev lkRun : Nat := 4
abbrev lkGap : Nat := 5
abbrev lkFault : Nat := 6

abbrev lnk (k o : Nat) : Nat := o + 64 * k
def State.link (s : State) (k : Nat) : Link := Tbl.get (fun _ => {}) s.links k
def State.setLink (s : State) (k : Nat) (x : Link) : State := { s with links := Tbl.set (fun _ => {}) s.links k x }
abbrev State.linkState (s : State) (k : Nat) : Nat := s.regFld pgSNS (lnk k 0x084) 0 3
abbrev State.linkEn (s : State) (k : Nat) : Bool := s.regBit pgSNS (lnk k 0x080) 0
abbrev State.linkShed (s : State) (k : Nat) : Bool := s.regBit pgSNS (lnk k 0x084) 10

/-- The three links exist on the MF8192-A (R5), and act while the rails are up and the I/O domains are released. -/
def State.linkLives (s : State) (k : Nat) : Bool := k < 3 && !s.small && s.power.powered && s.sys.released

/-- A link changes its state (R350 bit 0): the frames in a row start anew. -/
def State.setLinkState (s : State) (k st : Nat) (wait : Bool := false) : State :=
  let x := s.link k
  let s := s.setLink k { x with since := s.tick, wait := wait, lost := 0, good := 0, sets := if st = lkRun then x.sets else [] }
  (s.setRegFld pgSNS (lnk k 0x084) 0 3 st).setPend pgSNS 0

/-- A link that is OFF starts in DETECT when it is enabled and not shed (Table SNS-1). -/
def State.linkStart (s : State) (k : Nat) : State :=
  if s.linkLives k && s.linkState k = lkOff && s.linkEn k && !s.linkShed k then s.setLinkState k lkDetect else s
def State.linksStart (s : State) : List Nat → State
  | [] => s
  | k :: t => (s.linkStart k).linksStart t

/-- A link is switched off. -/
def State.linkOff (s : State) (k : Nat) : State :=
  if s.linkState k = lkOff then s else (s.setRegBit pgSNS (lnk k 0x084) 8 false).setLinkState k lkOff

/-- A write of LNK_CTLk with its settled value (R331). -/
def linkCtlEffect (k : Nat) (w : Word) (s : State) : State × Nat :=
  let s := s.setReg pgSNS (lnk k 0x080) w
  (if bit w 0 then s.linkStart k else s.linkOff k, stOk)

/-- The tick of the next detection: at the entry into DETECT, then once every 2 s (R53). -/
def State.nextDetect (s : State) (k : Nat) : Nat :=
  let t := (s.link k).since
  t + ceilDiv (s.tick - t) (2 * ftPerS) * (2 * ftPerS)

/-- HEAD_DETECTED (R331, R53): the presence load is seen at a detection, and the supply switches on. -/
def headDetected (k : Nat) (s : State) : State :=
  if s.linkLives k && s.linkState k = lkDetect && !(s.link k).wait then
    let s := s.until (s.nextDetect k)
    (s.setReg pgSNS (lnk k 0x084) (setBit (setBit (s.reg pgSNS (lnk k 0x084)) 8 true) 9 false)).setLinkState k lkPower
  else s
def execHeadDetected (k : Nat) (s : State) : Out := event (fun s => headDetected k s) s

/-- HEAD_IDLE_SYMBOLS (Table SNS-1): within 200 ms of supply on. -/
def headIdleSymbols (k : Nat) (s : State) : State :=
  if s.linkLives k && s.linkState k = lkPower && s.tick ≤ (s.link k).since + 200 * ftPerMs then s.setLinkState k lkTrain else s
def execHeadIdleSymbols (k : Nat) (s : State) : Out := event (fun s => headIdleSymbols k s) s

/-- The one-way delay of eight round trips in ft (R332): the mean less 240 ft, halved, to nearest. -/
def linkDelay (rounds : List Nat) : Nat :=
  (Frac.round (Frac.scale (Frac.sub (Frac.ofNat rounds.sum) (Frac.ofNat (240 * rounds.length))) 1 (2 * max rounds.length 1))).toNat

/-- LINK_TRAINED (R332): within 50 ms. The frames of TRAIN serve the samples still to be processed. -/
def linkTrained (k : Nat) (rounds : List Nat) (s : State) : State :=
  if s.linkLives k && s.linkState k = lkTrain && s.tick ≤ (s.link k).since + 50 * ftPerMs then
    (s.setReg pgSNS (lnk k 0x088) (word (linkDelay rounds))).setLinkState k lkRun
  else s
def execLinkTrained (k : Nat) (rounds : List Nat) (s : State) : Out := event (fun s => linkTrained k rounds s) s

/-- LINK_TIME_LIMIT (Table SNS-1): 200 ms of POWER, 50 ms of TRAIN; the supply switches off. An arrival in the last ft wins (R148). -/
def linkTimeLimit (k : Nat) (s : State) : State :=
  let st := s.linkState k
  if s.linkLives k && (st = lkPower || st = lkTrain) then
    let s := s.expire ((s.link k).since + (if st = lkPower then 200 else 50) * ftPerMs)
    (s.setRegBit pgSNS (lnk k 0x084) 8 false).setLinkState k lkDetect true
  else s
def execLinkTimeLimit (k : Nat) (s : State) : Out := event (fun s => linkTimeLimit k s) s

/-- SENSE_SUPPLY_TRIP (R331, R350). -/
def senseSupplyTrip (k : Nat) (s : State) : State :=
  let st := s.linkState k
  if s.linkLives k && 2 ≤ st && st ≤ 5 then
    let s := (s.setRegBit pgSNS (lnk k 0x084) 9 true).bump pgSNS (lnk k 0x09C)
    (s.setPend pgSNS 2).setLinkState k lkFault
  else s
def execSenseSupplyTrip (k : Nat) (s : State) : Out := event (fun s => senseSupplyTrip k s) s

/-- SENSE_LINK_RETRY (R53, Table SNS-1): 2 s after a failure; or another 2 s after a detection that found no head. -/
def senseLinkRetry (k : Nat) (s : State) : State :=
  let st := s.linkState k
  if s.linkLives k && (st = lkFault || st = lkDetect) then
    let again := (s.link k).since + 2 * ftPerS
    let s := s.until (if st = lkFault || (s.link k).wait then again else max again (s.nextDetect k))
    if st = lkFault then s.setLinkState k lkDetect else s.setLink k { s.link k with wait := false, since := s.tick }
  else s
def execSenseLinkRetry (k : Nat) (s : State) : Out := event (fun s => senseLinkRetry k s) s

/-- The link of the head register at an indirect address, and its byte offset (Table SNS-5). -/
def headOf (ia : Nat) : Option (Nat × Nat) :=
  if 0x100000 ≤ ia ∧ ia < 0x400000 then some (ia / 0x100000 - 1, ia % 0x100000) else none

/-- The byte address and the access, where an indirect access in progress on SNS is one to a head register of link k (R335). -/
def State.headAccess (s : State) (k : Nat) : Option (Nat × IndOp) :=
  match (Tbl.get (fun _ => none) s.busy pgSNS : Option IndOp) with
  | some op =>
    let a := fld (s.getBank (pathIdx op.path) (dkey pgSNS 0x020)) 0 24 / 4 * 4
    if (headOf a).map (·.1) = some k then some (a, op) else none
  | none => none

/-- The sample number of the latest sample anchor (R315). -/
def State.sampleNo (s : State) : Nat := s.theta / 8388608

/-- Frames run on a link in TRAIN, RUN and GAP (R333). -/
def State.linkTalks (s : State) (k : Nat) : Bool :=
  s.linkLives k && (s.linkState k = lkTrain || s.linkState k = lkRun || s.linkState k = lkGap)

/-- CMD, ADDR and DATA of the next down frame (Table SNS-2): in TRAIN an echo; the head register access in progress; or none. -/
def State.headCmd (s : State) (k : Nat) : Nat × Nat × Word :=
  if s.linkState k = lkTrain then (3, 0, 0)
  else match s.headAccess k with
    | some (a, op) => (if op.write then 2 else 1, a % 0x10000, if op.write then op.data else 0)
    | none => (0, 0, 0)

/-- The down frame of sample n (Table SNS-2): K28.5, then nine bytes. CRC-8 begins at 0 and runs highest bit first (log entry 57). -/
def State.downFrame (s : State) (k n : Nat) : List Byte :=
  let c := s.headCmd k
  let b := BitVec.ofNat 8 n :: BitVec.ofNat 8 c.1 :: (leBytes 2 c.2.1 ++ leBytes 4 c.2.2.toNat)
  0xBC :: (b ++ [BitVec.ofNat 8 (crcOf 8 0x07 0 b)])

/-- The down frames of a sample anchor (R333). -/
def State.strobe (s : State) (n : Nat) : List Nat → State
  | [] => s
  | k :: t => (if s.linkTalks k then s.setLink k { s.link k with down := s.downFrame k n } else s).strobe n t

/-- The bytes of an up frame over which its CRC is taken (Table SNS-3). -/
def upBytes (f : UpFrame) : List Byte :=
  BitVec.ofNat 8 f.seq :: f.stat :: (f.samples.flatMap (fun x => leBytes 3 (wrapInt 24 x)) ++
    BitVec.ofNat 8 f.rstat :: leBytes 4 f.rdata.toNat)
def upGood (f : UpFrame) : Bool := crcOf 16 0x1021 0xFFFF (upBytes f) = f.crc

/-- The samples whose up frames can still come: sample n is sent after the STROBE of n + 2, and its set is processed in the ft of anchor
n + 8 (R317, R333, R334). -/
def State.framesDue (s : State) : List Nat :=
  ((List.range 7).map fun i => s.sampleNo - 2 - i).filter fun n => decide (n + 2 ≤ s.sampleNo) && decide (s.meter.done < n + 8)

/-- UP_FRAME (R333, R334). A frame with a wrong CRC, or with the SEQ of no sample that is due, is not taken; a good one brings its samples
and, where the preceding down frame carried a head register access, the reply to it. A bad address reads 0 (R139). -/
def upFrame (k : Nat) (fr : UpFrame) (s : State) : State :=
  if !s.linkTalks k then s
  else match (if upGood fr then s.framesDue.find? fun n => fr.seq = n % 256 else none) with
    | none => s.bump pgSNS (lnk k 0x098)
    | some n =>
      let x := s.link k
      let reply := if (s.headAccess k).isSome && fr.rstat ≤ 1 then some (if fr.rstat = 0 then fr.rdata else 0) else x.reply
      let s := s.setLink k { x with sets := (n, fr.samples) :: (x.sets.filter fun e => e.1 ≠ n).take 15, reply := reply }
      (s.setReg pgSNS (lnk k 0x08C) (word fr.stat.toNat)).bump pgSNS (lnk k 0x090)
def execUpFrame (k : Nat) (fr : UpFrame) (s : State) : Out := event (fun s => upFrame k fr s) s

/-- The processing ft of sample n on link k (R334): the sample set in force, or none in a gap, and the state that follows. -/
def State.linkSample (s : State) (k n : Nat) : State × Option (List Int) :=
  let st := s.linkState k
  if !(s.linkLives k && (st = lkRun || st = lkGap)) then (s, none)
  else
    let x := s.link k
    let got := (x.sets.find? fun e => e.1 = n).map (·.2)
    match got with
    | some v =>
      let x := { x with lost := 0, good := x.good + 1, set := v }
      let s := s.setLink k x
      if st = lkRun then (s, some v)
      else if s.regFld pgSNS (lnk k 0x080) 8 8 ≤ x.good then (s.setLinkState k lkRun, some v)
      else (s, none)
    | none =>
      let s := (s.bump pgSNS (lnk k 0x094)).setPend pgSNS 1
      let lost := x.lost + 1
      let s := s.setLink k { x with lost := lost, good := 0 }
      if st = lkRun then
        if lost ≤ s.regFld pgSNS (lnk k 0x080) 4 3 then (s.bump pgMTR 0x084, some x.set)
        else
          let t := s.setLinkState k lkGap
          (t.setLink k { t.link k with lost := lost, sets := x.sets }, none)
      else if 512 ≤ lost then ((s.setRegBit pgSNS (lnk k 0x084) 8 false).setLinkState k lkDetect true, none)
      else (s, none)

end Sys2Proof.Machine
end

