-- ==== Sys2Proof/Machine/Bus.lean ====
section
/-! DEFINITION. Field buses, first part (R352 to R365): channels and their states, message-buffer credits, queues, and the
cyclic traffic through filters, image slots, output frames and mappings. -/

namespace Sys2Proof.Machine

set_option cleanup.letToHave false

open Sys2Proof.Config

/-! ### Channels -/

def State.busCh (s : State) (ch : Nat) : BusCh := Tbl.get (fun _ => {}) s.bus ch
def State.setBus (s : State) (ch : Nat) (b : BusCh) : State := { s with bus := Tbl.set (fun _ => {}) s.bus ch b }

/-- The kinds of the fourteen channels (R353). -/
abbrev isCan (ch : Nat) : Bool := ch < 6
abbrev isDali (ch : Nat) : Bool := 6 ≤ ch && ch < 10
abbrev isRsb (ch : Nat) : Bool := 10 ≤ ch && ch < 14

abbrev State.busMode (s : State) (ch : Nat) : Nat := s.regFld (busPage ch) 0x040 0 2
abbrev State.canStat (s : State) (ch : Nat) : Nat := s.regFld (busPage ch) 0x054 0 2
abbrev csOff : Nat := 0
abbrev csActive : Nat := 1
abbrev csPassive : Nat := 2
abbrev csBusOff : Nat := 3

/-- The channel is down (R359). -/
def State.busDown (s : State) (ch : Nat) : Bool :=
  let m := s.busMode ch
  if isCan ch then m = 0 || m = 3 || s.canStat ch = csBusOff
  else if isDali ch then m = 0 || m = 2 || s.regBit (busPage ch) 0x04C 0 || s.regBit (busPage ch) 0x048 2
  else m = 0

/-- The channel listens to its bus: its I/O domain is released and its mode is not OFF; a CAN channel has integrated (R366), and an RS-485
port is not shed (R82). -/
def State.busHears (s : State) (ch : Nat) : Bool :=
  s.power.powered && s.sys.released && s.busMode ch ≠ 0 && !(isRsb ch && (s.busCh ch).shed) &&
  (!isCan ch || s.canStat ch = csActive || s.canStat ch = csPassive)

/-- The channel may transmit: not down, not on a standby (Table PAR-6), not in a module fault (Table SYS-5), not shed, and not
under a save; and silent after a release until the first OUTPUT phase or its first scheduled transmission (R70). -/
def State.busSends (s : State) (ch : Nat) : Bool :=
  (s.started 0 || (s.busCh ch).sched) && s.busHears ch && !s.busDown ch && s.working && !s.isStandby && !(s.busCh ch).shed && !(isCan ch && s.busMode ch = 2)

/-- Counter n of a channel (Table BUS-9). -/
abbrev State.busCount (s : State) (ch n : Nat) (k : Nat := 1) : State := s.bump (busPage ch) (0x100 + 4 * n) k

/-- A refused write of a field-bus page (R378): tables 0 queue to 7 register. -/
def State.busRefuse (s : State) (ch st tab e : Nat) : State × Nat :=
  ((s.setReg (busPage ch) 0x07C (word (st + 256 * tab + 65536 * e))).setPend (busPage ch) 4, st)

/-! ### Credits (R355 to R357) -/

abbrev pgPool : Nat := 0x18
abbrev crFree : Nat := 0x304
abbrev crQuota : Nat := 0x308
abbrev crQueued : Nat := 0x30C
abbrev crFlight : Nat := 0x310

/-- ALLOC_c and AVAIL_c. -/
abbrev State.crdAlloc (s : State) (c : Nat) : Nat := fld (s.ind pgPool (0x100000 + 8 * c)) 0 13
abbrev State.crdAvail (s : State) (c : Nat) : Nat := (s.ind pgPool (0x100004 + 8 * c)).toNat
abbrev State.crd (s : State) (o : Nat) : Nat := (s.reg pgPool o).toNat

/-- `n` credits move between two of the terms. -/
def State.crdMove (s : State) (src dst n : Nat) : State :=
  let s := s.setReg pgPool src (s.reg pgPool src - word n)
  s.setReg pgPool dst (s.reg pgPool dst + word n)

/-- `n` credits leave AVAIL of a context for another term, and come back. -/
def State.crdDraw (s : State) (c dst n : Nat) : State :=
  (s.crdMove crQuota dst n).setInd pgPool (0x100004 + 8 * c) (word (s.crdAvail c - n))
def State.crdReturn (s : State) (c src n : Nat) : State :=
  (s.crdMove src crQuota n).setInd pgPool (0x100004 + 8 * c) (word (s.crdAvail c + n))

/-- The credit check (R34, R355): an unequal sum is recorded with its terms and is the module fault CREDIT. Its read of the words finds
struck ones (R35). It runs in every ft in which time alone passes and at the end of each command that moves credits. -/
def State.crdCheck (s : State) : State :=
  let s := s.suspects creditWords s.fabric.struck
  if s.crd crFree + s.crd crQuota + s.crd crQueued + s.crd crFlight = creditTotal s.small then s
  else (s.record 0x0124 [s.crd crFree, s.crd crQuota, s.crd crQueued, s.crd crFlight]).moduleFault mfCredit

/-! ### Queues (R353, R358) -/

abbrev State.qcfg (s : State) (ch k : Nat) : Word := s.reg (busPage ch) (0x200 + 4 * k)
def State.busQueue (s : State) (ch k : Nat) : List Message := Tbl.get (fun _ => []) (s.busCh ch).queue k
def creditsOf (l : List Message) : Nat := (l.map (·.credits)).sum

/-- A queue holds these messages; QSTATk follows. -/
def State.setQueue (s : State) (ch k : Nat) (l : List Message) : State :=
  let b := s.busCh ch
  (s.setBus ch { b with queue := Tbl.set (fun _ => []) b.queue k l }).setReg (busPage ch) (0x240 + 4 * k)
    (word (creditsOf l + 65536 * l.length))

/-- Credits of an image (R354). -/
abbrev imageCredits (n : Nat) : Nat := ceilDiv n 64

/-- A received image goes towards queue k of the channel (R357): dropped where AVAIL or DEPTH does not suffice; a queue that
is not enabled takes nothing. On a standby nothing is queued. -/
def State.rxTo (s : State) (ch k : Nat) (img : List Byte) : State :=
  let q := s.qcfg ch k
  let c := fld q 0 9
  let n := imageCredits img.length
  let held := creditsOf (s.busQueue ch k) + creditsOf (((s.busCh ch).arriving.filter (·.1 = k)).map (·.2))
  if s.isStandby then s
  else if bit q 15 && s.crdAvail c < n then (s.busCount ch 3).setPend (busPage ch) 2
  else if !bit q 15 || fld q 16 8 < held + n then (s.busCount ch 4).setPend (busPage ch) 2
  else
    let s := s.crdDraw c crFlight n
    (s.setBus ch { s.busCh ch with arriving := (s.busCh ch).arriving ++ [(k, ⟨c, n, img⟩)] }).crdCheck

/-- RX_QUEUE_ENTRY (R357): the oldest image on its way to queue k enters it. -/
def rxQueueEntry (ch k : Nat) (s : State) : State :=
  let b := s.busCh ch
  match b.arriving.find? (·.1 = k) with
  | none => s
  | some (_, m) =>
    let s := s.setBus ch { b with arriving := b.arriving.eraseP (·.1 = k) }
    ((s.crdMove crFlight crQueued m.credits).setQueue ch k (s.busQueue ch k ++ [m])).crdCheck

def execRxQueueEntry (ch k : Nat) (s : State) : Out := event (fun s => rxQueueEntry ch k s) s

/-- The message of a transmission in flight. -/
def Sending.message : Sending → Option Message
  | .msg _ m _ => some m
  | _ => none

/-- Discard messages of a channel: credits return, and each counts in TX_DISC (R359, R33). -/
def State.discardMsgs (s : State) (ch src : Nat) : List Message → State
  | [] => s
  | m :: t => ((s.crdReturn m.ctx src m.credits).busCount ch 7).discardMsgs ch src t
def State.discardQueues (s : State) (ch : Nat) : List Nat → State
  | [] => s
  | k :: t => ((s.discardMsgs ch crQueued (s.busQueue ch k)).setQueue ch k []).discardQueues ch t

/-- The messages whose credits are in flight for a transmission: of the frame in flight, or of the second frame to come. -/
def BusCh.inFlight (b : BusCh) : List Message :=
  (match b.flight with | some x => x.message.toList | none => []) ++
  (match b.second with | some x => x.message.toList | none => [])

/-- A reference message that could not be sent (R369). -/
def State.refMiss (s : State) (ch : Nat) : State := (s.busCount ch 12).setPend (busPage ch) 3

/-- A reference message is offered or in flight. -/
def BusCh.refOpen (b : BusCh) : Bool :=
  b.ref.isSome || (match b.flight with | some (.ref _ _ _ _) => true | _ => false)

/-- The channel goes down (R359): every transmit queue and every transmission in flight is discarded; a reference message not
yet sent is missed (R369). -/
def State.goDown (s : State) (ch : Nat) : State :=
  let s := if (s.busCh ch).refOpen then (s.refMiss ch).setBus ch { s.busCh ch with ref := none } else s
  let s := s.discardMsgs ch crFlight (s.busCh ch).inFlight
  let s := s.setBus ch { s.busCh ch with flight := none, second := none, open_ := false, reply := none, retries := 0, target := none }
  (s.discardQueues ch [0, 1, 2, 3, 4, 5, 6, 7]).crdCheck

/-- After a change, a channel that is now down and was not, goes down. -/
def State.downIf (s : State) (ch : Nat) (wasDown : Bool) : State := if !wasDown && s.busDown ch then s.goDown ch else s

/-! ### Image slots (R361, R362) -/

/-- A message image (Table BUS-2). -/
def busImage (id : Nat) (len status : Nat) (stamp : Nat) (payload : List Byte) : List Byte :=
  leBytes 4 id ++ leBytes 4 (len + 65536 * status) ++ leBytes 8 stamp ++ payload
def imgWord (img : List Byte) (k : Nat) : Nat := ofLeBytes ((img.drop (4 * k)).take 4)
abbrev imgLen (img : List Byte) : Nat := imgWord img 1 % 512
abbrev imgFresh (img : List Byte) : Bool := imgWord img 1 / 2 ^ 24 % 2 = 1
def setFresh (img : List Byte) (b : Bool) : List Byte :=
  img.take 4 ++ leBytes 4 (imgWord img 1 % 2 ^ 24 + 2 ^ 24 * b2n b) ++ img.drop 8

/-- The channel is the time master of a class (R369). -/
def State.masterOf (s : State) (ch c : Nat) : Bool :=
  isCan ch && s.regBit (busPage ch) 0x060 0 && s.regFld (busPage ch) 0x060 1 3 = c

/-- The anchor of a reference message that is offered or in flight. -/
def BusCh.refAnchor (b : BusCh) : Option Nat :=
  match b.ref, b.flight with
  | some (.ref _ a _ _), _ => some a
  | _, some (.ref _ a _ _) => some a
  | _, _ => none

/-- A frame validated now is after the freeze of an occurrence, and its reference message has not completed before this ft (R362). -/
def State.refLate (s : State) (ch : Nat) : Bool := s.sooner (s.busCh ch).refAnchor || (s.busCh ch).refDone = some s.tick

/-- The images as they stood at the start of the ft, for the slots written in it. -/
def State.slotsWere (s : State) (ch : Nat) : Tbl (List Byte) :=
  if (s.busCh ch).wasAt = some s.tick then (s.busCh ch).was else []

/-- A frame is written into an image slot (R362). A slot that is not enabled takes none. -/
def State.toSlot (s : State) (ch slot : Nat) (img : List Byte) : State :=
  let cfg := s.imgCfg (busPage ch) slot
  if !bit cfg 31 then s
  else
    let b := s.busCh ch
    let old := Tbl.get (fun _ => []) b.img slot
    let were := s.slotsWere ch
    let were := if were.any (fun e => e.1 = slot) then were else (slot, old) :: were
    let late := s.masterOf ch (fld cfg 0 3) && s.refLate ch
    let s := if imgFresh old then s.busCount ch 5 else s
    let s := if late then s.busCount ch 6 else s
    s.setBus ch { b with img := Tbl.set (fun _ => []) b.img slot (setFresh img true), was := were, wasAt := some s.tick }

/-- The first filter that matches an ID (R361). -/
def State.filterFor (s : State) (ch : Nat) (id : Word) : Option Nat :=
  let pg := busPage ch
  let n := if isCan ch then 256 else 32
  (s.listed pg 0x000008 16 n fun w => fld w 0 2 ≠ 0).find? fun f =>
    (id ^^^ s.ind pg (16 * f)) &&& s.ind pg (16 * f + 4) &&& 0x3FFFFFFF = 0

/-- A validated frame meets the filters. -/
def State.filterFrame (s : State) (ch : Nat) (id : Word) (img : List Byte) : State :=
  match s.filterFor ch id with
  | none => s.busCount ch 2
  | some f =>
    let a := s.ind (busPage ch) (16 * f + 8)
    match fld a 0 2 with
    | 2 => s.toSlot ch (fld a 8 7) img
    | 3 => s.rxTo ch (fld a 8 7) img
    | _ => s

/-- A standby notes the reference messages of its CAN time masters (R518): the occurrence count of the class, modulo 64 (R369). -/
def State.hearRef (s : State) (ch : Nat) (fr : BusFrame) : State :=
  let pg := busPage ch
  match fr.payload with
  | b :: _ =>
    if s.isStandby && s.regBit pg 0x060 0 && fld fr.id 0 29 = s.regFld pg 0x064 0 29 then
      { s with pair := { s.pair with lastRef := Tbl.set (fun _ => none) s.pair.lastRef (s.regFld pg 0x060 1 3) (some (b.toNat % 64)) } }
    else s
  | [] => s

/-- CAN_FRAME_VALIDATED (R361). -/
def canFrameValidated (ch : Nat) (fr : BusFrame) (s : State) : State :=
  if isCan ch && s.busHears ch then
    let s := (s.hearRef ch fr).busCount ch 1
    if fr.remote then s.busCount ch 2
    else s.filterFrame ch fr.id (busImage fr.id.toNat (fr.payload.length % 512) 0 s.tick fr.payload)
  else s

def execCanFrameValidated (ch : Nat) (fr : BusFrame) (s : State) : Out := event (fun s => canFrameValidated ch fr s) s

/-- DALI_EVENT_FRAME (R361). -/
def daliEventFrame (ch : Nat) (frame : BitVec 24) (s : State) : State :=
  let c := 6 + ch
  if isDali c && s.busHears c then
    (s.busCount c 1).filterFrame c (frame.setWidth 32) (busImage 3 3 0 s.tick (leBytes 3 frame.toNat))
  else s

def execDaliEventFrame (ch : Nat) (frame : BitVec 24) (s : State) : Out := event (fun s => daliEventFrame ch frame s) s

/-- At a capture ft a channel freezes the slots of due classes (R362): of a slot written in this ft the image before it, whose frame has
then been frozen and not replaced. -/
def freezeImgs (due : Nat → Bool) (were : Tbl (List Byte)) : Tbl (List Byte) → Tbl (List Byte) → Tbl (List Byte) × Tbl (List Byte)
  | [], fz => ([], fz)
  | (k, img) :: t, fz =>
    let r := freezeImgs due were t fz
    if !due k then ((k, img) :: r.1, r.2)
    else match were.find? (fun e => e.1 = k) with
      | some (_, []) => ((k, img) :: r.1, r.2)
      | some (_, old) => ((k, img) :: r.1, Tbl.set (fun _ => []) r.2 k old)
      | none => ((k, setFresh img false) :: r.1, Tbl.set (fun _ => []) r.2 k img)

def State.freezeBuses (s : State) (due : Nat → Bool) : List Nat → State
  | [] => s
  | ch :: t =>
    let b := s.busCh ch
    let due' := fun k => due (fld (s.imgCfg (busPage ch) k) 0 3)
    let were := s.slotsWere ch
    let r := freezeImgs due' were b.img b.frozen
    let kept := (were.filter fun e => due' e.1 && imgFresh e.2).length
    let s := s.setBus ch { b with img := r.1, frozen := r.2, was := were.filter fun e => !due' e.1 }
    (if kept = 0 then s else s.setReg (busPage ch) (0x100 + 4 * 5) (s.reg (busPage ch) (0x100 + 4 * 5) - word kept)).freezeBuses due t

/-! ### Mappings (R363 to R365) -/

abbrev State.mapPt (s : State) (ch m : Nat) : Nat := fld (s.ind (busPage ch) (0x040000 + 8 * m)) 0 13
abbrev State.mapDef (s : State) (ch m : Nat) : Word := s.ind (busPage ch) (0x040004 + 8 * m)
abbrev mapOut (w : Word) : Bool := bit w 0
abbrev mapSlot (w : Word) : Nat := fld w 1 7
abbrev mapOfs (w : Word) : Nat := fld w 8 9
abbrev mapWidth (w : Word) : Nat := fld w 17 7
abbrev mapFmt (w : Word) : Nat := fld w 24 2
def mapCount (ch : Nat) : Nat := if isCan ch then 512 else 256
def imgSlots (ch : Nat) : Nat := if isCan ch then 128 else 64

/-- The enabled mappings of a channel of one direction. -/
def State.maps (s : State) (ch : Nat) (out : Bool) : List Nat :=
  s.listed (busPage ch) 0x040004 8 (mapCount ch) fun w => bit w 31 && mapOut w = out

/-- A field of `w` bits read under a format: its type and stored value (R364). -/
def fieldValue (fmt w v : Nat) : Nat × Dword :=
  match fmt with
  | 0 => (tUint64, BitVec.ofNat 64 v)
  | 1 => (tInt64, BitVec.ofInt 64 (sext w v))
  | _ => if w = 32 then (tFloat32, BitVec.ofNat 64 v) else (tFloat64, BitVec.ofNat 64 v)

/-- A point's value as a field of `w` bits under a format (R365): the bits. -/
def valueField (fmt w typ : Nat) (v : Dword) : Nat :=
  match fmt with
  | 0 => min (convert typ tUint64 v).1.toNat (2 ^ w - 1)
  | 1 => wrapInt w (clampInt (-(2 : Int) ^ (w - 1)) ((2 : Int) ^ (w - 1) - 1) (convert typ tInt64 v).1.toInt)
  | _ => if w = 32 then (convert typ tFloat32 v).1.toNat else (convert typ tFloat64 v).1.toNat

/-- What one input mapping stages (R364). -/
def State.mapStages (s : State) (ch m : Nat) : Option (Nat × Dword × Nat) :=
  let w := s.mapDef ch m
  let img := Tbl.get (fun _ => []) (s.busCh ch).frozen (mapSlot w)
  if img.isEmpty || 8 * imgLen img < mapOfs w + mapWidth w then none
  else
    let v := ofLeBytes (img.drop 16) / 2 ^ mapOfs w % 2 ^ mapWidth w
    let r := fieldValue (mapFmt w) (mapWidth w) v
    let pt := s.mapPt ch m
    some (pt, (convert r.1 (s.ptType pt) r.2).1, wkBus)

/-- The staged values of the input mappings whose slots are of due classes. -/
def State.busStaged (s : State) (due : Nat → Bool) : List (Nat × Dword × Nat) :=
  (List.range 10).flatMap fun ch =>
    ((s.maps ch false).filter fun m => due (fld (s.imgCfg (busPage ch) (mapSlot (s.mapDef ch m))) 0 3)).filterMap
      (s.mapStages ch)

/-! ### Output frames (R365) -/

abbrev State.ofWord (s : State) (ch o k : Nat) : Word := s.ind (busPage ch) (0x030000 + 16 * o + 4 * k)

/-- A number with `w` of its bits at `ofs` replaced. -/
def putBits (n ofs w v : Nat) : Nat := n - n / 2 ^ ofs % 2 ^ w * 2 ^ ofs + v % 2 ^ w * 2 ^ ofs

/-- The payload of an output frame from the points' values now. A DALI frame starts from its template. -/
def State.framePayload (s : State) (ch o : Nat) : Nat :=
  ((s.maps ch true).filter fun m => mapSlot (s.mapDef ch m) = o).foldl
    (fun n m =>
      let w := s.mapDef ch m
      let pt := s.mapPt ch m
      putBits n (mapOfs w) (mapWidth w) (valueField (mapFmt w) (mapWidth w) (s.ptType pt) (s.ptValue pt)))
    (if isDali ch then fld (s.ofWord ch o 0) 0 24 else 0)

/-- The image of an output frame. -/
def State.frameImage (s : State) (ch o : Nat) : List Byte :=
  let id := s.ofWord ch o 0
  let f := s.ofWord ch o 1
  if isDali ch then
    let n := if bit f 0 then 3 else 2
    busImage (b2n (bit f 0) + 256 * fld f 4 3) n 0 0 (leBytes n (s.framePayload ch o))
  else
    let n := fld f 0 7
    busImage (fld id 0 29 + 2 ^ 29 * fld f 8 3) n 0 0 (leBytes n (s.framePayload ch o))

/-- The enabled output frames of due classes, with their images, captured in the OUTPUT commit ft. -/
def State.dueFrames (s : State) (due : Nat → Bool) : List (Nat × Nat × List Byte) :=
  (List.range 10).flatMap fun ch =>
    (s.listed (busPage ch) 0x030008 16 64 fun w => bit w 31 && due (fld w 0 3)).map fun o => (ch, o, s.frameImage ch o)

/-- A built frame is queued (R365). -/
def State.queueFrame (s : State) (ch o : Nat) (img : List Byte) : State :=
  let b := s.busCh ch
  let last := Tbl.get (fun _ => []) b.lastSent o
  if bit (s.ofWord ch o 1) 12 && !last.isEmpty && decide (last.drop 16 = img.drop 16) then s
  else
    let s := if (Tbl.get (fun _ => []) b.built o).isEmpty then s else s.busCount ch 9
    s.setBus ch { b with built := Tbl.set (fun _ => []) b.built o img }
def State.queueFrames (s : State) : List (Nat × Nat × List Byte) → State
  | [] => s
  | (ch, o, img) :: t => (s.queueFrame ch o img).queueFrames t

end Sys2Proof.Machine
end

