-- ==== Sys2Proof/Machine/Store.lean ====
section
/-! DEFINITION. The hold-up store (R74, R76): its energy, what loads it and what it feeds, and its voltage. -/

namespace Sys2Proof.Machine

set_option cleanup.letToHave false

open Sys2Proof.Config

/-- The sum of the currents programmed for the DALI supplies, in mA. -/
def State.daliCurrent (s : State) : Nat := ((List.range 4).map fun n => s.regFld (pgDAL n) 0x044 0 7).sum
/-- The maximum input power in mW (Table PWR-6). -/
def inputLimit (small : Bool) : Nat := if small then 20000 else 38000
/-- PWR.BUDGET with a sum of programmed DALI currents (Table PWR-2). -/
def State.budgetWith (s : State) (mA : Nat) : Nat :=
  (if s.small then 14000 else 26000) + 24 * mA

/-- What the loads not shed draw from the store in 0.1 mW (Table PWR-2); in DOWN the power supervisor alone (R85). -/
def State.storeDraw (s : State) : Nat :=
  if s.pwrState = pwDown then 2000
  else
    (if s.small then 40000 else 70000) +
    (if s.regBit pgPWR 0x04C 3 then 0 else 53000) +
    (if s.regBit pgPWR 0x04C 2 then 0 else 8000) +
    (if s.regBit pgPWR 0x04C 1 || s.small then 0 else 49000) +
    (if s.regBit pgPWR 0x04C 0 then 0 else 208 * s.daliCurrent)

/-- The store feeds the rails: a power-fail decision is in force, or the module is in DOWN. -/
def State.storeFeeds (s : State) : Bool := (s.power.pf && s.power.powered) || s.pwrState = pwDown

/-- The charger's power into the store in 0.1 mW (Table DOC-2). -/
def State.chargeRate (s : State) : Nat := if s.small then 20000 else 45000

/-- The capacitance in mF: the last measurement, or the nominal 1.5 F before the first. -/
def State.storeCap (s : State) : Nat := let c := (s.reg pgPWR 0x054).toNat; if c = 0 then 1500 else c

/-- The energy at a voltage in mV: ½ · C · V², in 0.1 mW · ft. -/
def State.storeOf (s : State) (mV : Nat) : Nat := 2000 * s.storeCap * mV * mV

/-- The energy now. -/
def State.storeNow (s : State) : Nat :=
  let dt := s.tick - s.power.storeAt
  if s.storeFeeds then s.power.store - s.storeDraw * dt
  else if s.regBit pgPWR 0x050 18 then max s.power.store (min (s.storeOf 5400) (s.power.store + s.chargeRate * dt))
  else s.power.store

/-- The voltage now in mV, to nearest. -/
def State.storeVolts (s : State) : Nat := (isqrt (4 * s.storeNow / (2000 * s.storeCap)) + 1) / 2

/-- HOLDUP_STAT takes a voltage (R76): READY sets from 5.30 V and clears below 5.00 V; the charger stops at V_FULL. -/
def State.noteVolt (s : State) (mV : Nat) : State :=
  let s := s.setRegFld pgPWR 0x050 0 14 (min mV 16383)
  let s := if 5400 ≤ mV then s.setRegBit pgPWR 0x050 18 false else s
  let was := s.regBit pgPWR 0x050 16
  let now := decide (5300 ≤ mV) || (was && decide (5000 ≤ mV))
  if was = now then s else (s.setRegBit pgPWR 0x050 16 now).setPend pgPWR 3

/-- The store is brought up to now: before its loads or its charger change, and for a read of HOLDUP_STAT. -/
def State.settle (s : State) : State :=
  let e := s.storeNow
  ({ s with power := { s.power with store := e, storeAt := s.tick } }).noteVolt s.storeVolts

/-- The store is measured at a voltage in mV. -/
def State.storeVolt (s : State) (mV : Nat) : State :=
  ({ s with power := { s.power with store := s.storeOf mV, storeAt := s.tick } }).noteVolt mV

/-- The tick at which the store, as it is fed or charged now, stands at a voltage; the present one where it never will or has
passed it. -/
def State.storeTick (s : State) (mV : Nat) : Nat :=
  let e := s.storeNow
  let g := s.storeOf mV
  if s.storeFeeds then s.tick + ceilDiv (e - g) s.storeDraw
  else if s.regBit pgPWR 0x050 18 then s.tick + ceilDiv (g - e) s.chargeRate
  else s.tick

/-- PWR_STATE changes; the store is brought up to date first. -/
def State.enterPwr (s : State) (v : Nat) : State := s.settle.setPwrState v

end Sys2Proof.Machine
end

