-- ==== Sys2Proof/Machine/BusSend.lean ====
section
/-! DEFINITION. Field buses, second part (R360, R366 to R376): what a channel takes and sends, CAN error states, DALI
transactions and supplies, UART and OSDP. -/

namespace Sys2Proof.Machine

set_option cleanup.letToHave false

open Sys2Proof.Config

/-! ### Taking a transmission (R354, R360) -/

/-- The image breaks the limits of its channel kind (R354); an output frame carries its own length. -/
def imageBad (ch : Nat) (img : List Byte) : Bool :=
  let n := imgLen img
  decide (img.length < 16 + n) ||
  (if isCan ch then (if imgWord img 0 / 2 ^ 30 % 2 = 1 then 64 < n else 8 < n)
   else if isDali ch then
     (match imgWord img 0 % 4 with
      | 0 => n ≠ 2
      | 1 => n ≠ 3
      | _ => true)
   else n = 0 || 240 < n)

/-- The oldest message of the lowest transmit queue that holds one. -/
def State.oldestTx (s : State) (ch : Nat) : List Nat → Option (Nat × Message)
  | [] => none
  | k :: t =>
    match s.busQueue ch k with
    | m :: _ => some (k, m)
    | [] => s.oldestTx ch t
abbrev txQueues : List Nat := [0, 1, 2, 3, 4, 5, 6, 7]

/-- Poll entries (Table RSB-2). -/
abbrev State.pollWord (s : State) (ch e k : Nat) : Word := s.ind (busPage ch) (0x050000 + 16 * e + 4 * k)
abbrev State.setPollWord (s : State) (ch e k : Nat) (w : Word) : State := s.setInd (busPage ch) (0x050000 + 16 * e + 4 * k) w
def State.pollEntries (s : State) (ch : Nat) : List Nat := s.listed (busPage ch) 0x050008 16 16 fun w => bit w 31
def State.entryOf (s : State) (ch addr : Nat) : Option Nat := (s.pollEntries ch).find? fun e => fld (s.pollWord ch e 0) 0 7 = addr

/-- A transmission is taken by the order of R360: the reference message or second frame, a built frame, a queued message, on
an OSDP port then a poll. A bad image is discarded and counted, and so is a message that a poisoned word holds (R423). -/
def State.takeOne (s : State) (ch : Nat) : State :=
  let b := s.busCh ch
  if b.flight.isSome then s
  else match b.ref with
  | some r => s.setBus ch { b with flight := some r, ref := none }
  | none =>
  match b.second with
  | some m => s.setBus ch { b with flight := some m, second := none }
  | none =>
  match b.built with
  | (o, img) :: _ =>
    let b := { b with built := Tbl.drop o b.built }
    if imageBad ch img then (s.setBus ch b).busCount ch 8
    else s.setBus ch { b with flight := some (.frame o img) }
  | [] =>
  match s.oldestTx ch txQueues with
  | some (k, m) =>
    let r := s.checkStore (.message ch k)
    let s := ((r.1.heal (.message ch k)).crdMove crQueued crFlight m.credits).setQueue ch k ((s.busQueue ch k).drop 1)
    if r.2 then (s.crdReturn m.ctx crFlight m.credits).busCount ch 7
    else if imageBad ch m.bytes then (s.crdReturn m.ctx crFlight m.credits).busCount ch 8
    else s.setBus ch { s.busCh ch with flight := some (.msg k m false) }
  | none =>
  if isRsb ch && s.busMode ch = 2 then
    let es := s.pollEntries ch
    match (es.find? (b.nextPoll ≤ ·)).orElse (fun _ => es.head?) with
    | some e => s.setBus ch { b with flight := some (.poll e), nextPoll := e + 1 }
    | none => s
  else s

/-- Take until a transmission is in flight or nothing is left. -/
def State.takeNext (s : State) (ch : Nat) : Nat → State
  | 0 => s
  | n + 1 => (s.takeOne ch).takeNext ch n

/-- How much a channel has to offer. -/
def State.offered (s : State) (ch : Nat) : Nat :=
  (txQueues.map fun k => (s.busQueue ch k).length).sum + (s.busCh ch).built.length + 3

/-! ### OSDP exchanges (R375, R376) -/

/-- The address of the transmission in flight. -/
def State.flightAddr (s : State) (ch : Nat) : Option Nat :=
  match (s.busCh ch).flight with
  | some (.poll e) => some (fld (s.pollWord ch e 0) 0 7)
  | some (.msg _ m _) => some (imgWord m.bytes 0 % 128)
  | _ => none

/-- An image of status `st` for a poll entry's queue, with the reply that it carries. -/
def State.pollImage (s : State) (ch e st : Nat) (bytes : List Byte) : State :=
  s.rxTo ch (fld (s.pollWord ch e 2) 8 4) (busImage (fld (s.pollWord ch e 0) 0 7) bytes.length st s.tick bytes)

/-- The sequence number of the next command to an address: 0 begins a session with a device, 1 to 3 follow in turn (OSDP v2.2). -/
def State.osdpSeqOf (s : State) (ch addr : Nat) : Nat := Tbl.get (fun _ => 0) (s.busCh ch).osdpSeq addr
def State.setOsdpSeq (s : State) (ch addr n : Nat) : State :=
  s.setBus ch { s.busCh ch with osdpSeq := Tbl.set (fun _ => 0) (s.busCh ch).osdpSeq addr n }
def State.osdpNext (s : State) (ch addr : Nat) : State := s.setOsdpSeq ch addr (s.osdpSeqOf ch addr % 3 + 1)

/-- The exchange of a port ends: the message's credits return (R357). -/
def State.endExchange (s : State) (ch : Nat) : State :=
  let b := s.busCh ch
  let s := match b.flight.bind Sending.message with
    | some m => s.crdReturn m.ctx crFlight m.credits
    | none => s
  (s.setBus ch { s.busCh ch with flight := none, open_ := false, reply := none, retries := 0, target := none }).crdCheck

/-- A failed establishment of the secure channel (R376). -/
def State.scFail (s : State) (ch e : Nat) : State :=
  let s := (s.busCount ch 9).setPend (busPage ch) 1
  (s.pollImage ch e 3 []).endExchange ch

/-- The exchange in flight starts on the line: towards an entry with SC and no secure channel it begins with an
establishment, which uses the entry's key slot (R376, R472). -/
def State.startExchange (s : State) (ch : Nat) : State :=
  match (s.flightAddr ch).bind (s.entryOf ch) with
  | some e =>
    if bit (s.pollWord ch e 0) 8 && !bit (s.pollWord ch e 3) 1 then
      let k := fld (s.pollWord ch e 1) 0 10
      if s.keyUsable k kuOsdp then
        let s := s.keyUse k
        s.setBus ch { s.busCh ch with target := some e, reply := some 0 }
      else s.scFail ch e
    else s
  | none => s

/-- A DALI channel's or an OSDP port's slot anchor (R371, R375): one transaction starts, or SLOT_BUSY counts. A transaction
that a collision abandoned is in flight already and starts again. -/
def State.slotAnchor (s : State) (ch : Nat) : State :=
  let s := s.setBus ch { s.busCh ch with sched := true }
  let b := s.busCh ch
  if !s.busSends ch then s
  else if b.open_ then s.busCount ch 11
  else
    let s := s.takeNext ch (s.offered ch)
    if (s.busCh ch).flight.isSome then
      let s := s.setBus ch { s.busCh ch with open_ := true }
      if isRsb ch then (s.startExchange ch).crdCheck else s.crdCheck
    else s.crdCheck

/-- TAKE_FOR_TRANSMISSION (R360): a channel that may send takes its next transmission. DALI and OSDP take at their slot
anchors, and a DALI channel its second frame within its transaction. -/
def takeForTransmission (ch : Nat) (s : State) : State :=
  let b := s.busCh ch
  if !s.busSends ch || b.flight.isSome then s
  else if isCan ch || (isRsb ch && s.busMode ch = 1) then (s.takeNext ch (s.offered ch)).crdCheck
  else if isDali ch && b.open_ && b.second.isSome then (s.takeNext ch 1).crdCheck
  else s

def execTakeForTransmission (ch : Nat) (s : State) : Out := event (fun s => takeForTransmission ch s) s

/-! ### The end of a transmission (R357, R360, R369, R371) -/

/-- The message's credits return to AVAIL of its owner. -/
def State.returnMsg (s : State) (m : Message) : State := s.crdReturn m.ctx crFlight m.credits

def transmissionEnd (ch : Nat) (sent : Bool) (s : State) : State :=
  let b := s.busCh ch
  let clear := fun (s : State) => s.setBus ch { s.busCh ch with flight := none }
  match b.flight with
  | none => s
  | some (.ref occ at_ _ _) =>
    if sent then
      let s := (s.setBus ch { b with flight := none, refDone := some s.tick }).busCount ch 11
      (s.setReg (busPage ch) 0x068 (word (s.tick - at_))).setReg (busPage ch) 0x06C (word (occ % 64))
    else (clear s).refMiss ch
  | some (.frame o img) =>
    let s := clear s
    let s := if isDali ch then s.setBus ch { s.busCh ch with open_ := false } else s
    if sent then
      (s.busCount ch 0).setBus ch { (s.busCh ch) with lastSent := Tbl.set (fun _ => []) (s.busCh ch).lastSent o img }
    else s
  | some (.poll _) =>
    if sent then (s.busCount ch 0).setBus ch { b with reply := some 0 } else s.endExchange ch
  | some (.msg k m again) =>
    if !sent then
      let s := ((clear s).returnMsg m).busCount ch 7
      (s.setBus ch { s.busCh ch with open_ := false, reply := none, retries := 0, target := none }).crdCheck
    else if isRsb ch && s.busMode ch = 2 then (s.busCount ch 0).setBus ch { b with reply := some 0 }
    else
      let id := imgWord m.bytes 0
      let s := (clear s).busCount ch 0
      if isDali ch && !again && id / 16 % 2 = 1 then
        s.setBus ch { s.busCh ch with second := some (.msg k m true) }
      else
        let s := s.returnMsg m
        let s :=
          if isDali ch then
            let wait := id / 32 % 2 = 1
            s.setBus ch { s.busCh ch with reply := if wait then some (fld (s.qcfg ch k) 24 4) else none, open_ := wait }
          else s
        s.crdCheck

def execTransmissionEnd (ch : Nat) (sent : Bool) (s : State) : Out := event (fun s => transmissionEnd ch sent s) s

/-! ### CAN (R366, R368) -/

/-- CAN.STAT without its view of RESTRICTED. -/
def State.setCanStat (s : State) (ch st : Nat) (recovering integrating : Bool) : State :=
  s.setReg (busPage ch) 0x054 (word (st + 8 * b2n recovering + 16 * b2n integrating))

/-- CAN_RECOVER (R368): CMD.RECOVER in BUS_OFF; otherwise it is ignored, but applies to a bus-off entry in the same ft. -/
def canCmdEffect (ch : Nat) (w : Word) (s : State) : State × Nat :=
  (if !bit w 0 then s
   else if s.canStat ch = csBusOff then s.setCanStat ch csBusOff true false
   else s.setBus ch { s.busCh ch with recoverAt := some s.tick }, stOk)
def execCanRecover (p : Path) (ch : Nat) (s : State) : Out :=
  access (fun s => s.port p (busPage ch) false (canCmdEffect ch 1)) s

/-- CAN_RECOVERED (R368): the channel is ERROR_ACTIVE with its error counters at 0. -/
def canRecovered (ch : Nat) (s : State) : State :=
  if s.regBit (busPage ch) 0x054 3 then (s.setCanStat ch csActive false false).setReg (busPage ch) 0x058 0 else s
def execCanRecovered (ch : Nat) (s : State) : Out := event (fun s => canRecovered ch s) s

/-- CAN_INTEGRATED (R366). -/
def canIntegrated (ch : Nat) (s : State) : State :=
  if s.regBit (busPage ch) 0x054 4 then s.setCanStat ch csActive false false else s
def execCanIntegrated (ch : Nat) (s : State) : Out := event (fun s => canIntegrated ch s) s

/-- CAN_BUS_ERROR (R368): the error counters after the error; past 255 the channel enters BUS_OFF, from 128 on it is
ERROR_PASSIVE (ISO 11898-1). -/
def canBusError (ch tec rec : Nat) (s : State) : State :=
  if !s.busHears ch then s
  else
    let s := (s.busCount ch 13).setReg (busPage ch) 0x058 (word (tec % 512 + 65536 * (rec % 256)))
    if 255 < tec then
      let s := ((s.setCanStat ch csBusOff (decide ((s.busCh ch).recoverAt = some s.tick)) false).busCount ch 14).event (busPage ch) 0 [tec, rec]
      s.goDown ch
    else if 127 < tec ∨ 127 < rec then
      if s.canStat ch = csActive then (s.setCanStat ch csPassive false false).setPend (busPage ch) 1 else s
    else if s.canStat ch = csPassive then s.setCanStat ch csActive false false
    else s
def execCanBusError (ch tec rec : Nat) (s : State) : Out := event (fun s => canBusError ch tec rec s) s

/-- A write of CTL (R359, R366): a channel that leaves OFF integrates, one that enters it stops; a channel that goes down
discards its messages. -/
def busCtlEffect (ch : Nat) (w : Word) (s : State) : State × Nat :=
  let was := s.busDown ch
  let old := s.busMode ch
  let s := s.setReg (busPage ch) 0x040 w
  let new := s.busMode ch
  let s :=
    if isCan ch then
      if new = 0 then s.setCanStat ch csOff false false
      else if old = 0 then s.setCanStat ch csOff false true
      else s
    else s
  (s.downIf ch was, stOk)

/-! ### DALI (R370 to R372) -/

/-- The bus supply of a DALI channel is on: programmed, not shed, and neither an overvoltage nor its cut-off has switched it
off (R372, R51). -/
def State.daliSupplyOn (s : State) (ch : Nat) : Bool :=
  s.power.powered && s.sys.released && s.regFld (busPage ch) 0x044 0 7 ≠ 0 && !(s.busCh ch).shed && !s.regBit (busPage ch) 0x04C 0 &&
  !s.regBit (busPage ch) 0x048 1

/-- DAL.STAT: supply on, current limit, BUS_FAIL, bus powered, shed, transaction in progress (Table DAL-1). -/
def State.daliStat (s : State) (ch : Nat) : Word :=
  let w := s.reg (busPage ch) 0x048
  let on := s.daliSupplyOn ch
  word (b2n on + 2 * b2n (bit w 1) + 4 * b2n (bit w 2) + 8 * b2n (on && !bit w 2) + 16 * b2n (s.busCh ch).shed +
    32 * b2n (s.busCh ch).open_)

/-- RSB.STAT: transmitting, exchange in progress, line idle (Table RSB-1). -/
def State.rsbStat (s : State) (ch : Nat) : Word :=
  let b := s.busCh ch
  let tx := (b.flight.isSome && b.reply.isNone)
  word (b2n tx + 2 * b2n b.open_ + 16 * b2n (!tx))

/-- CAN.STAT with RESTRICTED in force: by its mode, on a standby, in a module fault (R366, Table SYS-5). -/
def State.canStatWord (s : State) (ch : Nat) : Word :=
  setBit (s.reg (busPage ch) 0x054) 2 (s.busMode ch = 2 || (s.busMode ch = 1 && (s.isStandby || s.faulted)))

/-- DALI_BACKWARD_FRAME (R371): the frame, or its absence, is queued with a status, and the transaction ends. -/
def daliBackwardFrame (ch : Nat) (r : Backward) (s : State) : State :=
  let c := 6 + ch
  match (s.busCh c).reply with
  | none => s
  | some q =>
    let s := s.setBus c { s.busCh c with reply := none, open_ := false }
    let id := 2
    match r with
    | .frame b => (s.busCount c 1).rxTo c q (busImage id 1 0 s.tick [b])
    | .none => (s.busCount c 6).rxTo c q (busImage id 0 1 s.tick [])
    | .corrupt => (s.busCount c 12).rxTo c q (busImage id 0 2 s.tick [])
def execDaliBackwardFrame (ch : Nat) (r : Backward) (s : State) : Out := event (fun s => daliBackwardFrame ch r s) s

/-- A transmission from its first frame on. -/
def Sending.fromStart : Sending → Sending
  | .msg k m _ => .msg k m false
  | x => x

/-- DALI_COLLISION (R370): the transaction is abandoned and retried at the next slot, from its first frame on. -/
def daliCollision (ch : Nat) (s : State) : State :=
  let c := 6 + ch
  if (s.busCh c).open_ && (s.busCh c).flight.isSome then
    ((s.setBus c { s.busCh c with open_ := false, flight := (s.busCh c).flight.map Sending.fromStart }).busCount c 10).setPend
      (busPage c) 3
  else s
def execDaliCollision (ch : Nat) (s : State) : Out := event (fun s => daliCollision ch s) s

/-- BUS_FAIL and BUS_FAIL_CLEAR (R372). -/
def busFail (ch : Nat) (s : State) : State :=
  let c := 6 + ch
  if s.regBit (busPage c) 0x048 2 then s
  else
    let was := s.busDown c
    ((s.setRegBit (busPage c) 0x048 2 true).setPend (busPage c) 1).downIf c was
def execBusFail (ch : Nat) (s : State) : Out := event (fun s => busFail ch s) s
def busFailClear (ch : Nat) (s : State) : State :=
  let c := 6 + ch
  if s.regBit (busPage c) 0x048 2 then (s.setRegBit (busPage c) 0x048 2 false).setPend (busPage c) 1 else s
def execBusFailClear (ch : Nat) (s : State) : Out := event (fun s => busFailClear ch s) s

/-- OVERVOLT (R55, R372): the flag sets, the supply is off and the channel goes down. -/
def overvolt (ch : Nat) (s : State) : State :=
  let c := 6 + ch
  let was := s.busDown c
  ((s.setRegBit (busPage c) 0x04C 0 true).setPend (busPage c) 0).downIf c was
def execOvervolt (ch : Nat) (s : State) : Out := event (fun s => overvolt ch s) s

/-- OVERVOLT_CLEAR (R372): the clear alias ends it, and the supply returns to DAL.PWR. -/
def execOvervoltClear (p : Path) (ch : Nat) (s : State) : Out :=
  access (fun s => s.port p (busPage (6 + ch)) false fun s => (s.setRegBit (busPage (6 + ch)) 0x04C 0 false, stOk)) s

/-- DALI_SUPPLY_CUTOFF (R51): the supply trips and reports current limit; the next write of PWR switches it on again. -/
def daliSupplyCutoff (ch : Nat) (s : State) : State :=
  let c := 6 + ch
  if s.daliSupplyOn c then s.setRegBit (busPage c) 0x048 1 true else s
def execDaliSupplyCutoff (ch : Nat) (s : State) : Out := event (fun s => daliSupplyCutoff ch s) s

/-- A write of DAL.PWR with its settled value (R75). -/
def daliPwrEffect (ch : Nat) (w : Word) (s : State) : State × Nat :=
  let c := 6 + ch
  let mA := s.daliCurrent - s.regFld (busPage c) 0x044 0 7 + fld w 0 7
  if inputLimit s.small < s.budgetWith mA then
    let r := s.busRefuse c stCapacity 7 0x044
    (r.1.setPend pgPWR 5, stCapacity)
  else (((s.settle.setReg (busPage c) 0x044 w).setRegBit (busPage c) 0x048 1 false).setReg pgPWR 0x060 (word (s.budgetWith mA)), stOk)

/-- PWR's row (Table DAL-1). -/
def daliPwrRow : Row := RegMap.rw 0x044 0 0x7F [⟨0, 7, 0, 125⟩]

/-- DALI_SUPPLY_SETTING (R75). -/
def execDaliSupplySetting (p : Path) (ch : Nat) (data : Word) (s : State) : Out :=
  access (fun s => s.port p (pgDAL ch) false fun s =>
    let r := daliPwrEffect ch (settled (pgDAL ch) 0x044 daliPwrRow .plain 0 data) s
    (r.1.noteClamp (pgDAL ch) 0x044 (wasClamped (pgDAL ch) 0x044 daliPwrRow .plain 0 data && decide (r.2 = stOk)), r.2)) s

/-! ### RS-485 (R374, R375) -/

/-- UART_MESSAGE_END (R374). -/
def uartMessageEnd (port : Nat) (bytes : List Byte) (s : State) : State :=
  let c := 10 + port
  if isRsb c && s.busHears c && s.busMode c = 1 then
    if 240 < bytes.length then s.busCount c 2
    else (s.busCount c 1).rxTo c 8 (busImage 0 bytes.length 0 s.tick bytes)
  else s
def execUartMessageEnd (port : Nat) (bytes : List Byte) (s : State) : Out := event (fun s => uartMessageEnd port bytes s) s

/-- OSDP reply codes that the port itself answers to (OSDP v2.2): osdp_ACK, osdp_CCRYPT, osdp_RMAC_I. -/
abbrev osdpAck : Byte := 0x40
abbrev osdpCcrypt : Byte := 0x76
abbrev osdpRmacI : Byte := 0x78

/-- An entry is back online (R375), and its unanswered exchanges are 0. -/
def State.pollOnline (s : State) (ch e : Nat) : State :=
  let w := s.pollWord ch e 3
  let s := s.setPollWord ch e 3 (setFld (setBit w 0 true) 8 8 0)
  if bit w 0 then s else s.setPend (busPage ch) 0

/-- OSDP_REPLY (R375, R376): a valid reply of the addressed device. In an establishment osdp_RMAC_I completes it and the
exchange goes on, osdp_CCRYPT continues it, and any other reply fails it. -/
def osdpReply (port addr : Nat) (bytes : List Byte) (s : State) : State :=
  let c := 10 + port
  let b := s.busCh c
  if !(isRsb c && b.open_ && b.reply.isSome && decide (s.flightAddr c = some addr)) then s
  else
    let s := (s.busCount c 1).osdpNext c addr
    let b := s.busCh c
    let s := match s.entryOf c addr with | some e => s.pollOnline c e | none => s
    let code := (bytes.head?).getD 0
    match b.target with
    | some e =>
      if code = osdpRmacI then
        (s.setPollWord c e 3 (setBit (s.pollWord c e 3) 1 true)).setBus c { b with target := none, reply := none, retries := 0 }
      else if code = osdpCcrypt then s.setBus c { b with retries := 0 }
      else s.scFail c e
    | none =>
      let poll := match b.flight with | some (.poll _) => true | _ => false
      let s :=
        if poll && bytes = [osdpAck] then s.busCount c 5
        else match s.entryOf c addr with
          | some e => s.pollImage c e 0 bytes
          | none => s
      s.endExchange c
def execOsdpReply (port addr : Nat) (bytes : List Byte) (s : State) : Out := event (fun s => osdpReply port addr bytes s) s

/-- OSDP_REPLY_TIMEOUT (R375): resent up to RETRIES times, then the entry goes offline. -/
def osdpReplyTimeout (port : Nat) (s : State) : State :=
  let c := 10 + port
  let b := s.busCh c
  if !(isRsb c && b.open_ && b.reply.isSome) then s
  else
    let s := s.busCount c 6
    if b.retries < s.regFld (busPage c) 0x054 8 4 then
      s.setBus c { b with retries := b.retries + 1, reply := if b.target.isSome then b.reply else none }
    else
      let s := match s.flightAddr c with | some a => s.setOsdpSeq c a 0 | none => s
      let s := match (s.flightAddr c).bind (s.entryOf c) with
        | some e =>
          let w := s.pollWord c e 3
          let n := fld w 8 8
          let s := s.setPollWord c e 3 (setFld (w &&& ~~~ (3 : Word)) 8 8 (min 255 (n + 1)))
          if bit w 0 || n = 0 then (s.pollImage c e 1 []).setPend (busPage c) 0 else s
        | none => s
      s.endExchange c
def execOsdpReplyTimeout (port : Nat) (s : State) : Out := event (fun s => osdpReplyTimeout port s) s

end Sys2Proof.Machine
end

