-- ==== Sys2Proof/Machine/BusCfg.lean ====
section
/-! DEFINITION. Field buses, third part: configuration writes (R356, R358, R361, R363, R367, R379) and the scan instructions
MSG and MSGR (R253 to R255). -/

namespace Sys2Proof.Machine

set_option cleanup.letToHave false

open Sys2Proof.Config

/-! ### Queues, credits, bit timing -/

/-- QCFGk's rows (Table BUS-7). -/
def qcfgRow (ch k : Nat) : Row :=
  let dali := isDali ch && k < 8
  RegMap.rw 0x200 0 (if dali then 0x0FFF81FF else 0xFF81FF) ([⟨16, 8, 1, 255⟩] ++ if dali then [⟨24, 4, 8, 15⟩] else [])

/-- A write of QCFGk with its settled value (R358). -/
def qcfgEffect (ch k : Nat) (w : Word) (s : State) : State × Nat :=
  let old := s.qcfg ch k
  if !(s.busQueue ch k).isEmpty && (fld w 0 9 ≠ fld old 0 9 || (bit old 15 && !bit w 15)) then s.busRefuse ch stInUse 0 k
  else (s.setReg (busPage ch) (0x200 + 4 * k) w, stOk)

/-- QCFG_WRITE (R358). -/
def execQcfgWrite (p : Path) (ch k : Nat) (data : Word) (s : State) : Out :=
  access (fun s => s.port p (busPage ch) false fun s =>
    let pg := busPage ch
    let r := qcfgEffect ch k (settled pg 0x200 (qcfgRow ch k) .plain 0 data) s
    (r.1.noteClamp pg (0x200 + 4 * k) (wasClamped pg 0x200 (qcfgRow ch k) .plain 0 data && decide (r.2 = stOk)), r.2)) s

/-- CRD_HWM and the free-pool alarm follow a change of CRD_FREE (Table BUS-8, Table BUS-6). -/
def State.poolChanged (s : State) (before : Nat) : State :=
  let used := creditTotal s.small - s.crd crFree
  let low := (s.reg pgPool 0x314).toNat
  let s := if s.crd 0x318 < used then s.setReg pgPool 0x318 (word used) else s
  if low ≤ before ∧ s.crd crFree < low then s.setPend pgPool 5 else s

/-- A write of CRD_ALLOC (R356). -/
def crdAllocEffect (c : Nat) (w : Word) (s : State) : State × Nat :=
  let new := fld w 0 13
  let old := s.crdAlloc c
  let free := s.crd crFree
  if s.ctxState c = 0 then s.busRefuse 0 stInvalid 6 c
  else if old ≤ new then
    let d := new - old
    if free < d then s.busRefuse 0 stCapacity 6 c
    else (((s.crdReturn c crFree d).setInd pgPool (0x100000 + 8 * c) (word new)).poolChanged free |>.crdCheck, stOk)
  else
    let d := old - new
    if s.crdAvail c < d then s.busRefuse 0 stInUse 6 c
    else (((s.crdDraw c crFree d).setInd pgPool (0x100000 + 8 * c) (word new)).poolChanged free |>.crdCheck, stOk)

/-- CRD_ALLOC_WRITE (R356). -/
def execCrdAllocWrite (p : Path) (c : Nat) (data : Word) (s : State) : Out :=
  access (fun s => s.port p pgPool false fun s =>
    if c < ctxLimit s.small then crdAllocEffect c (data &&& 0x1FFF) s else (s, stOk)) s

/-- The bit-timing registers (Tables CAN-1 and CAN-2, TDC). -/
def timingOfs (which : Nat) : Nat := if which = 0 then 0x048 else if which = 1 then 0x04C else 0x050

/-- The time quanta of a bit times the prescaler: 80 MHz over the rate (R367). -/
def nbtDiv (w : Word) : Nat := fld w 24 5 * (1 + fld w 0 8 + fld w 8 7)

/-- BRP and DBRP are clamped last (R367). -/
def clampBrp (which nominal : Nat) (w : Word) : Word :=
  if which = 0 then
    let q := 1 + fld w 0 8 + fld w 8 7
    setFld w 24 5 (clampNat (max 1 (ceilDiv 80 q)) (min 31 (640 / q)) (fld w 24 5))
  else if which = 1 then
    let q := 1 + fld w 0 5 + fld w 8 4
    setFld w 24 5 (clampNat (max 1 (ceilDiv 16 q)) (min 31 (nominal / q)) (fld w 24 5))
  else w

/-- A bit-timing write (R367): refused with IN_USE unless MODE is OFF. -/
def bitTimingEffect (ch which : Nat) (al : Alias) (data : Word) (s : State) : State × Nat :=
  let pg := busPage ch
  let o := timingOfs which
  match RegMap.rowOf pg o with
  | none => (s, stOk)
  | some r =>
    if s.busMode ch ≠ 0 then s.busRefuse ch stInUse 7 o
    else
      let old := s.reg pg o
      let a := settled pg o r al old data
      let w := clampBrp which (nbtDiv (s.reg pg 0x048)) a
      ((s.setReg pg o w).noteClamp pg o (wasClamped pg o r al old data || decide (w ≠ a)), stOk)

/-- BIT_TIMING_WRITE (R367). -/
def execBitTimingWrite (p : Path) (ch : Nat) (which : Nat) (data : Word) (s : State) : Out :=
  access (fun s => s.port p (busPage ch) false (bitTimingEffect ch which .plain data)) s

/-! ### Filters, slots, frames -/

/-- Entry-latch spaces of a field-bus page. -/
abbrev spBus (pg kind : Nat) : Nat := 16 + 8 * pg + kind

/-- FLT_ACT's number in its range: a slot of the channel, or a receive queue. -/
def clampAct (ch : Nat) (w : Word) : Word :=
  match fld w 0 2 with
  | 2 => setFld w 8 7 (min (fld w 8 7) (imgSlots ch - 1))
  | 3 => setFld w 8 7 (clampNat 8 15 (fld w 8 7))
  | _ => w

def filterCount (ch : Nat) : Nat := if isCan ch then 256 else 32

/-- A write of FLT_ACT with its settled value (R361, R180). -/
def fltActEffect (p : Path) (ch f : Nat) (w : Word) (s : State) : State × Nat :=
  let pg := busPage ch
  let sp := spBus pg 0
  let a := 16 * f
  let id := s.latchedWord p sp a 0 (s.ind pg a)
  let mask := s.latchedWord p sp a 4 (s.ind pg (a + 4))
  let was := fld (s.ind pg (a + 8)) 0 2 ≠ 0
  let on := fld w 0 2 ≠ 0
  let s := (((s.dropLatch p sp).setInd pg a id).setInd pg (a + 4) mask).setInd pg (a + 8) w
  let s := if !was && on then s.countUp pg 0x070 0x074 1 else if was && !on then s.countDown pg 0x070 1 else s
  (s, stOk)

/-- FLT_ACT_WRITE (R361). -/
def execFltActWrite (p : Path) (ch fl : Nat) (data : Word) (s : State) : Out :=
  access (fun s => s.port p (busPage ch) false fun s =>
    if fl < filterCount ch then
      let raw := entSettle (busPage ch) RegMap.entFilter 8 .plain 0 data
      let w := clampAct ch raw
      let r := fltActEffect p ch fl w s
      (r.1.noteClamp (busPage ch) (16 * fl + 8) (decide (w ≠ raw)), r.2)
    else (s, stOk)) s

/-- A mapping of the direction names slot or frame `n`. -/
def State.mapped (s : State) (ch n : Nat) (out : Bool) : Bool := (s.maps ch out).any fun m => mapSlot (s.mapDef ch m) = n

/-- A write of IMG_CFGs (R363): the class of a slot that an enabled mapping names cannot change. -/
def imgCfgEffect (ch slot : Nat) (w : Word) (s : State) : State × Nat :=
  if fld w 0 3 ≠ fld (s.imgCfg (busPage ch) slot) 0 3 && s.mapped ch slot false then s.busRefuse ch stInUse 2 slot
  else (s.setInd (busPage ch) (0x020000 + 4 * slot) w, stOk)

/-- A write of OF_CFG with its settled value (R363, R180). -/
def ofCfgEffect (p : Path) (ch o : Nat) (w : Word) (s : State) : State × Nat :=
  let pg := busPage ch
  let sp := spBus pg 1
  let a := 0x030000 + 16 * o
  let id := s.latchedWord p sp a 0 (s.ind pg a)
  let fmt := s.latchedWord p sp a 4 (s.ind pg (a + 4))
  let s' := s.dropLatch p sp
  if fld w 0 3 ≠ fld (s.ind pg (a + 8)) 0 3 && s.mapped ch o true then s'.busRefuse ch stInUse 3 o
  else (((s'.setInd pg a id).setInd pg (a + 4) fmt).setInd pg (a + 8) w, stOk)

/-- OF_CFG_WRITE (R363). -/
def execOfCfgWrite (p : Path) (ch o : Nat) (data : Word) (s : State) : Out :=
  access (fun s => s.port p (busPage ch) false fun s =>
    if o < 64 then ofCfgEffect p ch o (entSettle (busPage ch) RegMap.entOut 8 .plain 0 data) s else (s, stOk)) s

/-! ### Mappings (R363) -/

/-- The INVALID conditions of a mapping that stays enabled. -/
def State.mapInvalid (s : State) (ch m pt : Nat) (w : Word) : Bool :=
  let pg := busPage ch
  let out := mapOut w
  let n := mapSlot w
  let enabled :=
    if out then decide (n < 64) && bit (s.ofWord ch n 2) 31 else decide (n < imgSlots ch) && bit (s.imgCfg pg n) 31
  let overlaps := fun k =>
    let v := s.mapDef ch k
    k ≠ m && mapSlot v = n && mapOfs v < mapOfs w + mapWidth w && mapOfs w < mapOfs v + mapWidth v
  s.ptType pt = 0 || !enabled || decide (512 < mapOfs w + mapWidth w) ||
  (mapFmt w = 2 && mapWidth w ≠ 32 && mapWidth w ≠ 64) ||
  (s.ptType pt = tStamp && (decide (mapWidth w < 64) || mapFmt w = 2)) ||
  (out && (s.maps ch true).any overlaps)

/-- A write of MAP_DEF with its settled value (R363). -/
def mapDefEffect (p : Path) (ch m : Nat) (w : Word) (s : State) : State × Nat :=
  let pg := busPage ch
  let sp := spBus pg 2
  let a := 0x040000 + 8 * m
  let old := s.mapDef ch m
  let oldPt := s.mapPt ch m
  let ptw := s.latchedWord p sp a 0 (s.ind pg a)
  let pt := fld ptw 0 13
  let s := s.dropLatch p sp
  let input := fun (v : Word) => bit v 31 && !mapOut v
  let id := 1024 * ch + m
  let cleared := if input old then s.setWriter oldPt wkNone 0 else s
  let t := (cleared.setInd pg a ptw).setInd pg (a + 4) w
  if bit w 31 && s.mapInvalid ch m pt w then s.busRefuse ch stInvalid 4 m
  else if input w && (cleared.ptKind pt ≠ wkNone || s.comingWriter pt) then s.busRefuse ch stWriterConflict 4 m
  else if input w && !t.budgetOk then s.busRefuse ch stBudget 4 m
  else (if input w then t.setWriter pt wkBus id else t, stOk)

/-- MAP_DEF_WRITE (R363). -/
def execMapDefWrite (p : Path) (ch m : Nat) (data : Word) (s : State) : Out :=
  access (fun s => s.port p (busPage ch) false fun s =>
    if m < mapCount ch then
      let pg := busPage ch
      let r := mapDefEffect p ch m (entSettle pg RegMap.entMap 4 .plain 0 data) s
      (r.1.noteClamp pg (0x040004 + 8 * m) (entClamped pg RegMap.entMap 4 .plain 0 data && decide (r.2 = stOk)), r.2)
    else (s, stOk)) s

/-! ### Poll entries (Table RSB-2) -/

/-- An entry write of a poll entry, with the settled words: the key slot belongs to the RXQ owner or to context 0 (Table RSB-2, R471). An applied write restarts the entry. -/
def pollDefApply (p : Path) (ch e : Nat) (w : Word) (s : State) : State × Nat :=
  let pg := busPage ch
  let sp := spBus pg 3
  let a := 0x050000 + 16 * e
  let adr := s.latchedWord p sp a 0 (s.ind pg a)
  let key := s.latchedWord p sp a 4 (s.ind pg (a + 4))
  let s := s.dropLatch p sp
  let owner := fld (s.qcfg ch (fld w 8 4)) 0 9
  let slot := fld key 0 10
  let bad := decide (keyLimit s.small ≤ slot) || (s.keyOwner slot ≠ 0 && s.keyOwner slot ≠ owner)
  if bad then s.busRefuse ch stInvalid 5 e
  else ((((s.setInd pg a adr).setInd pg (a + 4) key).setInd pg (a + 8) w).setInd pg (a + 12) 0, stOk)

/-- A write of POLL_DEF with its settled value; a latched address word is clamped. -/
def pollDefEffect (p : Path) (ch e : Nat) (w : Word) (s : State) : State × Nat :=
  withSettled p (busPage ch) (spBus (busPage ch) 3) (0x050000 + 16 * e) 0 (entSettle (busPage ch) RegMap.entPoll 0 .plain 0)
    (pollDefApply p ch e w) s

/-- POLL_DEF_WRITE (R379). -/
def execPollDefWrite (p : Path) (port e : Nat) (data : Word) (s : State) : Out :=
  access (fun s => s.port p (pgRSB port) false fun s =>
    if e < 16 then
      let pg := pgRSB port
      let r := pollDefEffect p (10 + port) e (entSettle pg RegMap.entPoll 8 .plain 0 data) s
      (r.1.noteClamp pg (0x050008 + 16 * e) (entClamped pg RegMap.entPoll 8 .plain 0 data && decide (r.2 = stOk)), r.2)
    else (s, stOk)) s

/-! ### MSG and MSGR (R253, R254) -/

/-- Results (Table ISA-8). -/
abbrev mrOk : Nat := 0
abbrev mrNoCredit : Nat := 1
abbrev mrQueueFull : Nat := 2
abbrev mrDown : Nat := 3
abbrev mrDenied : Nat := 4
abbrev mrEmpty : Nat := 5
abbrev mrTruncated : Nat := 6

/-- An access to `n` bytes at byte address `a`: every 256-bit word of it is reached (R420, R423), a word of which only a part
is written is read too. -/
def State.reachRange (s : State) (master a n : Nat) (reads : Bool) : Nat → State × Bool
  | 0 => (s, true)
  | k + 1 =>
    let w := (a + n - 1) / 32 - k
    let part := 32 * w < a || a + n < 32 * w + 32
    let r := s.reach32 master (32 * w) (reads || part)
    if r.2 then r.1.reachRange master a n reads k else r
def wordsOf (a n : Nat) : Nat := if n = 0 then 0 else (a + n - 1) / 32 - a / 32 + 1

/-- A queue number names a queue of the right direction that is enabled and owned by the context (R353, R358). -/
def State.granted (s : State) (q c : Nat) (tx : Bool) : Bool :=
  decide (q < 224) && (decide (q % 16 < 8) == tx) && bit (s.qcfg (q / 16) (q % 16)) 15 && fld (s.qcfg (q / 16) (q % 16)) 0 9 = c

/-- The section's base for a buffer of `n` bytes at offset a, or none where it reaches beyond (R253). -/
def State.bufferAt (s : State) (l : Nat) (f : Fields) (n : Nat) : Option Nat :=
  let ln := s.lane l
  let a := (ln.getG f.a).toNat
  match s.section ln.slot (f.x.toNat % 16) with
  | some (base, len) => if a + 32 * ceilDiv n 32 ≤ len then some (base + a) else none
  | none => none

abbrev msgMax (f : Fields) : Nat := f.imm.toNat / 65536 % 512

/-- MSG (R253). -/
def insnMsg (l : Nat) (f : Fields) (s : State) : State :=
  s.insn l fun s =>
    let ln := s.lane l
    let len := min (ln.getG f.b).toNat (msgMax f)
    let q := f.imm.toNat % 65536
    let c := s.laneCtx l
    let n := imageCredits len
    let ch := q / 16
    let k := q % 16
    let done := fun (s : State) (r : Nat) => s.setLane l ((s.lane l).setG f.d (BitVec.ofNat 64 r)).next
    match s.bufferAt l f len with
    | none => s.insnFault l cfArith subBounds
    | some a =>
      if len = 0 then done s mrEmpty
      else if !s.granted q c true then done s mrDenied
      else if s.busDown ch then done s mrDown
      else if fld (s.qcfg ch k) 16 8 < creditsOf (s.busQueue ch k) + n then done s mrQueueFull
      else if s.crdAvail c < n then done s mrNoCredit
      else
        let r := (s.stalled l (wordsOf a len)).reachRange (4 + l) a len true (wordsOf a len)
        if r.2 then
          let s := r.1.crdDraw c crQueued n
          (done (s.setQueue ch k (s.busQueue ch k ++ [⟨c, n, readBytes s.sram a len⟩])) mrOk).crdCheck
        else r.1.insnFault l cfEcc 0

/-- MSGR (R254). The channel counts a truncation; Table BUS-9 names no counter for it, so no register shows the count (log entry 32). -/
def insnMsgr (l : Nat) (f : Fields) (s : State) : State :=
  s.insn l fun s =>
    let q := f.imm.toNat % 65536
    let c := s.laneCtx l
    let ch := q / 16
    let k := q % 16
    let done := fun (s : State) (r : Nat) => s.setLane l ((s.lane l).setG f.d (BitVec.ofNat 64 r)).next
    match s.bufferAt l f (msgMax f) with
    | none => s.insnFault l cfArith subBounds
    | some a =>
      if !s.granted q c false then done s mrDenied
      else match s.busQueue ch k with
        | [] => done s mrEmpty
        | m :: rest =>
          let n := min m.bytes.length (msgMax f)
          let e := s.checkStore (.message ch k)
          let r := (e.1.stalled l (wordsOf a n)).reachRange (4 + l) a n false (wordsOf a n)
          if r.2 && !e.2 then
            let s := (r.1.store a (m.bytes.take n)).crdReturn c crQueued m.credits
            let cut := decide (msgMax f < m.bytes.length)
            let st := if cut then mrTruncated else mrOk
            let s := if cut then s.setBus ch { s.busCh ch with truncated := (s.busCh ch).truncated + 1 } else s
            (done (s.setQueue ch k rest) (st + 65536 * n)).crdCheck
          else r.1.insnFault l cfEcc 0

def execMsg (l : Nat) (f : Fields) (s : State) : Out := access (fun s => insnMsg l f s) s
def execMsgr (l : Nat) (f : Fields) (s : State) : Out := access (fun s => insnMsgr l f s) s

end Sys2Proof.Machine
end

