-- ==== Sys2Proof/Machine/Ridgeline.lean ====
section
/-! DEFINITION. Ridgeline (R90 to R119): the mains tracker, the states of Table PHT-2, announcements, and the occurrences
of anchor generators. Turn boundaries stand in Turn.lean, because other blocks act at them. -/

namespace Sys2Proof.Machine

set_option cleanup.letToHave false

open Sys2Proof.Config

abbrev stSeek : Nat := 0
abbrev stLock : Nat := 1
abbrev stHold : Nat := 2
abbrev stSlew : Nat := 3

/-- PHT.STATE.STATE. -/
abbrev State.phtState (s : State) : Nat := s.regFld pgPHT 0x040 0 2

/-- A stage of the tracker follows a period (R98): LOCK and SLEW. -/
def State.tracking (s : State) : Bool := s.phtState = stLock || s.phtState = stSlew

/-- A period is tracked (R95): in LOCK, SLEW and a HOLD not entered by a reference change. -/
def State.periodTracked (s : State) : Bool :=
  s.tracking || (s.phtState = stHold && s.regFld pgPHT 0x040 2 2 ≠ 3)

/-- QUALIFYING and QUAL_COUNT (Table PHT-6). -/
def State.showQual (s : State) : State :=
  let n := min s.ridge.qual.length 15
  s.setReg pgPHT 0x040 (setFld (setBit (s.reg pgPHT 0x040) 7 (decide (n ≠ 0))) 8 4 n)

/-- The frequency that T_m gives, in mHz (Table PHT-5). -/
def freqMhz (tm : Frac) : Nat := (Frac.round (Frac.divInto (1000 * ftPerS) tm)).toNat

/-- SCN.STAT.FREQ_HIGH: PHT.FREQ exceeds 10 times FMAX (R194). -/
def State.freqHigh (s : State) : Bool := 10 * s.regFld pgSCN 0x048 0 13 < s.regFld pgPHT 0x06C 0 20

/-- After a change, SCN.IRQ_PEND bit 4 sets when FREQ_HIGH has set (R221), a cause of lateness of the cycle in progress. -/
def State.noteFreq (s : State) (was : Bool) : State := if !was && s.freqHigh then (s.setPend pgSCN 4).noteCause 1 else s

/-- PERIOD and FREQ take the values of a mean period (Table PHT-5). -/
def State.setFreq (s : State) (tm : Frac) : State :=
  let was := s.freqHigh
  ((s.setReg pgPHT 0x068 (word (Frac.round (Frac.scale tm 16 1)).toNat)).setReg pgPHT 0x06C (word (freqMhz tm % 2 ^ 20))).noteFreq was

/-- T_m becomes the mean of the given periods (R97, R98): R_m, PERIOD and FREQ follow. -/
def State.setTm (s : State) (ps : List Frac) : State :=
  let ps := ps.take 4
  let tm := Frac.mean ps
  let s := { s with ridge := { s.ridge with periods := ps, tm := tm, rm := (Frac.round (Frac.divInto (2 ^ 64) tm)).toNat } }
  s.setFreq tm

/-- A period corresponds to 45 to 66 Hz (R97, R98). -/
def periodLegal (p : Frac) : Bool :=
  Frac.le (Frac.mk' ftPerS 66) p && Frac.le p (Frac.mk' ftPerS 45)

/-- Every period lies within 2 % of the mean (R97). -/
def allNear (mean : Frac) : List Frac → Bool
  | [] => true
  | p :: t => Frac.le (Frac.scale (Frac.abs (Frac.sub p mean)) 50 1) mean && allNear mean t

/-- The periods between stamps, newest first. -/
def periodsOf : List Nat → List Frac
  | a :: b :: t => Frac.ofNat (a - b) :: periodsOf (b :: t)
  | _ => []

/-- A change of PHT.STATE.STATE (R100, R104): cause, rate from the next ft, counters, stamps, pending bit 0, record. SEEK_LONG stays as
it is, since R103 only sets it; a change that closes no phase error, a miss, a reference change or the first LOCK, records e as 0 (log
entry 58). -/
def State.phtChange (s : State) (new cause : Nat) (e : Int) (rate : Nat) : State :=
  let old := s.phtState
  let before := s.rate
  let w := s.reg pgPHT 0x040
  let w := setFld (setFld w 0 2 new) 2 2 cause
  let w := if new = stLock then setBit w 5 false else w
  let s := (s.setReg pgPHT 0x040 w).setReg64 pgPHT 0x060 rate
  let s := s.setReg64 pgPHT 0x0C0 s.tick
  let s :=
    if old = stHold then s.setReg pgPHT 0x09C (word (min ((s.tick - s.ridge.holdAt) / ftPerMs) 0xFFFFFFFF)) else s
  let s := if new = stHold then
      ({ s with ridge := { s.ridge with holdAt := s.tick, qual := [] } }).bump pgPHT 0x0AC
    else s
  let s := if new = stSlew then s.bump pgPHT 0x0B0 else s
  s.showQual.event pgPHT 0 [old, new, cause, wrapInt 64 e, before, rate]

/-- The rate in LOCK: R_m + e / (TC × T_m), in 2^-32 units to nearest (Table PHT-2, R90; log entry 9). -/
def State.lockRate (s : State) (e : Int) : Nat :=
  (Frac.round (Frac.add (Frac.divInto (2 ^ 64) s.ridge.tm)
    (Frac.scale (Frac.divInto (e * 2 ^ 32) s.ridge.tm) 1 (s.sampledFld pgPHT 0x07C 8 6)))).toNat

/-- The rate in SLEW: R_m + e / T_m held within R_m / (1 + m) and R_m / (1 − m), m = 0.5 % or SLEW_MAX (R101). -/
def State.slewRate (s : State) (e : Int) : Nat :=
  let m := min 50 (s.sampledFld pgPHT 0x07C 20 8)
  let rm := Frac.divInto (2 ^ 64) s.ridge.tm
  let raw := Frac.add rm (Frac.divInto (e * 2 ^ 32) s.ridge.tm)
  let lo := Frac.scale rm 10000 (10000 + m)
  let hi := Frac.scale rm 10000 (10000 - m)
  (Frac.round (if Frac.lt raw lo then lo else if Frac.lt hi raw then hi else raw)).toNat

/-- e of a crossing (R96): PHASE_OFFSET less the angle at its stamp, as a signed 32-bit value. The angle at the stamp is
the one that the rate of the evaluation ft gives `back` ft earlier. -/
def State.phaseErr (s : State) (back : Nat) : Int :=
  let then_ := (s.ridge.acc + 2 ^ 96 - back * s.rate % 2 ^ 96) % 2 ^ 96 / turn
  sext 32 ((s.sampled pgPHT 0x074).toNat + turn - then_ % turn)

/-- Bookkeeping of an accepted crossing: the stamp, XING_CNT, no misses in a row, the next prediction (R98, R99). -/
def State.xingAccepted (s : State) (stamp : Nat) (e : Int) : State :=
  let s := { s with ridge := { s.ridge with lastValid := some stamp, misses := 0,
                                            pred := Frac.add (Frac.ofNat stamp) s.ridge.tm } }
  ((s.bump pgPHT 0x0A0).setReg64 pgPHT 0x094 stamp).setReg pgPHT 0x070 (word (wrapInt 32 e))

/-- LOCK_TH and SLEW_TH (R100). The tracker takes its registers as they stood at the start of the ft (R129). -/
def State.lockTh (s : State) : Nat := 2 ^ s.sampledFld pgPHT 0x080 0 5
def State.slewTh (s : State) : Nat := 2 ^ s.sampledFld pgPHT 0x080 8 5

/-- The first LOCK (Table PHT-2, R93): the angle starts at PHASE_OFFSET + 64 × R_m, and occurrences are counted from it. No angle stood at
the stamp, so PHASE_ERR becomes 0 (log entry 58). -/
def State.firstLock (s : State) (stamp : Nat) : State :=
  let s := s.xingAccepted stamp 0
  let acc := ((s.sampled pgPHT 0x074).toNat * turn + 64 * s.ridge.rm) % 2 ^ 64
  let s := { s with ridge := { s.ridge with acc := acc, locked := true, from_ := acc / turn, reached := [] } }
  let s := { s with ridge := { s.ridge with lockAt := s.tick, halfAt := none } }
  let s := (s.setReg pgPHT 0x050 0).setReg pgPHT 0x054 0
  (s.setRegBit pgPHT 0x040 4 false).phtChange stLock 0 0 s.ridge.rm

/-- A gap of more than 25 ms restarts the count from the last crossing (R97). -/
def State.gapRestart (s : State) : State :=
  match s.ridge.qual with
  | a :: _ :: _ => if a + 25 * ftPerMs < s.tick then ({ s with ridge := { s.ridge with qual := [a] } }).showQual else s
  | _ => s

/-- The periods of a qualification so far: each within 2 % of their mean, and the mean of 45 to 66 Hz (R97). -/
def periodsFit (ps : List Frac) : Bool := ps.isEmpty || (periodLegal (Frac.mean ps) && allNear (Frac.mean ps) ps)

/-- A valid crossing in SEEK or HOLD counts towards a qualification (R97, R102). The conditions hold of the periods counted so far, so one
that fails restarts the count when it occurs; after the qualification the newest four of its periods stand as the last accepted ones of
R98 (log entry 58). -/
def State.qualify (s : State) (stamp : Nat) : State :=
  let q := s.ridge.qual
  let q := match q with
    | [] => [stamp]
    | a :: _ => if 25 * ftPerMs < stamp - a then [stamp] else stamp :: q
  let n := s.sampledFld pgPHT 0x07C 0 4
  let s := { s with ridge := { s.ridge with lastValid := some stamp } }
  let ps := periodsOf (q.take n)
  if !periodsFit ps then ({ s with ridge := { s.ridge with qual := [stamp] } }).showQual
  else if q.length < n then ({ s with ridge := { s.ridge with qual := q } }).showQual
  else
      let mean := Frac.mean ps
      let back := s.tick - stamp
      let s := ({ s with ridge := { s.ridge with qual := [], tm := mean } })
      let s := { s with ridge := { s.ridge with periods := ps.take 4, rm := (Frac.round (Frac.divInto (2 ^ 64) mean)).toNat } }
      let s := s.setFreq mean
      if s.ridge.locked then
        let e := s.phaseErr back
        let s := s.xingAccepted stamp e
        if e.natAbs ≤ s.lockTh then s.phtChange stLock 0 e s.ridge.rm
        else s.phtChange stSlew 0 e (s.slewRate e)
      else s.firstLock stamp

/-- A rejected crossing (R98). -/
def State.xingReject (s : State) : State := (s.bump pgPHT 0x0A8).setPend pgPHT 6

/-- The half-width of the prediction window (R98). -/
def State.window (s : State) : Frac := Frac.scale s.ridge.tm (s.sampledFld pgPHT 0x07C 16 4) 64

/-- A valid crossing in LOCK or SLEW (R98, Table PHT-2). -/
def State.track (s : State) (stamp : Nat) : State :=
  let t := Frac.ofNat stamp
  let per := Frac.sub t (Frac.sub s.ridge.pred s.ridge.tm)
  if Frac.le (Frac.abs (Frac.sub t s.ridge.pred)) s.window && periodLegal per then
    let e := s.phaseErr (s.tick - stamp)
    let s := (s.setTm (per :: s.ridge.periods)).xingAccepted stamp e
    if s.phtState = stLock then
      if e.natAbs ≤ s.slewTh then s.setReg64 pgPHT 0x060 (s.lockRate e)
      else s.phtChange stSlew 1 e (s.slewRate e)
    else if e.natAbs ≤ s.lockTh then s.phtChange stLock 1 e s.ridge.rm
    else s.setReg64 pgPHT 0x060 (s.slewRate e)
  else s.xingReject

/-- The stamp of a passage (R95): from a sample below −HYST on, the last one at or below 0 V and the next, which lies above it, straddle the
0 V instant, and a sample above +HYST completes the passage. The stamp is the tick of the instant on the line between the two. `i` counts
samples, `low` holds the last one at or below 0 V since the passage began, and `above` the one that followed it. -/
def passageFrom (hyst : Int) (first : Nat) : List Int → Nat → Option (Nat × Int) → Int → Option Nat
  | [], _, _, _ => none
  | v :: t, i, low, above =>
    if v < -hyst then passageFrom hyst first t (i + 1) (some (i, v)) 0
    else match low with
      | none => passageFrom hyst first t (i + 1) none 0
      | some (j, u) =>
        if v ≤ 0 then passageFrom hyst first t (i + 1) (some (i, v)) 0
        else
          let above := if above = 0 then v else above
          if hyst < v then some (first + 16 * j + ((16 * (-u)) / (above - u)).toNat)
          else passageFrom hyst first t (i + 1) low above
def passageStamp (hyst : Nat) (p : Passage) : Option Nat := passageFrom (1000 * hyst) p.first p.mV 0 none 0

/-- The reference phase that REF_SEL selects (Table PHT-7). -/
def State.refPhase (s : State) (l1 l2 l3 : Passage) : Passage :=
  match s.regFld pgPHT 0x078 0 2 with | 0 => l1 | 1 => l2 | _ => l3

/-- The stamp of a crossing, where it is valid (R95): the reference passes the hysteresis, the preceding negative half-cycle reached
MIN_PEAK, and no valid crossing was accepted in the preceding quarter period. Its evaluation has not passed. -/
def State.crossing (s : State) (p : Passage) : Option Nat :=
  match passageStamp (s.sampledFld pgPHT 0x084 8 8) p with
  | none => none
  | some stamp =>
    let apart := match s.ridge.lastValid with
      | none => true
      | some v =>
        let quarter := if s.periodTracked then Frac.scale s.ridge.tm 1 4 else Frac.ofNat 1500000
        v < stamp && Frac.le quarter (Frac.ofNat (stamp - v))
    if s.sampledFld pgPHT 0x084 0 8 ≤ p.negPeak && apart && decide (s.tick ≤ stamp + 64) then some stamp else none

/-- ZERO_CROSSING_EVALUATION (R96): 64 ft after the stamp. A crossing that is not valid does nothing, and one that a commit of a new REF_SEL
meets before or in its evaluation ft is discarded (R105, R112). The voltage between N and PE moves nothing (R95). -/
def zeroCrossing (l1 l2 l3 : Passage) (s : State) : State :=
  match s.crossing (s.refPhase l1 l2 l3) with
  | none => s
  | some stamp =>
    if s.ridge.refAt.any (stamp ≤ ·) then s
    else
      let s := s.until (stamp + 64)
      if s.tracking then s.track stamp else s.qualify stamp

def execZeroCrossingEvaluation (l1 l2 l3 _n : Passage) (s : State) : Out := event (fun s => zeroCrossing l1 l2 l3 s) s

/-- CROSSING_MISS (R99): 64 ft after the window closes; the MISS_MAX-th in a row enters HOLD at R_m. It comes behind the crossings of its ft
(R105), so the clock then stands at the next. -/
def crossingMiss (s : State) : State :=
  if s.tracking then
    let s := s.until ((Frac.floor (Frac.add s.ridge.pred s.window)).toNat + 64)
    let s := (s.bump pgPHT 0x0A4).setPend pgPHT 5
    let s := { s with ridge := { s.ridge with pred := Frac.add s.ridge.pred s.ridge.tm, misses := s.ridge.misses + 1 } }
    (if s.sampledFld pgPHT 0x07C 4 4 ≤ s.ridge.misses then s.phtChange stHold 2 0 s.ridge.rm else s).elapse 1
  else s

def execCrossingMiss (s : State) : Out := event (fun s => crossingMiss s) s

/-- HOLD_LONG (R102). -/
def holdLong (s : State) : State :=
  if s.phtState = stHold && !s.regBit pgPHT 0x040 5 then
    ((s.until (s.ridge.holdAt + s.regFld pgPHT 0x080 16 8 * ftPerS)).setRegBit pgPHT 0x040 5 true).setPend pgPHT 7
  else s

def execHoldLong (s : State) : Out := event (fun s => holdLong s) s

/-- SEEK_LONG (R103): SEEK is entered at power-on alone, at tick 0. -/
def seekLong (s : State) : State :=
  if s.phtState = stSeek && !s.regBit pgPHT 0x040 6 then
    ((s.until (2 * ftPerS)).setRegBit pgPHT 0x040 6 true).setPend pgPHT 8
  else s

def execSeekLong (s : State) : Out := event (fun s => seekLong s) s

/-- The write of PHT.ANN_CYCLE (R114): accepted in LOCK with the angle in 0x2000_0000 to 0xDFFF_FFFF; on a standby in SYNC
or LAG it is rejected with cause 2 (R508). Cause 1 is the angle, 2 the state (Table PHT-5); where both fail the state is recorded, and an
accepted announcement leaves the last rejection as it is (log entry 58). -/
def annCycleEffect (data : Word) (s : State) : State × Nat :=
  let pairState := s.regFld pgPAR 0x044 2 4
  let standby := s.regFld pgPAR 0x044 0 2 = 2 && (pairState = 4 || pairState = 5)
  let cause :=
    if s.phtState ≠ stLock || standby then 2
    else if s.angle < 0x20000000 || 0xE0000000 ≤ s.angle then 1 else 0
  if cause = 0 then
    let n := (s.regFld pgPHT 0x088 0 16 * turn + data.toNat + 1) % 2 ^ 48
    let s := { s with ridge := { s.ridge with ann := some n } }
    (s.setReg pgPHT 0x090 (setBit (setBit (s.reg pgPHT 0x090) 0 true) 3 false), stOk)
  else
    let s := s.setReg pgPHT 0x090 (setBit (setFld (s.reg pgPHT 0x090) 1 2 cause) 3 true)
    ((s.bump pgPHT 0x0B8).setPend pgPHT 4, stOk)

/-- ANN_CYCLE_WRITE (R114). -/
def execAnnCycleWrite (p : Path) (data : Word) (s : State) : Out :=
  access (fun s => s.port p pgPHT false (annCycleEffect data)) s

/-- A commit of PHASE_OFFSET and REF_CTL (R110 to R112): a new REF_SEL enters HOLD from LOCK and SLEW with cause reference
change, and restarts qualification everywhere. Table PHT-2 has no row for one in HOLD: the module stays in HOLD, with the cause in
PHT.STATE and neither record, pending bit nor HOLD_CNT (log entry 58). -/
def State.phtCommit (s : State) (oldRef newRef : Nat) : State :=
  if oldRef = newRef then s
  else
    let s := { s with ridge := { s.ridge with qual := [], lastValid := none, misses := 0, refAt := some s.tick } }
    if s.tracking then s.phtChange stHold 3 0 s.ridge.rm
    else if s.phtState = stHold then s.showQual.setRegFld pgPHT 0x040 2 2 3
    else s.showQual

/-! ### Anchor occurrences (R106) -/

/-- Anchor generators by number: loop groups 0 to 15, then meter samples, half-cycles, half-turns, scan classes, class
references, DALI and OSDP slots, turn boundaries. -/
abbrev genGroup (g : Nat) : Nat := g
abbrev genSample : Nat := 16
abbrev genHalf : Nat := 17
abbrev genTurnHalf : Nat := 18
abbrev genTurn : Nat := 19
abbrev genClass (c : Nat) : Nat := 20 + c
abbrev genRef (c : Nat) : Nat := 30 + c
abbrev genDali (ch : Nat) : Nat := 40 + ch
abbrev genOsdp (p : Nat) : Nat := 50 + p

/-- PAR.ORIGIN applies to generators whose period does not divide one turn, on a module with PAR.CTL.EN (R509). -/
def State.originFor (s : State) (period : Nat) : Nat :=
  if turn % period ≠ 0 && s.regBit pgPAR 0x040 0 then s.reg64 pgPAR 0x074 else 0

/-- The value from which a generator counts, and its next occurrence with anchor angle `a` and period `l`: the first value of a + k · l
above it (R106). -/
def State.reachedOf (s : State) (id : Nat) : Nat := Tbl.get (fun _ => s.ridge.from_) s.ridge.reached id
def State.nextOcc (s : State) (id a l : Nat) : Nat :=
  let b := s.reachedOf id + 1
  let o := s.originFor l
  b + (a % l + l - (b + o) % l) % l

/-- The generator counts from the present angle: it has been enabled or moved in this ft (R106). -/
def State.genFrom (s : State) (id : Nat) : State :=
  { s with ridge := { s.ridge with reached := Tbl.put id s.theta (Tbl.drop id s.ridge.reached) } }

/-- The occurrence is reached: the clock stands at its ft, and the generator counts from its value. -/
def State.reach (s : State) (id a l : Nat) : State :=
  let v := s.nextOcc id a l
  let s := s.untilTheta v
  { s with ridge := { s.ridge with reached := Tbl.put id v (Tbl.drop id s.ridge.reached) } }

/-- A generator's occurrence of a commit ft still has to come under the old configuration (R192, R284). -/
def State.owes (s : State) (id : Nat) : Bool := Tbl.get (fun _ => false) s.ridge.owed id
def State.setOwes (s : State) (id : Nat) (b : Bool) : State :=
  { s with ridge := { s.ridge with owed := Tbl.set (fun _ => false) s.ridge.owed id b } }

/-- A generator's occurrence falls in the present ft and has yet to come. -/
def State.genDue (s : State) (id a l : Nat) : Bool := s.ridge.locked && decide (s.nextOcc id a l ≤ s.theta)

/-- A generator's occurrence comes: the one owed from a commit ft, or its next. -/
def State.occur (s : State) (id a l : Nat) : State := if s.owes id then s.setOwes id false else s.reach id a l

end Sys2Proof.Machine
end

