-- ==== Sys2Proof/Machine/Scan.lean ====
section
/-! DEFINITION. The base cycle (R189 to R211, R533, R543): base anchors, overruns and skipped occurrences, the phases of
Table SCN-2 and of a switch cycle, the dispatch of programs and event tasks, event bindings, and lane halts. -/

namespace Sys2Proof.Machine

set_option cleanup.letToHave false

open Sys2Proof.Config

/-! ### Due sets -/

abbrev State.clsLen (s : State) (c : Nat) : Nat := s.clsPeriod c * halfCycle
def State.clsNext (s : State) (c : Nat) : Nat := s.nextOcc (genClass c) (s.clsAnchor c) (s.clsLen c)

/-- The enabled classes that have an occurrence at the next base anchor of base class `b` (R193). -/
def State.dueSet (s : State) (b : Nat) : List Nat :=
  let v := s.clsNext b
  s.enabledClasses.filter fun c => s.clsNext c = v

/-- The occurrences of the due classes are reached. -/
def State.reachAll (s : State) (v : Nat) : List Nat → State
  | [] => s
  | c :: t =>
    ({ s with ridge := { s.ridge with reached := Tbl.put (genClass c) v (Tbl.drop (genClass c) s.ridge.reached) } }).reachAll v t

/-- A set of classes as a mask. -/
def maskOf (cs : List Nat) : Nat := ((List.range 8).map fun c => if cs.contains c then 2 ^ c else 0).sum
/-- A class is in a mask. -/
def inMask (m c : Nat) : Bool := m / 2 ^ c % 2 = 1
def listOf (m : Nat) : List Nat := (List.range 8).filter (inMask m)

/-! ### Overruns and skips (R202, R203) -/

/-- A skipped occurrence of class c: counted, its pending skip used. -/
def State.skipClass (s : State) (c : Nat) : State :=
  let s := (s.bump pgSCN (0x140 + 4 * c)).setPend pgSCN 1
  { s with scan := { s.scan with skip := s.scan.skip.filter (· ≠ c) } }
def State.skipClasses (s : State) : List Nat → State
  | [] => s
  | c :: t => (s.skipClass c).skipClasses t

/-- One counter of each listed class rises. -/
def State.bumpClasses (s : State) (base : Nat) : List Nat → State
  | [] => s
  | c :: t => (s.bump pgSCN (base + 4 * c)).bumpClasses base t

/-- The next base anchor: the value of PHT.THETA at which it comes and its due set, where no due set is owed from a commit ft. -/
def State.nextBase (s : State) : Option (Option Nat × List Nat) :=
  if !s.scan.owed.isEmpty then some (none, s.scan.owed)
  else if !s.ridge.locked then none
  else match s.baseClass with
    | some b => some (some (s.clsNext b), s.dueSet b)
    | none => none

/-- The base anchor comes. -/
def State.reachBase (s : State) (v : Option Nat) (due : List Nat) : State :=
  match v with
  | some v => (s.untilTheta v).reachAll v due
  | none => { s with scan := { s.scan with owed := [] } }

/-- Some lane stands at HALT (R225). -/
def State.anyHalt (s : State) : Bool := (List.range (laneLimit s.small)).any fun l => s.regBit (pgSCL l) 0x044 0

/-- The first detected cause of an overrun (Table SCN-6): the cause noted in the cycle, 7 without one. -/
def State.ovrCause (s : State) : Nat :=
  if s.scan.cause ≠ 0 then s.scan.cause else 7

/-- A cause of lateness that stands when a cycle starts, in the order of Table SCN-6 (DEDUCED, log entry 55). -/
def State.causeNow (s : State) : Nat := if s.freqHigh then 1 else if s.anyHalt then 2 else if s.scan.prio then 3 else 0

/-- A late cycle's first base anchor (R202). -/
def State.overrun (s : State) (y : Cycle) : State :=
  let cause := s.ovrCause
  let s := s.bumpClasses 0x120 (listOf y.due)
  let s := (s.setReg pgSCN 0x0C0 (word (y.due + 256 * cause))).setReg pgSCN 0x0C4 (s.sampled pgPHT 0x050)
  let s := s.event pgSCN 0 [y.due, cause]
  { s with scan := { s.scan with cycle := some { y with late := true },
                                 skip := s.scan.skip ++ (listOf y.due).filter (fun c => !s.scan.skip.contains c) } }

/-- The cycle watchdog at a base anchor that a cycle meets (R543). -/
def State.cycleWatch (s : State) (y : Cycle) : State :=
  if s.anyHalt then { s with scan := { s.scan with cycle := some { y with halt := true } } }
  else if y.halt then { s with scan := { s.scan with cycle := some { y with halt := false, met := 0 } } }
  else if s.regFld pgSYS 0x068 0 8 ≤ y.met + 1 then (s.bump pgSYS 0x110).moduleFault mfCycle
  else { s with scan := { s.scan with cycle := some { y with met := y.met + 1 } } }

/-- A base anchor with a cycle in progress. -/
def State.lateAnchor (s : State) (y : Cycle) (due : List Nat) : State :=
  let s := if y.late then s else s.overrun y
  let s := if s.canCycle then s.skipClasses due else s
  match s.scan.cycle with
  | some y => s.cycleWatch y
  | none => s

/-! ### The capture ft -/

/-- The first base cycle after a start (R533, R534, R536, R546): the role is taken, the save record is consumed, START_MS holds. -/
def State.firstCycle (s : State) : State :=
  let s := if s.role = roleNone then s.setRole rolePrimary else s
  let s := (s.setSysState ssRun).setPend pgSYS 0
  let s := if s.sys.cold then s.setPend pgSYS 1 else s
  let s := s.setReg pgSYS 0x06C (word ((s.tick - s.sys.resetAt) / ftPerMs))
  let s := s.setRegBit pgSYS 0x040 9 false
  { s with sys := { s.sys with firstDone := true, save := s.sys.save.map fun r => { r with consumed := true } } }

/-- At its first cycle after a restart or takeover a slot's running timers count on from their elapsed times (R249). -/
def Timer.rebase (at_ : Nat) (t : Timer) : Timer :=
  if t.run then { t with start := (at_ % 2 ^ 64 + 2 ^ 64 - t.start % 2 ^ 64) % 2 ^ 64 } else t
def Slot.rebaseTimers (x : Slot) (at_ : Nat) : Slot :=
  if x.rebase then { x with timers := Tbl.mapVals (fun _ => {}) (Timer.rebase at_) x.timers, rebase := false } else x

/-- Slots of due classes: accepted loads start (R271), restarts take effect (R280), and the fault mark of the last cycle
is cleared. -/
def State.beginSlot (s : State) (due : List Nat) (n : Nat) : State :=
  let x := (s.slot n).rebaseTimers s.scan.capture
  match x.prog with
  | none => s
  | some g =>
    if !due.contains g.cls then s
    else if x.loading then (if s.loadDone n then s.startLoad n else s)
    else if s.sooner x.restarting then s.setSlot n { x with state := 1, faults := 0, faulted := false, restarting := none }
    else s.setSlot n { x with faulted := false }
def State.beginSlots (s : State) (due : List Nat) : List Nat → State
  | [] => s
  | n :: t => (s.beginSlot due n).beginSlots due t

/-- What a tunnel latch holds for the INPUT phase that starts now (R155): a write of this ft belongs to the next one. -/
def State.tunHeld (s : State) (p : Nat) : Option Dword :=
  match Tbl.get (fun _ => none) s.points.tunWas p with
  | some (t, old) => if t = s.tick then old else some (Tbl.get (fun _ => 0) s.points.tun p)
  | none => some (Tbl.get (fun _ => 0) s.points.tun p)

/-- The tunnel latches that transfer (R155): those of due classes in which a write has arrived before this ft, with what they hold. -/
def State.tunDue (s : State) (due : List Nat) : List (Nat × Dword) :=
  s.points.tunNew.filterMap fun e =>
    let w := s.ptWord e.1 0x1C
    if e.2 ∧ bit w 31 ∧ due.contains (fld w 0 3) then (s.tunHeld e.1).map fun v => (e.1, v) else none

/-- The latch of `p` was written in the present ft. -/
def State.tunFresh (s : State) (p : Nat) : Bool :=
  match Tbl.get (fun _ => none) s.points.tunWas p with
  | some (t, _) => decide (t = s.tick)
  | none => false

/-- The work of a lane in a cycle (step 4 of Table SCN-2, R208, R210): class by class, event tasks by ascending slot, then
cyclic programs by ascending slot; only ACTIVE slots of ACTIVE contexts. -/
def State.classWork (s : State) (l c : Nat) : List Work :=
  let mine := s.slots.filter fun e =>
    e.2.state = 1 && (match e.2.prog with
      | some g => g.lane = l && g.cls = c && s.past.ctxState g.ctx = 1
      | none => false)
  let isEvent := fun (x : Slot) => match x.prog with | some g => g.event | none => false
  ((mine.filter fun e => isEvent e.2).flatMap fun e =>
    ((List.range 64).filter fun b =>
      s.regBit pgSCN (0x400 + 4 * b) 31 && s.regFld pgSCN (0x400 + 4 * b) 0 10 = e.1).map fun b => ⟨e.1, some b⟩) ++
  (mine.filter fun e => !isEvent e.2).map fun e => ⟨e.1, none⟩

def State.giveWork (s : State) (due : List Nat) : List Nat → State
  | [] => s
  | l :: t =>
    (s.setLane l { s.lane l with work := due.flatMap (s.classWork l), held := [], ended := [], runs := 0, running := false,
                                 evb := none }).giveWork due t

/-- Step 1 of Table SCN-2: a cycle of the due set starts at its base anchor. -/
def State.startCycle (s : State) (due : List Nat) : State :=
  let s := if s.sys.firstDone then s else s.firstCycle
  let s := { s with scan := { s.scan with capture := s.tick, stamp := s.stampThen, cause := s.causeNow } }
  let s := s.beginSlots due (s.slots.map (·.1))
  let s := (s.bumpClasses 0x100 due).bump pgSCN 0x168
  let isDue := fun c => due.contains c
  let s := s.freezeBuses isDue (List.range 10)
  let tuns := s.tunDue due
  let staged := s.busStaged isDue ++ (s.diSamples isDue).map (fun x => (x.1, x.2, wkDi)) ++
    tuns.map fun e => (e.1, e.2, wkTunnel)
  let s := { s with points := { s.points with
    tunNew := Tbl.clear (fun p => (tuns.map fun (e : Nat × Dword) => e.1).contains p && !s.tunFresh p) s.points.tunNew } }
  let y : Cycle :=
    { at_ := s.tick, due := maskOf due, stamp := s.stampThen, tIn := s.tIn due, tOut := s.tOut due, staged := staged,
      cycleNo := s.sampled pgPHT 0x050, halt := s.anyHalt }
  ({ s with scan := { s.scan with cycle := some y } }).giveWork due (List.range (laneLimit s.small))

/-! ### INPUT commit and dispatch -/

/-- Every staged value becomes its point's value (R197, R170). -/
def State.applyStaged (s : State) : List (Nat × Dword × Nat) → State
  | [] => s
  | (p, v, _) :: t => (s.ptApply p v).applyStaged t

/-- INPUT_COMMIT (steps 3 and 4 of Table SCN-2): each lane comes to its first due work. -/
def inputCommit (s : State) : State :=
  match s.scan.cycle with
  | some y =>
    if y.phase = 1 then
      let s := (s.until (y.at_ + y.tIn)).applyStaged y.staged
      ({ s with scan := { s.scan with cycle := some { y with phase := 2, staged := [] } } }).checkWorks (List.range (laneLimit s.small))
    else s
  | none => s

def execInputCommit (s : State) : Out := event (fun s => inputCommit s) s

/-- A run starts with its registers at 0 (R231). -/
def Lane.begin (l : Lane) (w : Work) (rest : List Work) (runs : Nat) : Lane :=
  { l with g := [], running := true, slot := w.slot, evb := w.evb, runs := runs, pc := 0, frames := [], loops := [], work := rest,
           runNo := l.runNo + 1 }

/-- The cycle executes, and lane `l` exists and is idle. HALT stops a lane between instructions only (R225, DEDUCED, log
entry 14): a dispatch goes on. -/
def State.laneIdle (s : State) (l : Nat) : Option Cycle :=
  match s.scan.cycle with
  | some y => if y.phase = 2 && decide (l < laneLimit s.small) && !(s.lane l).running then some y else none
  | none => none

/-- PROGRAM_DISPATCH (R197, R210): two ft of dispatch, and the next cyclic program of the lane starts. -/
def programDispatch (l : Nat) (s : State) : State :=
  match s.laneIdle l, s.dueWork l with
  | some y, w :: rest =>
    if w.evb.isNone then
      let s := s.until (s.laneFrom l y + 3)
      s.setLane l ((s.lane l).begin w rest 0)
    else s
  | _, _ => s

def execProgramDispatch (l : Nat) (s : State) : Out := event (fun s => programDispatch l s) s

/-- EVENT_TASK_DISPATCH (R210): the lane takes the pending source in the second of two ft of dispatch and runs the task. -/
def eventTaskDispatch (l : Nat) (s : State) : State :=
  match s.laneIdle l, s.dueWork l with
  | some y, w :: rest =>
    match w.evb with
    | some e =>
      let runs := (s.lane l).runs
      let s := ((s.until (s.laneFrom l y + 2)).srcTake (s.evbSource e)).noteTake none (s.evbSource e)
      let s := (s.until (s.laneFrom l y + 3)).bump (pgSCL l) 0x110
      s.setLane l ((s.lane l).begin w rest (runs + 1))
    | none => s
  | _, _ => s

def execEventTaskDispatch (l : Nat) (s : State) : Out := event (fun s => eventTaskDispatch l s) s

/-! ### OUTPUT -/

/-- The held stores of the completed programs of a lane become point values (R198, R170). -/
def State.commitHeld (s : State) : List Held → State
  | [] => s
  | h :: t =>
    let s := if s.ptForced h.pt then s.addKey (ikey pgPTM (ctxAddr (s.slotCtx h.slot) + 0xC)) 1 else s
    (s.ptApply h.pt h.value).commitHeld t

/-- Retained working copies of completed programs become committed copies; a completed cycle with no fault resets the count
of faulted cycles (R207). -/
def State.commitSlots (s : State) : List Nat → State
  | [] => s
  | n :: t =>
    let s := s.commitCopies n
    let x := s.slot n
    (if x.faulted then s else s.setSlot n { x with faults := 0 }).commitSlots t

def State.commitLanes (s : State) : List Nat → State
  | [] => s
  | l :: t =>
    let ln := s.lane l
    let s := (s.commitHeld (ln.held.filter fun h => ln.ended.contains h.slot)).commitSlots ln.ended
    (s.setLane l { s.lane l with held := [], ended := [], work := [], runs := 0 }).commitLanes t

/-- The sources of class outputs fire (Table INT-1). -/
def State.fireClasses (s : State) : List Nat → State
  | [] => s
  | c :: t => (s.fire (112 + c)).fireClasses t

/-- OUTPUT_COMMIT (step 6 of Table SCN-2, step 1 of Table LDR-6): the ft after x. -/
def outputCommit (s : State) : State :=
  match s.scan.cycle with
  | some y =>
    if y.phase = 2 && s.lanesDone then
      let lanes := List.range (laneLimit s.small)
      let x := s.endOfExecute y
      let s := (s.until (x + 1)).commitLanes lanes
      let s := s.doOutputs (inMask y.due) 8
      let s := s.start 0
      let s := s.fireClasses (listOf y.due)
      let r := s.recheck (s.switchSlots y)
      { r.1 with scan := { r.1.scan with cycle := some { y with phase := 3, x := x, switching := r.2,
                                                                frames := r.1.dueFrames (inMask y.due) } } }
    else s
  | none => s

def execOutputCommit (s : State) : Out := event (fun s => outputCommit s) s

/-- The carry charge of the changes that switch: the largest per-lane sum (R275). -/
def State.switchCharge (s : State) (ns : List Nat) : Nat :=
  ((List.range 8).map fun l =>
    (ns.map fun n => match (s.slot n).prog, s.besideProg n with
      | some o, some g => if o.lane = l then s.carryCharge n g else 0
      | _, _ => 0).sum).foldl max 0

/-- SWITCH_FT (steps 3 and 4 of Table LDR-6): output frames are queued, the carry is performed, and every change switches. -/
def switchFt (s : State) : State :=
  match s.scan.cycle with
  | some y =>
    if y.phase = 3 && !y.switching.isEmpty then
      let c := s.switchCharge y.switching
      let s := (s.until (y.x + 1 + y.tOut)).queueFrames y.frames
      let s := (s.until (y.x + 1 + y.tOut + c)).switchAll y.switching
      let y' : Cycle := { y with switching := [], switched := y.switching, tOut := y.tOut + c, built := true, frames := [] }
      { s with scan := { s.scan with cycle := some y' } }
    else s
  | none => s

def execSwitchFt (s : State) : Out := event (fun s => switchFt s) s

/-- The views of a class at the end of its cycle (Table SCN-6). -/
def State.view (s : State) (c : Nat) : ClassView := Tbl.get (fun _ => {}) s.scan.views c
def State.setViews (s : State) (y : Cycle) : List Nat → State
  | [] => s
  | c :: t =>
    let len := s.tick - y.at_
    let v : ClassView := ⟨y.at_, y.x - y.at_, y.x + 1 + y.tOut - y.at_, len, max (s.view c).max len, y.cycleNo⟩
    ({ s with scan := { s.scan with views := Tbl.set (fun _ => {}) s.scan.views c v } }).setViews y t

/-- The cycle ends (R199): MRAM records the generations of the slots that switched in it (Table LDR-9). -/
def State.endCycle (s : State) : State :=
  match s.scan.cycle with
  | some y =>
    let s := (s.setViews y (listOf y.due)).noteGens y.switched
    { s with scan := { s.scan with cycle := none, ended := true } }
  | none => s

/-- OUTPUT_PHASE_END (step 7 of Table SCN-2): output frames are queued; the cycle ends unless COPY runs (R199). -/
def outputPhaseEnd (s : State) : State :=
  match s.scan.cycle with
  | some y =>
    if y.phase = 3 && y.switching.isEmpty then
      let s := s.until (y.x + 1 + y.tOut)
      let s := if y.built then s else s.queueFrames y.frames
      if s.copyRuns then { s with scan := { s.scan with cycle := some { y with phase := 4, built := true, frames := [] } } }
      else s.endCycle
    else s
  | none => s

def execOutputPhaseEnd (s : State) : Out := event (fun s => outputPhaseEnd s) s

/-! ### Base anchors -/

/-- A cycle whose last step completes by the ft `at_` of a base anchor has ended there (R199). -/
def State.endedBy (s : State) (at_ : Nat) : State :=
  let t := outputPhaseEnd (switchFt (outputCommit s))
  if s.scan.cycle.isSome && t.scan.cycle.isNone && t.tick ≤ at_ then t else s

/-- A base anchor of the scan engine (R197, R202, R203). Without an enabled class or before the first LOCK there is none. -/
def baseAnchor (s : State) : State :=
  match s.nextBase with
  | none => s
  | some (v, due) =>
    let s := (s.endedBy (s.reachBase v due).tick).reachBase v due
    match s.scan.cycle with
    | some y => s.lateAnchor y due
    | none =>
      if s.canCycle then
        let skip := due.filter fun c => s.scan.skip.contains c
        let run := due.filter fun c => !s.scan.skip.contains c
        let s := s.skipClasses skip
        if run.isEmpty then s else s.startCycle run
      else s

/-! ### Event bindings (R196, R209) -/

def evbRow : Row := RegMap.rwN 0x400 64 4 0x01000000 0x8F07F3FF [⟨24, 4, 1, 8⟩]

/-- A write of EVB_e with its settled value. -/
def evbEffect (e : Nat) (w : Word) (s : State) : State × Nat :=
  let slot := fld w 0 10
  let src := fld w 12 7
  let bound := (List.range 64).any fun o =>
    o ≠ e && s.regBit pgSCN (0x400 + 4 * o) 31 && s.evbSource o = src
  let isEvent := match (s.slot slot).prog with | some g => g.event && !(s.slot slot).holderOf.isSome | none => false
  let t := s.setReg pgSCN (0x400 + 4 * e) w
  if bit w 31 && (bound || !isEvent) then (s, stInvalid)
  else if bit w 31 && !t.budgetOk then (s, stBudget)
  else (t, stOk)

/-- EVB_WRITE (R209). -/
def execEvbWrite (p : Path) (e : Nat) (data : Word) (s : State) : Out :=
  let o := 0x400 + 4 * e
  access (fun s => s.port p pgSCN false fun s =>
    let r := evbEffect e (settled pgSCN o evbRow .plain (s.reg pgSCN o) data) s
    (r.1.noteClamp pgSCN o (wasClamped pgSCN o evbRow .plain (s.reg pgSCN o) data && decide (r.2 = stOk)), r.2)) s

/-! ### Halts (R225) -/

/-- LANE_CTL.HALT: acts only with debug enabled. A halt in a cycle is noted as the cause of its lateness (Table SCN-6). -/
def haltEffect (l : Nat) (on : Bool) (s : State) : State × Nat :=
  if !s.debugEnabled || s.regBit (pgSCL l) 0x044 0 = on then (s, stOk)
  else
    let s := s.setRegBit (pgSCL l) 0x044 0 on
    if on then
      let s := s.setPend (pgSCL l) 1
      let s := s.noteCause 2
      ({ s with scan := { s.scan with cycle := s.scan.cycle.map fun y => { y with halt := true } } }, stOk)
    else (s, stOk)

/-- LANE_HALT (R225). -/
def execLaneHalt (p : Path) (l : Nat) (s : State) : Out :=
  access (fun s => s.port p (pgSCL l) false (haltEffect l true)) s

end Sys2Proof.Machine
end

