-- ==== Sys2Proof/Machine/Loops.lean ====
section
/-! DEFINITION. The loop engine (R283 to R313): anchors of loop groups, samples of cascade and PID loops, loop faults and
recoveries, and the writes of loop and section entries. -/

namespace Sys2Proof.Machine

set_option cleanup.letToHave false

open Sys2Proof.Config

/-! ### Entries -/

/-- Loop states (LP_STAT). -/
abbrev lpFree : Nat := 0
abbrev lpStopped : Nat := 1
abbrev lpRunning : Nat := 2
abbrev lpFaulted : Nat := 3

abbrev isPid (n : Nat) : Bool := 1024 ≤ n
abbrev State.lpStat (s : State) (n : Nat) : Word := s.loopWord n 0x34
abbrev State.lpState (s : State) (n : Nat) : Nat := fld (s.lpStat n) 0 2
def State.loopRec (s : State) (n : Nat) : Loop := Tbl.get (fun _ => {}) s.loops.loop n
def State.setLoopRec (s : State) (n : Nat) (x : Loop) : State :=
  ({ s with loops := { s.loops with loop := Tbl.set (fun _ => {}) s.loops.loop n x } }).mark (some (0x03010000 + n))
abbrev State.loopGroup (s : State) (n : Nat) : Nat := fld (s.loopWord n 0x30) 12 4

/-- The entry exists on the variant. -/
def State.loopExists (s : State) (n : Nat) : Bool :=
  if isPid n then decide (n - 1024 < pidLimit s.small) else decide (n < cascadeLimit s.small)

/-- The sections of a cascade loop. -/
def State.loopSects (s : State) (n : Nat) : List Nat :=
  if isPid n then []
  else (List.range (fld (s.loopWord n 0x40) 16 5)).map fun i => fld (s.loopWord n 0x40) 0 12 + i

/-- LP_STAT.STATE changes; RUN_COUNT and FAULTED_COUNT follow. -/
def State.setLpState (s : State) (n st : Nat) : State :=
  let old := s.lpState n
  let s := s.setLoopWord n 0x34 (setFld (s.lpStat n) 0 2 st)
  let s := if old = lpRunning ∧ st ≠ lpRunning then s.countDown pgLPE 0x074 1
    else if old ≠ lpRunning ∧ st = lpRunning then s.setReg pgLPE 0x074 (s.reg pgLPE 0x074 + 1) else s
  if old = lpFaulted ∧ st ≠ lpFaulted then s.countDown pgLPE 0x078 1
  else if old ≠ lpFaulted ∧ st = lpFaulted then s.setReg pgLPE 0x078 (s.reg pgLPE 0x078 + 1) else s

/-! ### Groups and sample time (R283, R285) -/

abbrev State.grpCfg (s : State) (g : Nat) : Word := s.reg pgLPE (0x100 + 4 * g)
abbrev State.grpEn (s : State) (g : Nat) : Bool := bit (s.grpCfg g) 31
abbrev State.grpPeriod (s : State) (g : Nat) : Nat := fld (s.grpCfg g) 0 13
abbrev State.grpLen (s : State) (g : Nat) : Nat := s.grpPeriod g * 2 ^ 26
abbrev State.grpAnchor (s : State) (g : Nat) : Nat := fld (s.grpCfg g) 16 6 * 2 ^ 26
def State.grpNext (s : State) (g : Nat) : Nat := s.nextOcc (genGroup g) (s.grpAnchor g) (s.grpLen g)

/-- Ts in binary32 from PERIOD and FNOM. -/
def tsOf (period : Nat) (sixty : Bool) : Nat := fdiv f32 (fofInt f32 period) (fofInt f32 (64 * (if sixty then 60 else 50)))
def State.loopTs (s : State) (n : Nat) : Nat := tsOf (s.grpPeriod (s.loopGroup n)) (s.regBit pgLPE 0x040 0)

/-- The derived words of a PID loop (R297). -/
def State.pidDerive (s : State) (n : Nat) : State :=
  let ts := s.loopTs n
  let tf := (s.loopWord n 0x4C).toNat
  let sum := fadd f32 tf ts
  let s := s.setLoopWord n 0x54 (word (fdiv f32 tf sum))
  let s := s.setLoopWord n 0x58 (word (fdiv f32 (s.loopWord n 0x48).toNat sum))
  s.setLoopWord n 0x5C (word ts)
def State.pidDeriveAll (s : State) : List Nat → State
  | [] => s
  | n :: t => (if isPid n then s.pidDerive n else s).pidDeriveAll t

/-! ### Inputs (R286, R289, R290) -/

/-- CH_STAT[1:0] of a meter channel (Table MTR-5, R327): 0 OFF, 1 RUN, 2 GAP while its sense link is outside RUN. -/
def State.chanState (s : State) (c : Nat) : Nat :=
  if !bit (s.ind pgMTR (256 * c)) 31 then 0
  else if 12 ≤ c && c < 48 && s.regFld pgSNS (0x084 + 64 * ((c - 12) / 12)) 0 3 ≠ 4 then 2
  else 1

/-- The meter quantity that LP_PV names: its word, and whether it is marked as a gap (R322). -/
def State.meterQty (s : State) (pv : Word) : Word × Bool :=
  let a := 256 * fld pv 0 6
  let o := match fld pv 8 3 with | 0 => 0x20 | 1 => 0x24 | 2 => 0x28 | _ => 0x2C
  (s.ind pgMTR (a + o), s.chanState (fld pv 0 6) ≠ 1)

/-- The value of a point as binary32. -/
def State.pointF32 (s : State) (pt : Nat) : Word := toF32 (s.ptType pt) (s.ptValue pt)

/-- A point index that a loop may read (R289). -/
def State.loopReads (s : State) (c j : Nat) : Option Nat :=
  match s.resolve c j with
  | some (p, _) => if s.ptType p = tStamp then none else some p
  | none => none

/-- A point read by a loop: its index is resolved for the loop's owner at the access (R26, R289); a refused one gives a NaN, which is
bad. -/
def State.loopPoint (s : State) (n j : Nat) : Word :=
  match s.loopReads (s.loopOwner n) j with
  | some p => s.pointF32 p
  | none => 0x7FC00000

/-- The capture of a loop's inputs: the values before any change in this ft (R23, R286). -/
def State.loopCapture (s : State) (n : Nat) : Capture :=
  let x := s.loopRec n
  let e := s.past
  let w := s.loopWord n 0x00
  let pv := if fld w 30 2 = 1 then e.meterQty w else (e.loopPoint n (fld w 0 13), false)
  let sp := s.loopWord n 0x04
  let target := if bit sp 31 then e.loopPoint n (fld sp 0 13) else s.loopWord n 0x08
  { pv := pv.1, pvBad := pv.2 || !ffinite f32 pv.1.toNat, target := target, targetBad := !ffinite f32 target.toNat,
    out := e.pointF32 x.outPt, forced := e.ptForced x.outPt,
    tune := if isPid n then [0x40, 0x44, 0x50, 0x54, 0x58, 0x5C].map (s.loopWord n) else [] }

/-- The configured loops of a group, cascade loops first, each in ascending number. -/
def State.groupLoops (s : State) (g : Nat) : List Nat := s.confLoops.filter fun n => s.loopGroup n = g
abbrev State.loopLive (s : State) (n : Nat) : Bool := s.lpState n = lpRunning || s.lpState n = lpFaulted

/-- The coefficients in force are taken at the anchor (R295). -/
def State.takeCoefs (s : State) : List Nat → State
  | [] => s
  | k :: t =>
    let c := [0x00, 0x04, 0x08, 0x0C, 0x10, 0x14].map fun o => s.ind pgLPE (0x020000 + 64 * k + o)
    ({ s with loops := { s.loops with coef := Tbl.set (fun _ => []) s.loops.coef k c } }).takeCoefs t

/-- A loop whose EN was set becomes RUNNING at the first anchor after the ft of the write (R299), where the value last applied is that in
force at its output point (log entry 29); a recovery ends FAULTED (R306). -/
def State.loopWake (s : State) (n : Nat) : State :=
  let x := s.loopRec n
  let asked := x.enabling.any (· < s.tick)
  if asked && s.lpState n = lpStopped then
    (s.setLoopRec n { x with enabling := none, starting := true, good := 0,
                             lastOut := (x.cap.map (·.out)).getD x.lastOut }).setLpState n lpRunning
  else if s.lpState n = lpFaulted && (asked || (bit (s.loopWord n 0x20) 18 && fld (s.lpStat n) 2 2 = 2 && 4 ≤ x.good)) then
    (((s.setLoopRec n { x with enabling := none, starting := true, good := 0 }).setLpState n lpRunning).bump pgLPE 0x208).setPend pgLPE 1
  else s

/-- Inputs are captured for a group's anchor. -/
def State.captureLoops (s : State) : List Nat → State
  | [] => s
  | n :: t =>
    let s := s.setLoopRec n { s.loopRec n with cap := some (s.loopCapture n) }
    (s.takeCoefs (s.loopSects n)).captureLoops t

/-- The pending output of a loop is applied (R288), where its output index still resolves for its owner (R26). -/
def State.applyLoop (s : State) (n : Nat) : State :=
  let x := s.loopRec n
  match x.pend with
  | none => s
  | some u =>
    if s.past.resolveOwn (s.loopOwner n) (fld (s.loopWord n 0x0C) 0 13) ≠ some x.outPt then s.setLoopRec n { x with pend := none }
    else
    let forced := s.ptForced x.outPt
    let s := s.ptApply x.outPt (convert tFloat32 (s.ptType x.outPt) (BitVec.ofNat 64 u.toNat)).1
    let s := if forced then s.bump pgLPE 0x20C else s
    s.setLoopRec n { x with pend := none, lastOut := if forced then x.lastOut else u }
def State.applyLoops (s : State) : List Nat → State
  | [] => s
  | n :: t => (s.applyLoop n).applyLoops t
def State.wakeLoops (s : State) : List Nat → State
  | [] => s
  | n :: t => (s.loopWake n).wakeLoops t

/-- The captures of every enabled group that has an anchor at `v` and none yet for it: all take the values before any change
in that ft (R286, R23). -/
def State.captureAt (s : State) (v : Nat) : List Nat → State
  | [] => s
  | g :: t =>
    if s.grpEn g && s.grpNext g = v && Tbl.get (fun _ => none) s.loops.capped g ≠ some v then
      let live := (s.groupLoops g).filter fun n => s.loopLive n || (s.loopRec n).enabling.isSome
      let s := s.captureLoops live
      ({ s with loops := { s.loops with capped := Tbl.set (fun _ => none) s.loops.capped g (some v) } }).captureAt v t
    else s.captureAt v t

/-- The charge of a group's computation (R287). -/
def State.groupWork (s : State) (g : Nat) : Nat :=
  16 + (((s.groupLoops g).filter s.loopLive).map fun n => if isPid n then 48 else 24 + 6 * (s.loopSects n).length).sum

/-- A group's computation starts: SAMPLE_CNT counts, and its charge is known. -/
def State.startGroup (s : State) (g : Nat) : State :=
  let s := s.bump pgLPE 0x200
  { s with loops := { s.loops with running := Tbl.set (fun _ => none) s.loops.running g (some s.tick),
                                   charged := Tbl.set (fun _ => none) s.loops.charged g (some (s.tick, s.groupWork g)) } }

/-- An anchor of loop group g (R286). On a standby, in a module fault and under a save no sample starts (R310, R539). An anchor of a
commit ft occurs under the old configuration, of a group that held no running loop (R284). -/
def loopAnchor (g : Nat) (s : State) : State :=
  if s.owes (genGroup g) then
    let s := s.setOwes (genGroup g) false
    if s.working && !s.isStandby then s.startGroup g else s
  else if s.ridge.locked && s.grpEn g then
    let v := s.grpNext g
    let s := s.untilTheta v
    if s.working && !s.isStandby then
      let s := s.captureAt v (List.range 16)
      let s := s.reach (genGroup g) (s.grpAnchor g) (s.grpLen g)
      let ns := s.groupLoops g
      ((s.applyLoops (ns.filter s.loopLive)).wakeLoops ns).startGroup g
    else s.reach (genGroup g) (s.grpAnchor g) (s.grpLen g)
  else s

/-! ### Cores (R291 to R297) -/

/-- u = min(max(v, LP_OUT_MIN), LP_OUT_MAX). -/
def State.outLimit (s : State) (n v : Nat) : Nat := fclamp f32 (s.loopWord n 0x14).toNat (s.loopWord n 0x18).toNat v

/-- A binary32 value as Q1.31: to nearest, ties to even, clamped. -/
def q31 (x : Nat) : Int := froundInt f32 (-2147483648) 2147483647 (fmul f32 x (fofInt f32 2147483648))

/-- The 56-bit accumulator saturates (R294). -/
def sat56 (x : Int) : Int := clampInt (-36028797018963968) 36028797018963967 x

/-- One section: y from x, the state x1, x2, y1, y2, and the coefficients b0, b1, b2, a1, a2 and SHIFT. -/
def sosStep (c : List Int) (shift : Nat) (x x1 x2 y1 y2 : Int) : Int :=
  match c with
  | [b0, b1, b2, a1, a2] =>
    let acc := sat56 (floorDiv (b0 * x) 512)
    let acc := sat56 (acc + floorDiv (b1 * x1) 512)
    let acc := sat56 (acc + floorDiv (b2 * x2) 512)
    let acc := sat56 (acc - floorDiv (a1 * y1) 512)
    let acc := sat56 (acc - floorDiv (a2 * y2) 512)
    clampInt (-2147483648) 2147483647 (floorDiv (acc + 2 ^ (19 - shift)) (2 ^ (20 - shift)))
  | _ => 0

abbrev sosAddr (k : Nat) : Nat := 0x020000 + 64 * k
abbrev State.sosState (s : State) (k o : Nat) : Int := (s.ind pgLPE (sosAddr k + o)).toInt

/-- The sections in order: the last y, and the new states as (section, x, y). -/
def State.runSects (s : State) : List Nat → Int → Int × List (Nat × Int × Int)
  | [], x => (x, [])
  | k :: t, x =>
    let c := Tbl.get (fun _ => []) s.loops.coef k
    let y := sosStep ((c.take 5).map (·.toInt)) ((c.getD 5 0).toNat % 4) x (s.sosState k 0x18) (s.sosState k 0x1C)
      (s.sosState k 0x20) (s.sosState k 0x24)
    let r := s.runSects t y
    (r.1, (k, x, y) :: r.2)

/-- The new states are stored. -/
def State.storeSects (s : State) : List (Nat × Int × Int) → State
  | [] => s
  | (k, x, y) :: t =>
    let a := sosAddr k
    let s := s.setInd pgLPE (a + 0x1C) (s.ind pgLPE (a + 0x18))
    let s := s.setInd pgLPE (a + 0x18) (BitVec.ofInt 32 x)
    let s := s.setInd pgLPE (a + 0x24) (s.ind pgLPE (a + 0x20))
    (s.setInd pgLPE (a + 0x20) (BitVec.ofInt 32 y)).storeSects t

/-- Section states at 0, but y1 and y2 of the last one (R300). -/
def State.zeroSects (s : State) (last : Word) : List Nat → State
  | [] => s
  | k :: t =>
    let a := sosAddr k
    let y := if t.isEmpty then last else 0
    ((((s.setInd pgLPE (a + 0x18) 0).setInd pgLPE (a + 0x1C) 0).setInd pgLPE (a + 0x20) y).setInd pgLPE (a + 0x24) y).zeroSects
      last t

/-- LIMITED and SAT_CNT (R292), and the pending output. -/
def State.loopOut (s : State) (n u v : Nat) : State :=
  let s := s.setLoopWord n 0x34 (setBit (s.lpStat n) 5 (decide (u ≠ v)))
  let s := if u ≠ v then s.bump pgLPE 0x210 else s
  s.setLoopRec n { s.loopRec n with pend := some (word u) }

/-! ### Faults and fault actions (R303 to R306) -/

/-- The fault action of a FAULTED loop for the next anchor (R305). -/
def State.faultOut (s : State) (n : Nat) : State :=
  let x := s.loopRec n
  let safe := s.loopWord n 0x24
  let out : Option Word :=
    match fld (s.loopWord n 0x20) 16 2 with
    | 0 => none
    | 1 => some safe
    | _ =>
      let step := fmul f32 (s.loopWord n 0x28).toNat (if isPid n then (s.loopWord n 0x5C).toNat else s.loopTs n)
      let d := fsub f32 safe.toNat x.lastOut.toNat
      if fle f32 (d % 2 ^ 31) step then some safe
      else if flt f32 x.lastOut.toNat safe.toNat then some (word (fadd f32 x.lastOut.toNat step))
      else some (word (fsub f32 x.lastOut.toNat step))
  s.setLoopRec n { x with pend := out }

/-- A loop fault (R303, R305). -/
def State.loopFault (s : State) (n code e : Nat) : State :=
  let x := s.loopRec n
  let s := s.setLoopRec n { x with enabling := none, starting := false, good := 0 }
  let s := (s.setLpState n lpFaulted).setLoopWord n 0x34 (setFld ((s.setLpState n lpFaulted).lpStat n) 2 2 code)
  let s := (s.bump pgLPE 0x204).setReg pgLPE 0x07C (word (n + 65536 * code + 1048576 * s.loopOwner n))
  (s.event pgLPE 0 [n, code, e, x.lastOut.toNat]).faultOut n

/-! ### One sample -/

/-- The working setpoint of a normal sample (R291). -/
def State.rampSp (s : State) (n : Nat) (target : Nat) : State :=
  let spw := (s.loopWord n 0x3C).toNat
  let st := s.lpStat n
  let ramp := (s.loopWord n 0x10).toNat
  if bit st 4 || bit (s.loopWord n 0x20) 20 then
    let step := fmul f32 ramp (if isPid n then (s.loopWord n 0x5C).toNat else s.loopTs n)
    let d := fsub f32 target spw
    if feq f32 ramp 0 || fle f32 (d % 2 ^ 31) step then
      (s.setLoopWord n 0x3C (word target)).setLoopWord n 0x34 (setBit st 4 false)
    else if flt f32 spw target then s.setLoopWord n 0x3C (word (fadd f32 spw step))
    else s.setLoopWord n 0x3C (word (fsub f32 spw step))
  else s.setLoopWord n 0x3C (word target)

/-- The start procedure (R300). A quotient that is no number leaves y1 and y2 open: a free value (log entry 5). -/
def State.loopStart (s : State) (n : Nat) (c : Capture) : State :=
  let s := (s.heal (.loop n)).setLoopWord n 0x3C c.pv
  let s := s.setLoopWord n 0x34 (setFld (setBit (s.lpStat n) 4 true) 16 16 0)
  let u0 := s.outLimit n c.out.toNat
  let s := s.setLoopRec n { s.loopRec n with starting := false, lastOut := word u0, pvPrev := c.pv }
  if isPid n then (s.setLoopWord n 0x60 (word u0)).setLoopWord n 0x64 0
  else
    let y := fdiv f32 (fsub f32 u0 (s.loopWord n 0x4C).toNat) (s.loopWord n 0x48).toNat
    if fnan f32 y then (s.zeroSects (s.freeWord.setWidth 32) (s.loopSects n)).draw
    else s.zeroSects (BitVec.ofInt 32 (q31 y)) (s.loopSects n)

/-- The core of a cascade loop (R294). A NaN on the way is a bad input (R292). -/
def State.cascadeCore (s : State) (n e : Nat) : State :=
  let x := fmul f32 e (s.loopWord n 0x44).toNat
  if fnan f32 x then s.loopFault n 2 e
  else
    let r := s.runSects (s.loopSects n) (q31 x)
    let v := fadd f32 (fmul f32 (fdiv f32 (fofInt f32 r.1) (fofInt f32 2147483648)) (s.loopWord n 0x48).toNat)
      (s.loopWord n 0x4C).toNat
    let s := s.setLoopWord n 0x50 (BitVec.ofInt 32 r.1)
    if fnan f32 v then s.loopFault n 2 e
    else
      let u := s.outLimit n v
      let s := if bit (s.loopWord n 0x40) 24 && u ≠ v then s else s.storeSects r.2
      s.loopOut n u v

/-- The core of a PID loop (R297), with its words in force at the anchor. -/
def State.pidCore (s : State) (n e : Nat) (c : Capture) : State :=
  let t := fun k => (c.tune.getD k 0).toNat
  let x := s.loopRec n
  let i := (s.loopWord n 0x60).toNat
  let p := fmul f32 (t 0) e
  let d := fsub f32 (fmul f32 (t 3) (s.loopWord n 0x64).toNat) (fmul f32 (t 4) (fsub f32 c.pv.toNat x.pvPrev.toNat))
  let v := fadd f32 (fadd f32 p i) d
  if fnan f32 v then s.loopFault n 2 e
  else
    let u := s.outLimit n v
    let i := fadd f32 i (fmul f32 (t 5) (fadd f32 (fmul f32 (t 1) e) (fmul f32 (t 2) (fsub f32 u v))))
    let s := ((s.setLoopWord n 0x60 (word (s.outLimit n i))).setLoopWord n 0x64 (word d)).setLoopWord n 0x68 (word u)
    (s.setLoopRec n { x with pvPrev := c.pv }).loopOut n u v

/-- The follow counter (R304): the new count, and whether FOLLOW is raised. -/
def State.follow (s : State) (n e : Nat) : Nat × Bool :=
  let lim := (s.loopWord n 0x1C).toNat
  let k := fld (s.lpStat n) 16 16
  if flt f32 0 lim && flt f32 lim (e % 2 ^ 31) then
    let k := min (k + 1) 65535
    (k, decide (fld (s.loopWord n 0x20) 0 16 ≤ k))
  else (0, false)

/-- Sample k of one loop. -/
def State.sampleLoop (s : State) (n : Nat) : State :=
  let x := s.loopRec n
  match x.cap with
  | none => s
  | some c =>
    if !s.loopLive n then s
    else
      let bad := c.pvBad || c.targetBad
      let s := s.setLoopRec n { x with cap := none, good := if bad then 0 else min (x.good + 1) 4 }
      let track := bit (s.loopWord n 0x20) 19 && c.forced
      let s := s.setLoopWord n 0x38 c.pv
      let s := s.setLoopWord n 0x34 (setBit (setBit (s.lpStat n) 7 c.pvBad) 6 (track && s.lpState n = lpRunning))
      let r := s.checkStore (.loop n)
      if s.lpState n = lpFaulted then s.faultOut n
      else if r.2 then r.1.loopFault n 3 (fsub f32 (s.loopWord n 0x3C).toNat c.pv.toNat)
      else
      let s := r.1
      if bad then s.loopFault n 2 (fsub f32 (s.loopWord n 0x3C).toNat c.pv.toNat)
      else if x.starting || track then
        let s := s.loopStart n c
        let e := fsub f32 c.pv.toNat c.pv.toNat
        if isPid n then s.pidCore n e c else s.cascadeCore n e
      else
        let s := s.rampSp n c.target.toNat
        let e := fsub f32 (s.loopWord n 0x3C).toNat c.pv.toNat
        let r := s.follow n e
        let s := s.setLoopWord n 0x34 (setFld (s.lpStat n) 16 16 r.1)
        if r.2 then s.loopFault n 1 e
        else if isPid n then s.pidCore n e c else s.cascadeCore n e
def State.sampleLoops (s : State) : List Nat → State
  | [] => s
  | n :: t => (s.sampleLoop n).sampleLoops t

/-- What is charged up to the end of group g for the anchors of tick `a`: its own computation and those of the groups below it. -/
def State.workTo (s : State) (a g : Nat) : Nat :=
  ((List.range (g + 1)).map fun h =>
    match (Tbl.get (fun _ => none) s.loops.charged h : Option (Nat × Nat)) with
    | some (t, w) => if t = a then w else 0
    | none => 0).sum

/-- LOOP_SAMPLE_DONE (R287): the computation of group g ends, after those of the groups below it that share its anchor ft;
its source fires in the next ft (Table INT-1). -/
def loopSampleDone (g : Nat) (s : State) : State :=
  match Tbl.get (fun _ => none) s.loops.running g with
  | none => s
  | some a =>
    let w := s.workTo a g
    let s := (s.until (a + w)).sampleLoops (s.groupLoops g)
    let s := { s with loops := { s.loops with running := Tbl.set (fun _ => none) s.loops.running g none } }
    let s := s.setReg pgLPE 0x044 (word w)
    let s := if (s.reg pgLPE 0x048).toNat < w then s.setReg pgLPE 0x048 (word w) else s
    (s.until (a + w + 1)).fire (96 + g)

def execLoopSampleDone (g : Nat) (s : State) : Out := event (fun s => loopSampleDone g s) s

/-! ### LP_CTL (R299, R301, R306, R307) -/

/-- A path may write the Immediate words of a loop: its owner, and context 0. -/
def State.mayLoop (s : State) (p : Path) (n : Nat) : Bool :=
  s.ctxOf p = 0 || (s.loopConf n && s.loopOwner n = s.ctxOf p)

/-- A write to a loop entry: nothing where the entry does not exist (R139), DENIED where the path may not. -/
def loopGate (p : Path) (n : Nat) (f : State → State × Nat) (s : State) : State × Nat :=
  if !s.loopExists n then (s, stOk) else if !s.mayLoop p n then (s, stDenied) else f s

/-- The entry latches of the cascade and of the PID entries (R180). -/
abbrev spLoop (n : Nat) : Nat := if n < 1024 then 5 else 8

/-- A write of an Immediate word of loop n. -/
def loopWrite (p : Path) (n : Nat) (f : State → State × Nat) (s : State) : State × Nat :=
  loopGate p n (withEntry p (spLoop n) (loopAddr n) f) s

/-- EN becomes 1. -/
def loopEnableEffect (n : Nat) (s : State) : State × Nat :=
  if s.lpState n = lpFree || !s.grpEn (s.loopGroup n) then (s, stInvalid)
  else
    let s := s.setLoopWord n 0x2C 1
    (if s.lpState n = lpStopped then s.setLoopRec n { s.loopRec n with enabling := some s.tick } else s, stOk)

/-- The present ft is an anchor ft of group g whose anchor has yet to come. -/
def State.grpDue (s : State) (g : Nat) : Bool :=
  s.grpEn g && s.genDue (genGroup g) (s.grpAnchor g) (s.grpLen g) && s.working && !s.isStandby

/-- EN becomes 0. In an anchor ft the output of that anchor is applied first (R301). -/
def loopDisableEffect (n : Nat) (s : State) : State × Nat :=
  let s := if s.grpDue (s.loopGroup n) && s.loopLive n then s.applyLoop n else s
  let s := s.setLoopWord n 0x2C 0
  let s := s.setLoopRec n { s.loopRec n with enabling := none, starting := false, pend := none, cap := none, good := 0 }
  (if s.loopLive n then s.setLpState n lpStopped else s, stOk)

/-- RECOVER: the start procedure runs at the next anchor after this ft (R306, R129). -/
def loopRecoverEffect (n : Nat) (s : State) : State × Nat :=
  (if s.lpState n = lpFaulted then s.setLoopRec n { s.loopRec n with enabling := some s.tick } else s, stOk)

/-- A write of LP_CTL with its settled EN bit and its RECOVER pulse. -/
def lpCtlEffect (n : Nat) (en rec : Bool) (s : State) : State × Nat :=
  let r := if en then loopEnableEffect n s else loopDisableEffect n s
  if r.2 ≠ stOk then r
  else if rec then loopRecoverEffect n r.1 else r

/-- LOOP_ENABLE (R299). -/
def execLoopEnable (p : Path) (n : Nat) (s : State) : Out :=
  access (fun s => s.port p pgLPE true (loopWrite p n (loopEnableEffect n))) s
/-- LOOP_DISABLE (R301). -/
def execLoopDisable (p : Path) (n : Nat) (s : State) : Out :=
  access (fun s => s.port p pgLPE true (loopWrite p n (loopDisableEffect n))) s
/-- RECOVER (R306). -/
def execRecover (p : Path) (n : Nat) (s : State) : Out :=
  access (fun s => s.port p pgLPE true (loopWrite p n (loopRecoverEffect n))) s

/-! ### LP_DEF (R308) -/

abbrev spSos : Nat := 6

/-- A refused LP_DEF write. -/
def State.lpeRefuse (s : State) (n st : Nat) : State × Nat :=
  (((s.bump pgLPE 0x214).setReg pgLPE 0x080
    (word (st + 256 * (if isPid n then n - 1024 else n) + 16777216 * b2n (isPid n)))).setPend pgLPE 2, st)

/-- A context's class holds PID rights (R159, R481). -/
def State.pidRight (s : State) (c : Nat) : Bool :=
  c = 0 || bit (s.fuseReg 0x050) (fld (s.ctxDef c) 2 2)

/-- The meter quantity of LP_PV is present, owned and allowed for the channel (R289, R308). -/
def State.meterOk (s : State) (c : Nat) (pv : Word) : Bool :=
  let ch := fld pv 0 6
  let q := fld pv 8 3
  let d := s.ind pgMTR (256 * ch)
  if ch < 48 then (ch < 12 || !s.small) && q ≤ 3 && (c = 0 || fld d 0 9 = c)
  else ch ≤ 51 && q = 0 && (c = 0 || fld d 0 9 = c)

/-- The points that the indices of a configuration name: pv, setpoint and output; none where a check of step 4 fails. -/
def State.loopPoints (s : State) (c : Nat) (pv sp out : Word) : Option (Nat × Nat × Nat) :=
  let pvPt : Option Nat := match fld pv 30 2 with
    | 0 => s.loopReads c (fld pv 0 13)
    | 1 => if s.meterOk c pv then some 0 else none
    | _ => none
  let spPt : Option Nat := if bit sp 31 then s.loopReads c (fld sp 0 13) else some 0
  let outPt : Option Nat := match s.resolveOwn c (fld out 0 13) with
    | some p => if s.ptType p = 0 ∨ s.ptType p = tStamp then none else some p
    | none => none
  match pvPt, spPt, outPt with
  | some a, some b, some d => some (a, b, d)
  | _, _, _ => none

/-- The sections that another configured loop covers. -/
def State.sectsUsed (s : State) (n : Nat) : List Nat := (s.confLoops.filter (· ≠ n)).flatMap s.loopSects

/-- The counts of a loop entry: cascade loops, sections, PID loops. -/
def State.lpeCount (s : State) (ofs limit : Nat) (old new : Nat) : State :=
  if old < new then
    let s := s.countUp pgLPE ofs (ofs + 4) (new - old)
    if (s.reg pgLPE ofs).toNat = limit then s.setPend pgLPE 3 else s
  else if new < old then s.countDown pgLPE ofs (old - new) else s

/-- An entry write of a loop, with the settled words. -/
def lpDefApply (p : Path) (n : Nat) (w : Word) (s : State) : State × Nat :=
  if !s.loopExists n then (s, stOk)
  else
    let a := loopAddr n
    let l := fun o => s.latchedWord p (spLoop n) a o (s.loopWord n o)
    let pv := l 0x00
    let sp := l 0x04
    let out := l 0x0C
    let sos := if isPid n then 0 else l 0x40
    let s := s.dropLatch p (spLoop n)
    let x := s.loopRec n
    let was := s.loopConf n
    if bit w 16 then
      let c := fld w 0 9
      let first := fld sos 0 12
      let k := fld sos 16 5
      let pool := if isPid n then false else
        k = 0 || sosLimit s.small < first + k || (List.range k).any fun i => (s.sectsUsed n).contains (first + i)
      let oldK := if was then (s.loopSects n).length else 0
      if ctxLimit s.small ≤ c || s.ctxState c = 0 then s.lpeRefuse n stInvalid
      else if isPid n && !s.pidRight c then s.lpeRefuse n stPidRight
      else if s.loopLive n then s.lpeRefuse n stInUse
      else
        match s.loopPoints c pv sp out with
        | none => s.lpeRefuse n stInvalid
        | some (pvPt, spPt, outPt) =>
          if pool then s.lpeRefuse n stInvalid
          else if (s.ptKind outPt ≠ wkNone && !(s.ptKind outPt = wkLoop && s.ptId outPt = n)) || s.comingWriter outPt then s.lpeRefuse n stWriterConflict
          else if !isPid n && sosLimit s.small < (s.reg pgLPE 0x058).toNat - oldK + k then s.lpeRefuse n stCapacity
          else
            let s := if was then s.setWriter x.outPt wkNone 0 else s
            let s := s.setWriter outPt wkLoop n
            let s := ((s.setLoopWord n 0x00 pv).setLoopWord n 0x04 sp).setLoopWord n 0x0C out
            let s := if isPid n then s else s.setLoopWord n 0x40 sos
            let s := (s.setLoopWord n 0x30 w).setLoopWord n 0x2C 0
            let s := (s.setLoopRec n { pvPt := pvPt, spPt := spPt, outPt := outPt }).setLpState n lpStopped
            let s := if isPid n then (s.pidDerive n).lpeCount 0x064 (pidLimit s.small) (b2n was) 1
              else (s.lpeCount 0x04C (cascadeLimit s.small) (b2n was) 1).lpeCount 0x058 (sosLimit s.small) oldK k
            (s, stOk)
    else if s.lpState n ≠ lpStopped then s.lpeRefuse n stInUse
    else
      let k := (s.loopSects n).length
      let s := (s.setWriter x.outPt wkNone 0).setLoopRec n {}
      let s := ((s.setLoopWord n 0x30 w).setLoopWord n 0x2C 0).setLpState n lpFree
      (if isPid n then s.lpeCount 0x064 (pidLimit s.small) 1 0
       else (s.lpeCount 0x04C (cascadeLimit s.small) 1 0).lpeCount 0x058 (sosLimit s.small) k 0, stOk)

/-- A write of LP_DEF with its settled value (R308); a latched CL_SOS is clamped. -/
def lpDefEffect (p : Path) (n : Nat) (w : Word) (s : State) : State × Nat :=
  if isPid n then lpDefApply p n w s
  else withSettled p pgLPE (spLoop n) (loopAddr n) 0x40 (entSettle pgLPE RegMap.entCascade 0x40 .plain 0) (lpDefApply p n w) s

/-- LP_DEF_CONFIGURE and LP_DEF_FREE (R308): a write of LP_DEF with CONF at 1 and at 0. -/
def execLpDefConfigure (p : Path) (n : Nat) (data : Word) (s : State) : Out :=
  access (fun s => s.port p pgLPE false (lpDefEffect p n (setBit (data &&& 0x1F1FF) 16 true))) s
def execLpDefFree (p : Path) (n : Nat) (data : Word) (s : State) : Out :=
  access (fun s => s.port p pgLPE false (lpDefEffect p n (setBit (data &&& 0x1F1FF) 16 false))) s

/-- HWM_CLR of LPE (R309). -/
def lpeHwmEffect (data : Word) (s : State) : State × Nat :=
  (((s.hwmOne pgLPE 0x04C 0x050 (bit data 0)).hwmOne pgLPE 0x058 0x05C (bit data 1)).hwmOne pgLPE 0x064 0x068 (bit data 2), stOk)

/-! ### Immediate words -/

/-- LP_OUT_MIN and LP_OUT_MAX (R292): the word in force after a write. -/
def outLimitEffect (n : Nat) (isMax : Bool) (data : Word) (s : State) : State × Nat :=
  let other := s.loopWord n (if isMax then 0x14 else 0x18)
  let ok := if isMax then fle f32 other.toNat data.toNat else fle f32 data.toNat other.toNat
  let o := if isMax then 0x18 else 0x14
  ((s.setLoopWord n o (if ok then data else other)).noteClamp pgLPE (loopAddr n + o) (!ok), stOk)

/-- OUT_LIMIT_WRITE (R292). -/
def execOutLimitWrite (p : Path) (n : Nat) (isMax : Bool) (data : Word) (s : State) : Out :=
  access (fun s => s.port p pgLPE true (loopWrite p n (outLimitEffect n isMax data))) s

/-- A binary32 word clamped to 0 to 1.0 × 10^6; a negative value or a NaN gives 0 (R297, Table LPE-10). -/
def clampRate (w : Word) : Word :=
  if fle f32 0 w.toNat then (if flt f32 0x49742400 w.toNat then 0x49742400 else w) else 0

/-- A write of a PID coefficient (R297, R298): `o` is its offset. -/
def pidTuneEffect (n o : Nat) (data : Word) (s : State) : State × Nat :=
  let v := clampRate data
  (((s.setLoopWord n o v).noteClamp pgLPE (loopAddr n + o) (decide (v ≠ data))).pidDerive n, stOk)

/-- PID_TUNING_WRITE (R297): 0 KP, 1 KI, 2 KD, 3 TF, 4 KT. -/
def execPidTuningWrite (p : Path) (n which : Nat) (data : Word) (s : State) : Out :=
  access (fun s => s.port p pgLPE true (loopWrite p (1024 + n) (pidTuneEffect (1024 + n) (0x40 + 4 * which) data))) s

/-- Another Immediate word of a loop entry, with its settled value. LP_RAMP and LP_SAFE_RATE are clamped as binary32. -/
def loopWordEffect (n o : Nat) (w : Word) (s : State) : State × Nat :=
  let v := if o = 0x10 ∨ o = 0x28 then clampRate w else w
  ((s.setLoopWord n o v).noteClamp pgLPE (loopAddr n + o) (decide (v ≠ w)), stOk)

/-! ### Sections (R293, R295, R307) -/

/-- A coefficient as a write leaves it (R293). -/
def clampCoef (w : Word) : Word :=
  if bit w 31 = bit w 30 then w else if bit w 31 then 0xC0000000 else 0x3FFFFFFF

/-- The loop that covers a section. -/
def State.sectLoop (s : State) (k : Nat) : Option Nat := s.confLoops.find? fun n => (s.loopSects n).contains k

/-- A path may write a section: context 0, and the owner of the loop that covers it. -/
def State.maySect (s : State) (p : Path) (k : Nat) : Bool :=
  s.ctxOf p = 0 || (match s.sectLoop k with | some n => s.loopOwner n = s.ctxOf p | none => false)

/-- A write of SOS_CTL applies the latched coefficients with it. -/
def sosCtlEffect (p : Path) (k : Nat) (w : Word) (s : State) : State × Nat :=
  if sosLimit s.small ≤ k then (s, stOk)
  else if !s.maySect p k then (s, stDenied)
  else
    let a := sosAddr k
    let l := fun o => s.latchedWord p spSos a o (s.ind pgLPE (a + o))
    let v := fun o => clampCoef (l o)
    let c := [0x00, 0x04, 0x08, 0x0C, 0x10].any fun o => v o ≠ l o
    let s := s.dropLatch p spSos
    let s := (((((s.setInd pgLPE a (v 0)).setInd pgLPE (a + 4) (v 4)).setInd pgLPE (a + 8) (v 8)).setInd pgLPE (a + 12)
      (v 12)).setInd pgLPE (a + 16) (v 16)).setInd pgLPE (a + 20) (w &&& 3)
    (s.noteClamp pgLPE a c, stOk)

/-- SOS_CTL_WRITE (R295). -/
def execSosCtlWrite (p : Path) (sct : Nat) (data : Word) (s : State) : Out :=
  access (fun s => s.port p pgLPE true (sosCtlEffect p sct data)) s

/-! ### Commit of the groups (R284) -/

/-- A commit of GRPg_CFG and CTL may take effect. -/
def State.lpeCommitOk (s : State) : Bool :=
  let live := s.confLoops.filter s.loopLive
  ((List.range 16).all fun g =>
    s.getShadow pgLPE (0x100 + 4 * g) = s.grpCfg g || !(live.any fun n => s.loopGroup n = g)) &&
  (s.getShadow pgLPE 0x040 = s.reg pgLPE 0x040 || live.isEmpty)

/-- Groups that the commit enabled or moved count their occurrences from now (R106). `due` holds the groups whose anchor falls in this ft
and has yet to come: it occurs under the old configuration (R284). -/
def State.groupsFrom (s : State) (old : Nat → Word) (due : List Nat) : List Nat → State
  | [] => s
  | g :: t =>
    (if s.grpCfg g ≠ old g then
      let s := if due.contains g then s.setOwes (genGroup g) true else s
      if s.grpEn g then s.genFrom (genGroup g) else s
     else s).groupsFrom old due t

/-- What a commit of the LPE shadows does beside taking them. -/
def State.lpeCommitted (s : State) (old : Nat → Word) (due : List Nat) : State :=
  (s.groupsFrom old due (List.range 16)).pidDeriveAll s.confLoops

end Sys2Proof.Machine
end

