-- ==== Sys2Proof/Machine/Rtc.lean ====
section
/-! DEFINITION. The time-of-day clock (R439 to R450): roll-overs, the calendar, freezes, commits, alarms, temperature
compensation and the backup supply. -/

namespace Sys2Proof.Machine

set_option cleanup.letToHave false

open Sys2Proof.Config

/-! ### BCD and the calendar (R439) -/

def bcd (n : Nat) : Nat := n / 16 * 10 + n % 16
def toBcd (n : Nat) : Nat := n / 10 * 16 + n % 10

/-- Gregorian leap years, and the length of a month. -/
def leapYear (y : Nat) : Bool := y % 4 = 0 && (y % 100 ≠ 0 || y % 400 = 0)
def monthLen (y m : Nat) : Nat :=
  match m with
  | 2 => if leapYear y then 29 else 28
  | 4 => 30
  | 6 => 30
  | 9 => 30
  | 11 => 30
  | _ => 31

/-- Days before year y of the calendar that starts with year 0, and before month m of it. -/
def daysToYear (y : Nat) : Nat := 365 * y + (y + 3) / 4 - (y + 99) / 100 + (y + 399) / 400
def daysToMonth (y m : Nat) : Nat := ((List.range m).map fun k => if k = 0 then 0 else monthLen y k).sum

/-- Seconds from the start of year 0; the calendar returns to it after 10,000 years. -/
def secondsOf (y mo d h mi sec : Nat) : Nat := ((daysToYear y + daysToMonth y mo + (d - 1)) * 24 + h) * 3600 + mi * 60 + sec
abbrev calendarSeconds : Nat := 3652425 * 86400

/-- A clock time: year, month, day, hour, minute, second, weekday. -/
structure Cal where
  y : Nat
  mo : Nat
  d : Nat
  h : Nat
  mi : Nat
  sec : Nat
  wd : Nat
deriving DecidableEq, Repr

def Cal.seconds (c : Cal) : Nat := secondsOf c.y c.mo c.d c.h c.mi c.sec

/-- The live time. -/
def State.clock (s : State) : Cal :=
  let r := fun o => bcd (s.reg pgRTC o).toNat
  ⟨100 * r 0x060 + r 0x05C, r 0x058, r 0x054, r 0x04C, r 0x048, r 0x044, (s.reg pgRTC 0x050).toNat⟩
def State.setClock (s : State) (c : Cal) : State :=
  let s := (s.setReg pgRTC 0x044 (word (toBcd c.sec))).setReg pgRTC 0x048 (word (toBcd c.mi))
  let s := (s.setReg pgRTC 0x04C (word (toBcd c.h))).setReg pgRTC 0x050 (word c.wd)
  let s := (s.setReg pgRTC 0x054 (word (toBcd c.d))).setReg pgRTC 0x058 (word (toBcd c.mo))
  (s.setReg pgRTC 0x05C (word (toBcd (c.y % 100)))).setReg pgRTC 0x060 (word (toBcd (c.y / 100)))

/-- One second later. -/
def Cal.tick (c : Cal) : Cal :=
  if c.sec < 59 then { c with sec := c.sec + 1 }
  else if c.mi < 59 then { c with sec := 0, mi := c.mi + 1 }
  else if c.h < 23 then { c with sec := 0, mi := 0, h := c.h + 1 }
  else
    let c := { c with sec := 0, mi := 0, h := 0, wd := if c.wd = 7 then 1 else c.wd + 1 }
    if c.d < monthLen c.y c.mo then { c with d := c.d + 1 }
    else if c.mo < 12 then { c with d := 1, mo := c.mo + 1 }
    else { c with d := 1, mo := 1, y := (c.y + 1) % 10000 }

/-! ### Alarms (R444 to R447) -/

abbrev alOfs (a : Nat) : Nat := 0x140 + 16 * a
abbrev State.alMode (s : State) (a : Nat) : Nat := s.regFld pgRTC (alOfs a + 8) 0 3
abbrev State.alDone (s : State) (a : Nat) : Bool := s.regBit pgRTC (alOfs a + 12) 2
def State.alNext (s : State) (a : Nat) : Option Nat := Tbl.get (fun _ => none) s.rtc.next a
def State.setAlNext (s : State) (a : Nat) (n : Option Nat) : State :=
  { s with rtc := { s.rtc with next := Tbl.set (fun _ => none) s.rtc.next a n } }

/-- The date of an ONCE alarm in seconds. -/
def State.alOnce (s : State) (a : Nat) : Nat :=
  let t := s.reg pgRTC (alOfs a)
  let d := s.reg pgRTC (alOfs a + 4)
  secondsOf (100 * bcd (fld d 24 8) + bcd (fld d 16 8)) (bcd (fld d 8 5)) (bcd (fld d 0 6))
    (bcd (fld t 16 6)) (bcd (fld t 8 7)) (bcd (fld t 0 7))

/-- The first occurrence after a time (R445). -/
def State.alAfter (s : State) (a : Nat) (c : Cal) : Nat :=
  let t := s.reg pgRTC (alOfs a)
  let day := c.seconds - ((c.h * 60 + c.mi) * 60 + c.sec)
  let tod := (bcd (fld t 16 6) * 60 + bcd (fld t 8 7)) * 60 + bcd (fld t 0 7)
  let later := c.seconds < day + tod
  match s.alMode a with
  | 2 => if later then day + tod else day + 86400 + tod
  | 3 =>
    let k := (s.regFld pgRTC (alOfs a + 8) 4 3 + 7 - c.wd) % 7
    if k = 0 && !later then day + 7 * 86400 + tod else day + k * 86400 + tod
  | _ =>
    let dd := bcd (s.regFld pgRTC (alOfs a + 4) 0 6)
    let at_ := fun y m => secondsOf y m (min dd (monthLen y m)) 0 0 0 + tod
    if c.seconds < at_ c.y c.mo then at_ c.y c.mo
    else if c.mo < 12 then at_ c.y (c.mo + 1) else at_ (c.y + 1) 1

/-- A fire of an alarm (R445, R447): unpowered, the interrupt and the record wait for the release. -/
def State.alFire (s : State) (a : Nat) (skipped : Bool) : State :=
  let w := setBit (s.reg pgRTC (alOfs a + 12)) 0 true
  let w := if skipped then setBit w 1 true else w
  let s := (s.setReg pgRTC (alOfs a + 12) (if s.alMode a = 1 then setBit w 2 true else w)).bump pgRTC 0x208
  let s := if s.alMode a = 1 then s.setAlNext a none else s.setAlNext a (some (s.alAfter a s.clock))
  if s.power.powered then s.event pgRTC a [a, s.clock.seconds]
  else { s with rtc := { s.rtc with owed := s.rtc.owed ++ [a] } }

/-- The interrupts and records of alarms that fired unpowered (R447). -/
def State.alOwed (s : State) : List Nat → State
  | [] => { s with rtc := { s.rtc with owed := [] } }
  | a :: t => (s.event pgRTC a [a, s.clock.seconds]).alOwed t

/-- An alarm at a roll-over. -/
def State.alCheck (s : State) (a : Nat) : State :=
  match s.alNext a with
  | some n => if n ≤ s.clock.seconds then s.alFire a false else s
  | none => s

/-- An alarm at a commit (R446): `before` is the time before it, `fresh` that its registers changed or it was not armed. -/
def State.alCommit (s : State) (a : Nat) (before : Cal) (fresh : Bool) : State :=
  if s.alMode a = 0 || (s.alMode a = 1 && s.alDone a) then s.setAlNext a none
  else
    let due := match fresh, s.alNext a with
      | false, some n => n
      | _, _ => if s.alMode a = 1 then s.alOnce a else s.alAfter a before
    if due ≤ s.clock.seconds then s.alFire a true
    else s.setAlNext a (some (if s.alMode a = 1 then s.alOnce a else s.alAfter a s.clock))

/-! ### Roll-overs and freezes (R439, R442, R443) -/

/-- A roll-over is applied: the time, then the alarms. -/
def State.rollover (s : State) : State :=
  let before := s.clock.seconds
  let s := s.setClock s.clock.tick
  let s := if s.clock.seconds < before then
      { s with rtc := { s.rtc with next := Tbl.mapVals (fun _ => none) (Option.map (· - calendarSeconds)) s.rtc.next } }
    else s
  (s.alCheck 0).alCheck 1
def State.rollovers (s : State) : Nat → State
  | 0 => s
  | n + 1 => s.rollover.rollovers n

/-- A freeze ends: held roll-overs apply at once. -/
def State.endFreeze (s : State) : State :=
  let held := s.regFld pgRTC 0x064 1 3
  let s := { s with rtc := { s.rtc with frozen := none } }
  (s.setReg pgRTC 0x064 (setFld (s.reg pgRTC 0x064) 0 4 0)).rollovers held

/-- SECOND_ROLLOVER (R439, R443). One in the ft of a commit of the time is discarded (R441). -/
def secondRollover (s : State) : State :=
  if s.rtc.lost || s.rtc.setAt = some s.tick then s
  else if s.rtc.frozen.isNone then s.rollover
  else
    let held := s.regFld pgRTC 0x064 1 3
    if held < 7 then s.setRegFld pgRTC 0x064 1 3 (held + 1)
    else
      let s := (s.endFreeze.rollover.setRegBit pgRTC 0x068 0 true).bump pgRTC 0x204
      s.setPend pgRTC 2
def execSecondRollover (s : State) : Out := event (fun s => secondRollover s) s

/-- A freeze starts with the live time; SUBSEC counts a crystal of its own, so its live count is a free value but in the ft of a commit,
which restarts it at 0 (R441). -/
def State.startFreeze (s : State) : State :=
  let sub := if s.rtc.setAt = some s.tick then 0 else s.freeWord.toNat % 32768
  let live := word sub :: (List.range 8).map fun k => s.reg pgRTC (0x044 + 4 * k)
  let s := s.draw
  ({ s with rtc := { s.rtc with frozen := some live } }).setRegBit pgRTC 0x064 0 true

/-- A read of SUBSEC to CENT (R442). -/
def timeReadEffect (ofs : Nat) (s : State) : State × Nat × Word :=
  let s := if s.rtc.frozen.isSome then s else s.startFreeze
  let w := ((s.rtc.frozen.getD [])[(ofs - 0x040) / 4]?).getD 0
  (if ofs / 4 * 4 = 0x060 then s.endFreeze else s, stOk, w)

/-- TIME_READ and CENT_READ (R442, R443). -/
def execTimeRead (p : Path) (ofs : Nat) (s : State) : Out := 
  access (fun s => s.parkAt p pgRTC ofs false 0 fun s => s.portRead p pgRTC false (timeReadEffect ofs)) s
def execCentRead (p : Path) (s : State) : Out := 
  access (fun s => s.parkAt p pgRTC 0x060 false 0 fun s => s.portRead p pgRTC false (timeReadEffect 0x060)) s

/-! ### Writes and commits (R440, R441, R444) -/

def timeOfs : List Nat := [0x044, 0x048, 0x04C, 0x050, 0x054, 0x058, 0x05C, 0x060]

/-- The first write of a time register after a commit or discard loads the time shadows. -/
def State.timeTouch (s : State) : State :=
  if s.rtc.touched then s
  else { s.reloadShadows pgRTC timeOfs with rtc := { s.rtc with touched := true } }

def rtcRow (ofs : Nat) : Row := (RegMap.rowOf pgRTC ofs).getD { ofs := ofs, acc := .ro }

/-- A write of a time register through an alias (R440). -/
def timeWriteEffect (ofs : Nat) (al : Alias) (data : Word) (s : State) : State × Nat :=
  (s.timeTouch.writeRow pgRTC ofs (rkey pgRTC ofs) (rtcRow ofs) al data, stOk)
def execTimeRegisterWrite (p : Path) (ofs : Nat) (data : Word) (s : State) : Out :=
  access (fun s => s.parkAt p pgRTC (ofs / 4 * 4) true data fun s =>
    s.port p pgRTC false (timeWriteEffect (ofs / 4 * 4) .plain data)) s

/-- A write of ALa_CTL (R445): the shadow, and DONE clears. -/
def alarmCtlEffect (a : Nat) (al : Alias) (data : Word) (s : State) : State × Nat :=
  let s := s.writeRow pgRTC (alOfs a + 8) (rkey pgRTC (alOfs a + 8)) (rtcRow (alOfs a + 8)) al data
  (s.setRegBit pgRTC (alOfs a + 12) 2 false, stOk)
def execAlarmCtlWrite (p : Path) (a : Nat) (data : Word) (s : State) : Out :=
  access (fun s => s.parkAt p pgRTC (alOfs a + 8) true data fun s => s.port p pgRTC false (alarmCtlEffect a .plain data)) s

/-- DAY does not exceed the month, in the time shadows or in the date of an alarm that is to be ONCE (R440). -/
def State.rtcDateOk (s : State) : Bool :=
  let sh := s.getShadow pgRTC
  let f := fun o => bcd (sh o).toNat
  (!s.rtc.touched || f 0x054 ≤ monthLen (100 * f 0x060 + f 0x05C) (f 0x058)) &&
  [0, 1].all fun a =>
    let d := sh (alOfs a + 4)
    fld (sh (alOfs a + 8)) 0 3 ≠ 1 ||
      bcd (fld d 0 6) ≤ monthLen (100 * bcd (fld d 24 8) + bcd (fld d 16 8)) (bcd (fld d 8 5))

/-- Captured words take effect. -/
def State.putAll (s : State) : List (Nat × Word) → State
  | [] => s
  | (o, w) :: t => (s.setReg pgRTC o w).putAll t

/-- The alarm words take effect and the alarms are evaluated against the time now in force. -/
def State.alTake (s : State) (ws : List (Nat × Word)) (before : Cal) : State :=
  let word3 := fun (s : State) a => [s.reg pgRTC (alOfs a), s.reg pgRTC (alOfs a + 4), s.reg pgRTC (alOfs a + 8)]
  let t := s.putAll (ws.filter fun e => 0x140 ≤ e.1)
  let fresh := fun a => decide (word3 s a ≠ word3 t a)
  let t := t.alCommit 0 before (fresh 0)
  t.alCommit 1 before (fresh 1)

/-- SHADOW_COMMIT of RTC (R440, R441, R444): the time waits for the backup domain, alarms alone apply at once. -/
def rtcCommit (s : State) : State × Nat :=
  if !s.rtcDateOk then s.commitErr pgRTC
  else
    let ws := (shadowOfs pgRTC).map fun o => s.getShadow pgRTC o
    if s.rtc.touched then ({ s with rtc := { s.rtc with commit := some ws, touched := false } }, stOk)
    else (s.alTake ((shadowOfs pgRTC).zip ws) s.clock, stOk)

/-- RTC_COMMIT_INSTANT (R441). -/
def rtcCommitInstant (s : State) : State :=
  match s.rtc.commit with
  | none => s
  | some l =>
    let before := s.clock
    let old := s.timeOfDay8
    let ws := (shadowOfs pgRTC).zip l
    let s := s.putAll (ws.filter fun e => e.1 < 0x140)
    let s := { s with rtc := { s.rtc with commit := none, frozen := none, setAt := some s.tick } }
    let s := s.setReg pgRTC 0x064 (setBit (setFld (s.reg pgRTC 0x064) 0 4 0) 4 false)
    let s := (s.alTake ws before).bump pgRTC 0x200
    (s.crnMark markCommit).record 0x3020 [old, s.timeOfDay8]
def execRtcCommitInstant (s : State) : Out := event (fun s => rtcCommitInstant s) s

/-! ### Supply and compensation (R448 to R450) -/

/-- BACKUP_SUPPLY_LOST (R449): the clock stops, and is INVALID at the next power-on. -/
def execBackupSupplyLost (s : State) : Out :=
  event (fun s => { s with rtc := { s.rtc with lost := true, frozen := none, commit := none, next := [] } }) s

/-- Power-on after a lost supply (R449): reset values but for TC_CTL and the compensation curve, INVALID, IRQ_PEND bit 4. -/
def State.rtcPowerOn (s : State) : State :=
  if s.rtc.lost then
    let s := { s with regs := Tbl.clear (fun k => ikey pgRTC 0x040 ≤ k && k < ikey pgRTC 0x210 && k ≠ ikey pgRTC 0x074 &&
                                !(ikey pgRTC 0x080 ≤ k && k < ikey pgRTC 0x140)) s.regs,
                      rtc := {} }
    (s.setRegBit pgRTC 0x064 4 true).setPend pgRTC 4
  else s.endFreeze

/-- The module loses its power: a freeze of the page ends, and VBAK is measured no more (R443, R448). -/
def State.rtcPowerOff (s : State) : State :=
  (if s.rtc.frozen.isSome then s.endFreeze else s).setRegBit pgRTC 0x064 5 false

/-- VBAK_LOW (R448): a measurement of VBAK. -/
def vbakLow (mV : Nat) (s : State) : State :=
  if !s.power.powered then s
  else
    let s := s.setReg pgRTC 0x070 (word (min mV 4095))
    let was := s.regBit pgRTC 0x064 5
    let now := decide (mV < 2200)
    let s := s.setRegBit pgRTC 0x064 5 now
    if now && !was then s.setPend pgRTC 3 else s
def execVbakLow (mV : Nat) (s : State) : Out := event (fun s => vbakLow mV s) s

/-- RTC.STAT as read: the charger sources current in NORMAL while VBAK is below CHG_V (R448). -/
def State.rtcStat (s : State) : Word :=
  let on := s.power.powered && s.pwrState = pwNormal && s.regFld pgRTC 0x06C 0 5 ≠ 0 &&
    (s.reg pgRTC 0x070).toNat < 2800 + 10 * s.regFld pgRTC 0x06C 8 6
  setBit (s.reg pgRTC 0x064) 6 on

/-- The compensation value at a temperature in 0.1 °C (R450), to the nearest 0.01 ppm. -/
def State.compensation (s : State) (temp : Int) : Int :=
  let t := (clampInt (-400) 880 temp + 400).toNat
  let c := fun n => sext 16 (s.reg pgRTC (0x080 + 4 * n)).toNat
  let n := min (t / 40) 31
  let f := t - 40 * n
  roundDiv (c n * (40 - f) + c (n + 1) * f) 40 + sext 16 (s.regFld pgRTC 0x074 16 16)

/-- TEMP_COMPENSATION (R450): TEMP, and with EN the value in force. -/
def tempCompensation (temp : Int) (s : State) : State :=
  if !s.power.powered then s
  else
    let e := if s.regBit pgRTC 0x074 0 then s.compensation temp else 0
    s.setReg pgRTC 0x078 (word (wrapInt 16 temp + 65536 * wrapInt 16 e))
def execTempCompensation (temp : Int) (s : State) : Out := event (fun s => tempCompensation temp s) s

end Sys2Proof.Machine
end

