-- ==== Sys2Proof/Machine/Power.lean ====
section
/-! DEFINITION. Power (R72 to R89): load shedding and its restoration, mains good, the store and its thresholds. The decision
itself and the orderly save stand in Save.lean. -/

namespace Sys2Proof.Machine

set_option cleanup.letToHave false

open Sys2Proof.Config

/-! ### Shedding (R82) -/

/-- A bit of SHED_STAT changes; IRQ_PEND bit 2 sets. -/
def State.shedBit (s : State) (b : Nat) (on : Bool) : State :=
  if s.regBit pgPWR 0x04C b = on then s else (s.settle.setRegBit pgPWR 0x04C b on).setPend pgPWR 2

/-- Channels are shed or restored. -/
def State.shedBus (s : State) (on : Bool) : List Nat → State
  | [] => s
  | ch :: t => (s.setBus ch { s.busCh ch with shed := on }).shedBus on t

/-- Sense links are shed: OFF until mains return. -/
def State.shedLinks (s : State) : List Nat → State
  | [] => s
  | k :: t => ((s.setRegBit pgSNS (lnk k 0x084) 10 true).linkOff k).shedLinks t
def State.unshedLinks (s : State) : List Nat → State
  | [] => s
  | k :: t => ((s.setRegBit pgSNS (lnk k 0x084) 10 false).linkStart k).unshedLinks t

/-- The sense links of the variant. -/
def State.allLinks (s : State) : List Nat := if s.small then [] else [0, 1, 2]

/-- A stage of loads takes its unpowered state: 1 DALI supplies, 2 sense heads, 3 T1S and RS-485 ports. -/
def State.shed (s : State) (stage : Nat) : State :=
  match stage with
  | 1 => (s.shedBit 0 true).shedBus true [6, 7, 8, 9]
  | 2 => (s.shedBit 1 true).shedLinks s.allLinks
  | _ => (((s.shedBit 2 true).shedBus true [10, 11, 12, 13]).setRegBit (pgT1S 0) 0x04C 2 true).setRegBit (pgT1S 1) 0x04C 2 true

/-- Every stage not yet shed. -/
def State.shedAll (s : State) : State := ((s.shed 1).shed 2).shed 3

/-- Every shed stage is restored at once (Table PWR-4). -/
def State.unshed (s : State) : State :=
  let s := s.shedBus false [6, 7, 8, 9, 10, 11, 12, 13]
  let s := (s.setRegBit (pgT1S 0) 0x04C 2 false).setRegBit (pgT1S 1) 0x04C 2 false
  (((s.unshedLinks s.allLinks).shedBit 0 false).shedBit 1 false).shedBit 2 false

/-- The delay of a stage in ft (Table PWR-8). -/
def State.shedDelay (s : State) (stage : Nat) : Nat := s.regFld pgPWR 0x048 (8 * stage) 8 * 5 * ftPerMs

/-- The tick of a stage's delay. -/
def State.shedTick (s : State) (stage : Nat) : Nat := s.power.decidedAt + s.shedDelay stage

/-- A stage that SHED_EN lets be shed by its delay and that is not shed is shed. Mains good in the ft of the delay wins (R87). -/
def State.shedOne (s : State) (stage : Nat) : State :=
  if s.pwrState = pwRide && s.regBit pgPWR 0x048 0 && !s.regBit pgPWR 0x04C (stage - 1) then
    (s.expire (s.shedTick stage)).shed stage
  else s

/-- SHED_STAGE (R82): in RIDE, with SHED_EN at 1, at its delay from the decision. The stages go in their order, so those before it
are shed first, each at its own delay. -/
def shedStage (stage : Nat) (s : State) : State :=
  match stage with
  | 1 => s.shedOne 1
  | 2 => (s.shedOne 1).shedOne 2
  | _ => ((s.shedOne 1).shedOne 2).shedOne 3
def execShedStage (stage : Nat) (s : State) : Out := event (fun s => shedStage stage s) s

/-- The sensor supply 24V_SNS is off: SNS24_OK and SNS24_LIMIT clear (Table DIO-2). -/
def State.snsOff (s : State) : State := dioSupplyChange (s.regBit pgDIO 0x074 0) false false s

/-! ### Mains good (R79, R87) -/

/-- The charger runs below V_FULL, and not in OVERTEMP (Tables PWR-3, PWR-6). -/
def State.startCharge (s : State) : State :=
  let s := s.settle
  if decide (s.storeNow < s.storeOf 5400) && !s.regBit pgPWR 0x05C 8 then s.setRegBit pgPWR 0x050 18 true else s

/-- START ends when mains is good and the store is at or above V_START (R86). -/
def State.leaveStart (s : State) : State :=
  if s.pwrState = pwStart && s.power.mainsGood && decide (s.storeOf 3600 ≤ s.storeNow) then s.enterPwr pwNormal else s

/-- Mains is declared good (Table PWR-4). The seconds of a trial go on where the decision left them (R494). In SAVE the restart waits for its end; in DOWN it is MAINS_GOOD_IN_DOWN. -/
def State.declareGood (s : State) : State :=
  let s := s.settle
  let s := ({ s with power := { s.power with mainsGood := true, pf := false } }).setPend pgPWR 1
  if s.pwrState = pwRide then
    let s := s.setReg pgPWR 0x078 (word (min ((s.tick - s.power.decidedAt) / ftPerUs) 0xFFFFFFFE))
    let s := { s with upd := { s.upd with secondAt := s.upd.secondAt + (s.tick - s.power.decidedAt) } }
    (s.unshed.enterPwr pwNormal).startCharge
  else if s.pwrState = pwStart then s.unshed.startCharge.leaveStart
  else s

/-- A half-cycle value of the supply, in 0.1 V, is counted (R79). It is compared as shown, rounded to 0.1 V, and values before a
decision do not count towards mains good. No command reports the 12 V rail: after a decision by it, it counts as back at 11.4 V
from the first value at or above the threshold of mains good (log entry 53). -/
def State.countValue (s : State) (rms : Nat) : State :=
  let s := s.setReg pgPWR 0x058 (word (min rms 65535))
  let pf := 10 * s.regFld pgPWR 0x044 0 8
  let th := pf + 10 * s.regFld pgPWR 0x044 16 8
  { s with power := { s.power with good := if th ≤ rms then min (s.power.good + 1) 15 else 0,
                                   low := if rms < pf then min (s.power.low + 1) 15 else 0,
                                   rail := s.power.rail || decide (th ≤ rms) } }

/-- The values in a row below PF_VOLTS make the decision; those at or above the threshold, with the 12 V rail, make mains good (R79). -/
def State.railsLow (s : State) : Bool := !s.power.pf && s.regFld pgPWR 0x044 8 4 ≤ s.power.low
def State.railsGood (s : State) : Bool := !s.power.mainsGood && s.power.rail && s.regFld pgPWR 0x044 24 4 ≤ s.power.good

/-! ### The store (R76, R77) -/

/-- V_START_REACHED (R86): the charged store ends START when mains is good. -/
def vStartReached (s : State) : State :=
  if s.pwrState = pwStart then
    let s := (s.until (s.storeTick 3600)).settle
    (if s.storeNow < s.storeOf 3600 then s.storeVolt 3600 else s).leaveStart
  else s
def execVStartReached (s : State) : Out := event (fun s => vStartReached s) s

/-- V_READY_CROSSING (R76): the store is measured near V_READY. -/
def vReadyCrossing (mV : Nat) (s : State) : State := s.storeVolt mV
def execVReadyCrossing (mV : Nat) (s : State) : Out := event (fun s => vReadyCrossing mV s) s

/-- The capacitance is measured (R77). The store keeps its voltage. -/
def State.measured (s : State) (mF : Nat) : State :=
  let v := s.storeVolts
  let s := s.setReg pgPWR 0x054 (word (min mF 65535))
  let s := ({ s with power := { s.power with capDone := true, capAt := s.tick } }).storeVolt v
  let was := s.regBit pgPWR 0x050 17
  let now := decide (mF < 1350)
  let s := s.setRegBit pgPWR 0x050 17 now
  if now && !was then s.setPend pgPWR 3 else s

/-- HOLDUP_CAP_MEASURE (R77): at every start when the charging store has come to 5.30 V, and in NORMAL every 24 h. -/
def holdupCapMeasure (mF : Nat) (s : State) : State :=
  if !s.power.powered || s.power.pf || s.saving then s
  else if !s.power.capDone then
    let s := s.until (s.storeTick 5300)
    if s.storeOf 5300 ≤ s.storeNow then s.settle.measured mF else s
  else if s.pwrState = pwNormal then (s.until (s.power.capAt + 86400 * ftPerS)).settle.measured mF
  else s
def execHoldupCapMeasure (mF : Nat) (s : State) : Out := event (fun s => holdupCapMeasure mF s) s

/-- FRONT_END_OVERTEMP (Table PWR-6): the temperature in 0.1 °C. -/
def frontEndOvertemp (temp : Int) (s : State) : State :=
  let s := s.setReg pgPWR 0x07C (word (wrapInt 16 temp))
  let was := s.regBit pgPWR 0x05C 8
  if 1050 < temp && !was then
    (((s.settle.setRegBit pgPWR 0x05C 8 true).setRegBit pgPWR 0x050 18 false).setPend pgPWR 4)
  else if temp < 950 && was then
    let s := s.setRegBit pgPWR 0x05C 8 false
    if s.power.powered && !s.power.pf then s.startCharge else s
  else s
def execFrontEndOvertemp (temp : Int) (s : State) : Out := event (fun s => frontEndOvertemp temp s) s

end Sys2Proof.Machine
end

