-- ==== Sys2Proof/Machine/Meter.lean ====
section
/-! DEFINITION. The meter engine (R314 to R343): corrected samples, elements, one-turn windows, quanta, totals and wraps, gaps
and flushes, the balance ledger, and the pulse outputs. -/

namespace Sys2Proof.Machine

set_option cleanup.letToHave false

open Sys2Proof.Config

/-! ### Exact values -/

/-- 2^n. -/
abbrev pw (n : Nat) : Nat := 2 ^ n

/-- A fraction to binary32, to nearest even (R322). -/
def fracF32 (a : Frac) : Word :=
  let k := 30 + Nat.log2 a.den
  let m := a.num.natAbs * pw k
  word (fround f32 (decide (a.num < 0)) (2 * (m / a.den) + b2n (decide (m % a.den ≠ 0))) (-(k : Int) - 1))

/-- The integer square root of any number. -/
def natSqrt (n : Nat) : Nat := isqrtGo (Nat.log2 n / 2 + 1) n 0

/-- The square root of a fraction that is not negative, to binary32. -/
def fracSqrtF32 (a : Frac) : Word :=
  let k := 32 + Nat.log2 a.den
  let m := a.num.toNat * pw (2 * k)
  let t := m / a.den
  let r := natSqrt t
  word (fround f32 false (2 * r + b2n (decide (r * r ≠ t ∨ m % a.den ≠ 0))) (-(k : Int) - 1))

/-- The square root of a fraction that is not negative, to the nearest integer. -/
def fracSqrtRound (a : Frac) : Nat :=
  let r := natSqrt (a.num.toNat / a.den)
  if (2 * r + 1) * (2 * r + 1) * a.den ≤ 4 * a.num.toNat then r + 1 else r

/-- A binary32 word as a fraction; 0 for an infinity or a NaN, which CH_SCALE never holds. -/
def fracOfF32 (w : Word) : Frac :=
  match fdec f32 w.toNat with
  | .fin neg m e => if 0 ≤ e then Frac.mk' (fsigned neg (m * pw e.toNat)) 1 else Frac.mk' (fsigned neg m) (pw (-e).toNat)
  | _ => ⟨0, 1⟩

/-- A free value as a fraction. -/
def State.freeFrac (s : State) : Frac := Frac.mk' (sext 64 s.freeWord.toNat) (pw 32)

/-! ### Channels (Table MTR-1) -/

def State.chan (s : State) (c : Nat) : Chan := Tbl.get (fun _ => {}) s.meter.chan c
def State.setChan (s : State) (c : Nat) (x : Chan) : State :=
  ({ s with meter := { s.meter with chan := Tbl.set (fun _ => {}) s.meter.chan c x } }).mark (some (0x04018000 + c))
abbrev State.chWord (s : State) (c o : Nat) : Word := s.ind pgMTR (256 * c + o)
def State.setChWord (s : State) (c o : Nat) (w : Word) : State := s.setInd pgMTR (256 * c + o) w
abbrev State.chEn (s : State) (c : Nat) : Bool := bit (s.chWord c 0x00) 31
abbrev State.chK (s : State) (c : Nat) : Nat := fld (s.chWord c 0x00) 20 4
abbrev State.chLocked (s : State) (c : Nat) : Bool := bit (s.chWord c 0x18) 2
abbrev isCurrent (c : Nat) : Bool := c < 48
abbrev isRemote (c : Nat) : Bool := 12 ≤ c && c < 48

/-- Channels 12 to 47 are absent on the MF2048-A (R314). -/
def State.chExists (s : State) (c : Nat) : Bool := c < 52 && !(s.small && isRemote c)

/-- The engine accumulates: not on a standby, and not after the flush of a save (R330, R539, R545). -/
abbrev State.accumulates (s : State) : Bool := !s.isStandby && !s.saving && !s.sys.faultSaved

/-- The status of an access to an indirect address that is not defined (R139): OK, and DENIED to a tenant (R142). -/
abbrev State.undefAt (s : State) (p : Path) : Nat := if s.ctxOf p = 0 then stOk else stDenied

/-- Samples are processed after the first LOCK, also in a save, whose supply values can still declare mains good (R87), and not in
HALTED (R315, R539, R541). -/
def State.meterRuns (s : State) : Bool :=
  s.ridge.locked && s.power.powered && s.sys.released && s.pwrState ≠ pwDown && s.sysState ≠ ssHalted

/-- A correction word or CH_DEF as sample processing takes it: a write of its ft comes too late (R129, R348). -/
abbrev State.chSampled (s : State) (c o : Nat) : Word := s.sampledKey (ikey pgMTR (256 * c + o))

/-! ### Corrected values (R316, R332) -/

/-- The code of channel c at sample j: of the local converters, or of the newest good set of a link that is not later. -/
def State.codeAt (s : State) (c : Nat) (j : Int) : Option Int :=
  if isRemote c then
    let x := s.link ((c - 12) / 12)
    match x.sets.find? fun e => (e.1 : Int) ≤ j with
    | some e => e.2[(c - 12) % 12]?
    | none => x.set[(c - 12) % 12]?
  else
    match s.meter.pipe.find? fun e => (e.1 : Int) = j with
    | some e => e.2.2[if c < 12 then c else c - 36]?
    | none => none

/-- The delay of a channel in 1/1024 sample, with the correction of its link (R316, R332). -/
def State.chDelay (s : State) (c delta : Nat) : Int :=
  let d := sext 12 (s.chSampled c 0x0C).toNat
  let l : Int := if isRemote c then
      -(Frac.round (Frac.mk' (1024 * ((s.reg pgSNS (lnk ((c - 12) / 12) 0x088)).toNat : Int)) (max delta 1)))
    else 0
  clampInt (-2048) 2047 (d + l)

/-- Four-point Lagrange interpolation of a stream at n − d / 1024; none when a sample that it needs was never taken. -/
def lagrange (x : Int → Option Int) (n d : Int) : Option Frac :=
  let b := n + (-d).fdiv 1024
  let f := (-d).fmod 1024
  if f = 0 then (x b).map fun v => ⟨v, 1⟩
  else
    match x (b - 1), x b, x (b + 1), x (b + 2) with
    | some p, some q, some r, some t =>
      some (Frac.mk' (-(f * (f - 1024) * (f - 2048)) * p + 3 * (f + 1024) * (f - 1024) * (f - 2048) * q
        - 3 * (f + 1024) * f * (f - 2048) * r + (f + 1024) * f * (f - 1024) * t) (6 * pw 30))
    | _, _, _, _ => none

/-- A code less the channel's offset. -/
def State.offsetCode (s : State) (c : Nat) (j : Int) : Option Int :=
  (s.codeAt c j).map fun x => x - sext 24 (s.chSampled c 0x10).toNat

/-- The ft from anchor j − 1 to anchor j; `d` where one of them is not held. -/
def State.spanOf (s : State) (j d : Nat) : Nat :=
  match (s.meter.pipe.find? fun e => e.1 = j), (s.meter.pipe.find? fun e => e.1 + 1 = j) with
  | some a, some b => a.2.1 - b.2.1
  | _, _ => d

/-- The integrator of a Rogowski channel runs over the samples of a list, newest last; before its first output that output is free. -/
def State.integrate (s : State) (c delta : Nat) : List Nat → State
  | [] => s
  | j :: t =>
    let x := s.chan c
    (match s.offsetCode c j with
     | none => s
     | some v =>
       if x.integ.any fun (e : Nat × Int) => j ≤ e.1 then s
       else match x.integ.find? fun (e : Nat × Int) => e.1 + 1 = j with
         | some e => s.setChan c { x with integ := (j, integrator (s.sampledFld pgMTR 0x040 0 1 = 1) (s.spanOf j delta) e.2 v) :: x.integ.take 9 }
         | none => s.draw.setChan c { x with integ := [(j, sext 24 s.freeWord.toNat)] }).integrate c delta t

/-- The x stream of a channel (R316): codes less the offset, through the integrator where SENSOR is 1. -/
def State.xStream (s : State) (c : Nat) (rogowski : Bool) (j : Int) : Option Int :=
  if rogowski then ((s.chan c).integ.find? fun e => (e.1 : Int) = j).map fun e => e.2 else s.offsetCode c j

/-- The value of channel c at sample n in A or V (R316). A sample before the first has none: such a value is free. -/
def State.chValue (s : State) (c n delta : Nat) : State × Frac :=
  let rogowski := isCurrent c && bit (s.chSampled c 0x00) 16
  let s := if rogowski then s.integrate c delta ((List.range 8).map fun i => n + i - 3) else s
  let x := lagrange (s.xStream c rogowski) n (s.chDelay c delta)
  let fs : Frac := if isCurrent c then ⟨5, 4⟩ else ⟨700, 1⟩
  match x with
  | none => (s.draw, s.freeFrac)
  | some x =>
    (s, Frac.scale (Frac.mul (Frac.mul x fs) (fracOfF32 (s.chSampled c 0x04))) (fld (s.chSampled c 0x08) 0 24) (pw 45))

/-- The two voltage channels of a VSEL (Table MTR-5). -/
def vselPair (v : Nat) : Nat × Nat :=
  match v with | 0 => (48, 51) | 1 => (49, 51) | 2 => (50, 51) | 3 => (48, 49) | 4 => (49, 50) | _ => (50, 48)

/-- The values of a VSEL, newest first. -/
def State.vsel (s : State) (v : Nat) : List Frac :=
  List.zipWith Frac.sub (s.chan (vselPair v).1).vals (s.chan (vselPair v).2).vals

/-- The mean square over one turn; free while fewer than 512 samples are there (R320 states none). -/
def State.meanSq (s : State) (l : List Frac) : State × Frac :=
  if l.length < 512 then (s.draw, Frac.abs s.freeFrac)
  else (s, Frac.scale (Frac.sum (l.map fun x => Frac.mul x x)) 1 512)

/-! ### Quanta (R321, R323) -/

def State.quanta (s : State) (c q : Nat) : Nat := Tbl.get (fun _ => 0) s.meter.now (8 * c + q)
abbrev State.residue (s : State) (c q : Nat) : Nat := Tbl.get (fun _ => 0) s.meter.acc (8 * c + q)

/-- The total and the wrap count of a quantity. -/
def State.chTotal (s : State) (c q : Nat) : Nat := (s.chWord c (0x44 + 8 * q)).toNat % 65536 * pw 32 + (s.chWord c (0x40 + 8 * q)).toNat
def State.chWraps (s : State) (c q : Nat) : Nat := fld (s.chWord c (0x44 + 8 * q)) 16 8

/-- A contribution in 2^-49 units enters an accumulator; whole quanta enter the total, which may wrap (R323, R348). -/
def State.accumulate (s : State) (c q units : Nat) : State :=
  let all := s.residue c q + units
  let k := pw (49 + s.chK c)
  let nq := all / k
  let total := s.chTotal c q + nq
  let wraps := total / pw 48
  let m := s.meter
  let s := ({ s with meter := { m with
      acc := Tbl.set (fun _ => 0) m.acc (8 * c + q) (all % k),
      now := Tbl.set (fun _ => 0) m.now (8 * c + q) (s.quanta c q + nq),
      gain := Tbl.set (fun _ => 0) m.gain (8 * c + q) (Tbl.get (fun _ => 0) m.gain (8 * c + q) + nq) } }).mark
    (some (0x04010000 + 8 * c + q))
  let s := s.setChWord c (0x40 + 8 * q) (word total)
  let s := s.setChWord c (0x44 + 8 * q) (word (total / pw 32 % 65536 + 65536 * ((s.chWraps c q + wraps) % 256)))
  if wraps = 0 then s else (s.setChWord c 0x1C (setBit (s.chWord c 0x1C) q true)).setPend pgMTR 2

/-- One sample's active and reactive energy in 2^-49 units, each whole to one side (Table MTR-2). -/
def State.assign (s : State) (c : Nat) (e r : Int) : State :=
  let s := s.accumulate c (if 0 ≤ e then 0 else 1) e.natAbs
  s.accumulate c (if 0 ≤ r then (if 0 ≤ e then 2 else 3) else (if 0 ≤ e then 5 else 4)) r.natAbs

/-- An energy rate v · i · Δ in 2^-40 µWh, rounded once (R320: 2.5 ns per ft, 1,440,000 of V A ft to one µWh). -/
def element (vi : Frac) (delta : Nat) : Int := Frac.round (Frac.mk' (vi.num * (delta * pw 40 : Nat)) (vi.den * 1440000))

/-- What a window has not released (R328): an element of age k has released (k + 1) / 512. -/
def unreleased : Nat → List Int → Int
  | _, [] => 0
  | k, e :: t => e * (511 - k) + unreleased (k + 1) t

/-- A current channel's window is flushed (R328). -/
def State.flush (s : State) (c : Nat) : State :=
  let x := s.chan c
  let s := s.bump pgMTR 0x08C
  let s := if s.accumulates then s.assign c (unreleased 0 x.e) (unreleased 0 x.r) else s
  s.setChan c { x with vals := [], e := [], r := [] }

/-! ### One sample of one channel -/

/-- A clipped code (R318), of any channel that delivers codes; CLIPPED clears as the next turn begins. -/
def State.noteClip (s : State) (c n : Nat) (live : Bool := true) : State :=
  let s := if n % 512 = 0 then s.setChWord c 0x18 (setBit (s.chWord c 0x18) 3 false) else s
  match (if live then s.codeAt c n else none) with
  | some x =>
    if x.natAbs = 8388607 then
      (((s.setChWord c 0x80 (s.chWord c 0x80 + 1)).bump pgMTR 0x080).setChWord c 0x18
        (setBit (s.chWord c 0x18) 3 true)).setPend pgMTR 3
    else s
  | none => s

/-- CH_RMS at a half-cycle anchor (R322): the window's RMS, its H and its cycle. -/
def State.showRms (s : State) (c n : Nat) (ms : Frac) : State :=
  if n % 256 = 0 then
    let s := s.setChWord c 0x20 (fracSqrtF32 ms)
    let s := s.setChWord c 0x18 (setBit (s.chWord c 0x18) 4 (decide (n % 512 = 256)))
    s.setChWord c 0x30 (s.reg pgPHT 0x050)
  else s

/-- A voltage channel (R320): its value, and V²h when it is enabled. -/
def State.voltSample (s : State) (n delta c : Nat) : State :=
  let s := s.noteClip c n
  let (s, v) := s.chValue c n delta
  let x := s.chan c
  let s := s.setChan c { x with vals := v :: x.vals.take 511 }
  if s.chEn c then
    let s := if s.accumulates then s.accumulate c 7 ((element (Frac.mul v v) delta).toNat * 512) else s
    if n % 256 = 0 then
      let (s, ms) := s.meanSq (s.chan c).vals
      s.showRms c n ms
    else s
  else s

/-- A current channel in RUN (R320 to R322). -/
def State.currentSample (s : State) (n delta c : Nat) : State :=
  let (s, i) := s.chValue c n delta
  let vs := s.vsel (fld (s.chSampled c 0x00) 12 3)
  let v := vs.headD ⟨0, 1⟩
  let (s, vq) := match vs[128]? with | some v => (s, v) | none => (s.draw, s.freeFrac)
  let x := s.chan c
  let x := { x with vals := i :: x.vals.take 511, e := element (Frac.mul v i) delta :: x.e.take 511,
                    r := element (Frac.mul vq i) delta :: x.r.take 511 }
  let s := s.setChan c x
  let (s, mv) := s.meanSq vs
  let (s, mi) := s.meanSq x.vals
  let apparent := fracSqrtRound (Frac.mul (Frac.mul mv mi) (Frac.mk' (delta * delta * pw 80 : Nat) (1440000 * 1440000)))
  let s :=
    if s.accumulates then
      ((s.assign c x.e.sum x.r.sum).accumulate c 6 (apparent * 512)).accumulate c 7
        ((element (Frac.mul i i) delta).toNat * 512)
    else s
  let span := (s.meter.deltas.take x.e.length).sum
  let rate := fun (u : Int) => fracF32 (Frac.mk' (u * 1440000) (max 1 span * pw 40))
  let s := (s.setChWord c 0x24 (rate x.e.sum)).setChWord c 0x28 (rate x.r.sum)
  (s.setChWord c 0x2C (rate (512 * apparent))).showRms c n mi

/-- A channel in GAP: no elements; entry and exit are recorded (R327). -/
def State.gapSample (s : State) (n c : Nat) : State :=
  let x := s.chan c
  let s := if x.gap then s else
    let s := (s.flush c).event pgMTR 0 [c, n]
    s.setChan c { s.chan c with gap := true }
  (s.setChWord c 0x84 (s.chWord c 0x84 + 1)).bump pgMTR 0x088

/-- One current channel; `gaps` says which links gave no sample set. A channel enabled in this ft begins with the next set (R129). -/
def State.chSample (s : State) (n delta : Nat) (gaps : List Bool) (c : Nat) : State :=
  if !s.chExists c then s
  else
    let gap := isRemote c && gaps.getD ((c - 12) / 12) true
    let s := s.noteClip c n (!gap)
    if !(s.chEn c && bit (s.chSampled c 0x00) 31) then s
    else if gap then s.gapSample n c
    else
      let x := s.chan c
      let s := if x.gap then (s.setChan c { x with gap := false, vals := [], e := [], r := [] }).event pgMTR 1 [c, n] else s
      s.currentSample n delta c

/-- Unreleased sums that COPY brought to a standby are released as one flush sample after the takeover (Table MTR-3). -/
def State.releaseCopied (s : State) : List (Nat × (Int × Int)) → State
  | [] => { s with meter := { s.meter with unrel := [] } }
  | (c, (e, r)) :: t => ((s.bump pgMTR 0x08C).assign c e r).releaseCopied t

/-- The links of the variant take sample n (R334): which of them are in a gap. -/
def State.linkSamples (s : State) (n : Nat) : List Nat → State × List Bool
  | [] => (s, [])
  | k :: t =>
    let (s, v) := s.linkSample k n
    let (s, l) := s.linkSamples n t
    (s, v.isNone :: l)

/-! ### The balance ledger (R336 to R339) -/

abbrev grpOfs (g : Nat) : Nat := 0x060 + 16 * g

/-- A group word in force. -/
abbrev State.grpWord (s : State) (g o : Nat) : Word := s.reg pgMLG (grpOfs g + o)

/-- A group as (enabled, parent, children). -/
structure Group where
  en : Bool
  parent : Nat
  kids : List Nat
deriving DecidableEq, Repr

def groupOf (a lo hi : Word) : Group :=
  ⟨bit a 31, fld a 0 6, (List.range 48).filter fun c => if c < 32 then bit lo c else bit hi (c - 32)⟩
def State.groupIn (s : State) (g : Nat) : Group := groupOf (s.grpWord g 0) (s.grpWord g 4) (s.grpWord g 8)
def State.groupShadow (s : State) (g : Nat) : Group :=
  groupOf (s.getShadow pgMLG (grpOfs g)) (s.getShadow pgMLG (grpOfs g + 4)) (s.getShadow pgMLG (grpOfs g + 8))

/-- The groups that a commit has accepted and no closure has yet put in force. -/
def State.groupPending (s : State) (g : Nat) : Group :=
  let w := fun o => Tbl.get (fun _ => 0) s.meter.grp (grpOfs g + o)
  groupOf (w 0) (w 4) (w 8)

/-- The channel is a member of an enabled group (R336). -/
def State.inGroup (s : State) (c : Nat) : Bool :=
  [0, 1, 2].any fun g => let x := s.groupIn g; let y := s.groupPending g
    (x.en && (x.parent = c || x.kids.contains c)) || (y.en && (y.parent = c || y.kids.contains c))

/-- The commit conditions of R336 over the enabled groups. -/
def groupsOk (ok : Nat → Bool) (k : Nat → Nat) (gs : List Group) : Bool :=
  let gs := gs.filter (·.en)
  let parents : List Nat := gs.map (·.parent)
  let kids : List Nat := gs.flatMap (·.kids)
  let nests := fun (a b : Group) => a.kids.contains b.parent
  gs.all (fun g => ok g.parent && g.kids.all fun c => ok c && k c = k g.parent) &&
  decide parents.Nodup && decide kids.Nodup &&
  gs.all (fun a => !nests a a) &&
  gs.all (fun a => gs.all fun b => a = b || !(nests a b && nests b a)) &&
  gs.all (fun a => gs.all fun b => gs.all fun c => a = b || b = c || a = c || !(nests a b && nests b c && nests c a))

/-- A pulse output converts from this group (R342). -/
def State.groupPulsed (s : State) (g : Nat) : Bool :=
  (List.range 8).any fun n =>
    let w := s.reg pgPLS (0x040 + 32 * n)
    s.regBit pgPLS (0x04C + 32 * n) 0 && bit w 8 && fld w 0 6 = g

/-- SHADOW_COMMIT of MLG (R336, R342). -/
def mlgCommit (s : State) : State × Nat :=
  let new := [0, 1, 2].map s.groupShadow
  let ok := fun c => isCurrent c && s.chExists c && s.chEn c && s.chLocked c
  if !groupsOk ok s.chK new then (s.setPend pgMLG 2).commitErr pgMLG
  else if [0, 1, 2].any fun g => s.groupPulsed g && (s.groupIn g).en && !(s.groupShadow g).en then
    ((((s.setPend pgPLS 2).setPend pgMLG 2).commitErr pgMLG).1, stInUse)
  else
    let ws := (shadowOfs pgMLG).map fun o => (o, s.getShadow pgMLG o)
    let grp : Tbl Word := ws.foldl (fun t (e : Nat × Word) => Tbl.put e.1 e.2 (Tbl.drop e.1 t)) []
    let s := { s with meter := { s.meter with grp := grp, grpAt := s.tick } }
    (s.setRegBit pgMLG 0x044 0 true, stOk)

/-- The waiting configuration takes force after a closure, unless its commit lies in the closure ft (R336). -/
def State.grpApply (s : State) : List (Nat × Word) → State
  | [] => s
  | (o, w) :: t => (s.setReg pgMLG o w).grpApply t
def State.grpTake (s : State) : State :=
  if s.regBit pgMLG 0x044 0 && s.meter.grpAt < s.tick then
    let s := s.grpApply s.meter.grp
    ({ s with meter := { s.meter with grp := [] } }).setRegBit pgMLG 0x044 0 false
  else s

abbrev resOfs (g q : Nat) : Nat := 0x100 + 0x100 * g + 0x20 * q

/-- The result words of one group and quantity (Table MLG-3, R338), and the alarm (R339). -/
def State.closeOne (s : State) (g q : Nat) : State :=
  let x := s.groupIn g
  let gain := fun c => Tbl.get (fun _ => 0) s.meter.gain (8 * c + q)
  let p := gain x.parent
  let c := (x.kids.map gain).sum
  let rem : Int := (p : Int) - c
  let o := resOfs g q
  let tot := (s.reg64 pgMLG (o + 24)) + wrapInt 64 rem
  let s := (((s.setReg64 pgMLG o p).setReg64 pgMLG (o + 8) c).setReg64 pgMLG (o + 16) (wrapInt 64 rem)).setReg64 pgMLG
    (o + 24) (tot % pw 64)
  let lim := (s.grpWord g 12).toNat
  if q = 0 && lim ≠ 0 && lim < rem.natAbs then (s.bump pgMLG 0x090).setPend pgMLG 1 else s
def State.closeGroup (s : State) (g : Nat) : List Nat → State
  | [] => s
  | q :: t => (s.closeOne g q).closeGroup g t
def State.closeGroups (s : State) : List Nat → State
  | [] => s
  | g :: t => (if (s.groupIn g).en then s.closeGroup g [0, 1, 2, 3, 4, 5, 6] else s).closeGroups t

/-- The register keys that the MRAM copy holds (R329). -/
def meterKept (k : Nat) : Bool :=
  (ikey pgMTR 0 ≤ k && k < ikey pgMTR 0x3400 && (k % 256 = 0x1C || (0x40 ≤ k % 256 && k % 256 < 0x80))) ||
  (dkey pgMLG 0x100 ≤ k && k < dkey pgMLG 0x400 && 24 ≤ k % 32)

/-- The MRAM copy of the present ft. -/
def State.meterCopy (s : State) : MeterCopy :=
  { words := s.regs.filter (fun e => meterKept e.1), acc := s.meter.acc, seq := s.reg pgMLG 0x048, stamp := s.stamp }

/-- An interval closes (R337, R338): results, INT_SEQ, its stamp, IRQ_PEND bit 0, the checkpoint, a new interval. -/
def State.closeInterval (s : State) (short : Bool) : State :=
  let s := s.closeGroups [0, 1, 2]
  let s := (s.bump pgMLG 0x048).setReg pgMLG 0x04C (s.reg pgPHT 0x050)
  let s := (s.setReg pgMLG 0x050 (word (s.regFld pgPHT 0x054 0 16))).setRegBit pgMLG 0x044 1 (short || s.meter.short)
  let s := s.setPend pgMLG 0
  let s := s.setReg pgMTR 0x050 (s.reg pgMLG 0x048)
  let s := { s with meter := { s.meter with gain := [], short := false, copy := s.meterCopy } }
  s.grpTake

/-- A closure that waits for the quanta of its ft takes place. -/
def State.closeDue (s : State) : State :=
  let t := { s with meter := { s.meter with closing := false } }
  if s.meter.closing && s.accumulates then t.closeInterval false else t

/-- The turn boundary of the ledger (R337), at sample anchor `boundary`: the closure follows the quanta of its ft. A write of INTERVAL in
this ft comes too late for it. -/
def State.ledgerTurn (s : State) (boundary : Nat) : State :=
  let s := s.closeDue
  if s.meterRuns && s.accumulates && (s.reg pgPHT 0x050).toNat % max 1 (s.sampledFld pgMLG 0x040 0 12) = 0 then
    if s.meter.done < boundary then { s with meter := { s.meter with closing := true } }
    else s.closeInterval false
  else s

/-! ### Pulse outputs (R340 to R343) -/

abbrev plsOfs (n o : Nat) : Nat := 0x040 + 32 * n + o
abbrev State.plsOwed (s : State) (n : Nat) : Nat := (s.reg pgPLS (plsOfs n 0x14)).toNat
abbrev State.plsBacklog (s : State) (n : Nat) : Nat := s.reg64 pgPLS (plsOfs n 0x18)
abbrev State.plsEn (s : State) (n : Nat) : Bool := s.regBit pgPLS (plsOfs n 0x0C) 0
def State.pulse (s : State) (n : Nat) : Pulse := Tbl.get (fun _ => {}) s.meter.pulse n
def State.setPulse (s : State) (n : Nat) (x : Pulse) : State :=
  { s with meter := { s.meter with pulse := Tbl.set (fun _ => {}) s.meter.pulse n x } }

/-- DRAINED (R342). -/
def State.plsDrain (s : State) (n : Nat) : State :=
  let was := s.regBit pgPLS (plsOfs n 0x10) 1
  let now := s.plsOwed n = 0 && s.plsBacklog n = 0 && !s.plsEn n
  let s := s.setRegBit pgPLS (plsOfs n 0x10) 1 now
  if now && !was then s.setPend pgPLS 1 else s

/-- The quanta that the source of output n gained since the last conversion. -/
def State.plsGain (s : State) (n : Nat) : Nat :=
  let w := s.sampled pgPLS (plsOfs n 0)
  let q := fld w 16 3
  if bit w 8 then ((s.groupIn (fld w 0 6)).kids.map fun c => s.quanta c q).sum else s.quanta (fld w 0 6) q

/-- Conversion of backlog into owed pulses (R340). A write of the output's registers in this ft comes too late for it (R129), but for a
write that clears EN, which stops conversion (R342). -/
def State.plsConvert (s : State) (n : Nat) : State :=
  if !(s.plsEn n && bit (s.sampled pgPLS (plsOfs n 0x0C)) 0) then s
  else
    let w := max 1 (s.sampledFld pgPLS (plsOfs n 4) 0 24)
    let b := s.plsBacklog n + s.plsGain n
    let k := min (b / w) (0xFFFFFFFF - s.plsOwed n)
    let owed := s.plsOwed n + k
    let s := (s.setReg64 pgPLS (plsOfs n 0x18) ((b - k * w) % pw 48)).setReg pgPLS (plsOfs n 0x14) (word owed)
    let was := s.regBit pgPLS (plsOfs n 0x10) 2
    let held := decide (owed = 0xFFFFFFFF)
    let s := s.setRegBit pgPLS (plsOfs n 0x10) 2 held
    if held && !was then s.setPend pgPLS 0 else s
def State.plsConvertAll (s : State) : List Nat → State
  | [] => s
  | n :: t => (s.plsConvert n).plsConvertAll t

/-- The quanta gained since the last conversion enter the backlogs. -/
def State.convert (s : State) : State :=
  let t := s.plsConvertAll (List.range 8)
  { t with meter := { t.meter with now := [] } }

/-- Outputs emit outside a standby, a module fault, a save and reset (R343). -/
abbrev State.plsDrives (s : State) : Bool := s.working && !s.isStandby

/-- PULSE_EMIT (R341): OWED counts as it stood at the start of the ft. After a release the outputs stay open until the first OUTPUT phase or their block's first scheduled work, the sample
processing that forms the pulses (R70; DEDUCED, log entry 55). -/
def pulseEmit (n : Nat) (s : State) : State :=
  let x := s.pulse n
  if s.plsDrives && (s.started 0 || s.started 1) && s.plsOwed n ≠ 0 && !x.on then
    let s := s.until (x.since + fld x.time 8 8 * ftPerMs)
    if s.sampled pgPLS (plsOfs n 0x14) = 0 then s
    else
      let s := s.setPulse n ⟨true, s.tick, s.sampled pgPLS (plsOfs n 8)⟩
      let s := s.setReg pgPLS (plsOfs n 0x14) (word (s.plsOwed n - 1))
      let w := setBit (setBit (s.reg pgPLS (plsOfs n 0x10)) 0 true) 2 false
      ((s.setReg pgPLS (plsOfs n 0x10) w).bump pgPLS (0x200 + 4 * n)).plsDrain n
  else s
def execPulseEmit (n : Nat) (s : State) : Out := event (fun s => pulseEmit n s) s

/-- PULSE_OFF (R341). -/
def pulseOff (n : Nat) (s : State) : State :=
  let x := s.pulse n
  if x.on then
    let s := s.until (x.since + fld x.time 0 8 * ftPerMs)
    (s.setPulse n { x with on := false, since := s.tick }).setRegBit pgPLS (plsOfs n 0x10) 0 false
  else s
def execPulseOff (n : Nat) (s : State) : Out := event (fun s => pulseOff n s) s

/-- PLS_STATn as read: in a fault, on a standby and under a save the output is open (R343). -/
def State.plsStat (s : State) (n : Nat) : Word :=
  let w := s.reg pgPLS (plsOfs n 0x10)
  if s.plsDrives then w else setBit w 0 false

/-- A refused PLS write (R342). -/
def State.plsRefuse (s : State) (st : Nat) : State × Nat := (s.setPend pgPLS 2, st)

/-- The source of output n is an enabled current channel or group (R342). -/
def State.plsSourceOk (s : State) (w : Word) : Bool :=
  if bit w 8 then fld w 0 6 < 3 && (s.groupIn (fld w 0 6)).en
  else isCurrent (fld w 0 6) && s.chExists (fld w 0 6) && s.chEn (fld w 0 6)

/-- A write of PLS_CTLn with its settled value (R342). -/
def plsCtlEffect (n : Nat) (w : Word) (s : State) : State × Nat :=
  if bit w 0 && !s.plsEn n && !s.plsSourceOk (s.reg pgPLS (plsOfs n 0)) then s.plsRefuse stInvalid
  else ((s.setReg pgPLS (plsOfs n 0x0C) w).plsDrain n, stOk)

/-- A write of PLS_SRCn or PLS_WEIGHTn with its settled value (R314, R342). -/
def plsSrcEffect (n : Nat) (weight : Bool) (w : Word) (s : State) : State × Nat :=
  if !s.regBit pgPLS (plsOfs n 0x10) 1 then s.plsRefuse stInUse
  else if !weight && !bit w 8 && fld w 0 6 < 52 && !s.chExists (fld w 0 6) then s.plsRefuse stInvalid
  else (s.setReg pgPLS (plsOfs n (if weight then 4 else 0)) w, stOk)

/-- The row of a PLS register. -/
def plsRow (ofs : Nat) : Row := (RegMap.rowOf pgPLS ofs).getD { ofs := ofs, acc := .ro }

/-- PLS_CTL_WRITE (R342). -/
def execPlsCtlWrite (p : Path) (n : Nat) (data : Word) (s : State) : Out :=
  access (fun s => s.port p pgPLS false (fun s =>
    plsCtlEffect n (settled pgPLS (plsOfs n 0x0C) (plsRow (plsOfs n 0x0C)) .plain 0 data) s)) s

/-- PLS_SRC_WRITE (R342). -/
def execPlsSrcWrite (p : Path) (n : Nat) (weight : Bool) (data : Word) (s : State) : Out :=
  access (fun s => s.port p pgPLS false (fun s =>
    let o := plsOfs n (if weight then 4 else 0)
    let r := plsSrcEffect n weight (settled pgPLS o (plsRow o) .plain 0 data) s
    (r.1.noteClamp pgPLS o (wasClamped pgPLS o (plsRow o) .plain 0 data && decide (r.2 = stOk)), r.2))) s

/-! ### Channel entries (R324, R326, R348) -/

/-- A refused entry write (R348). -/
def State.chRefuse (s : State) (c st : Nat) : State × Nat :=
  (((s.bump pgMTR 0x090).setReg pgMTR 0x054 (word (st + 256 * c))).setPend pgMTR 4, st)

/-- A pulse output converts from this channel (R342). -/
def State.chPulsed (s : State) (c : Nat) : Bool :=
  (List.range 8).any fun n => let w := s.reg pgPLS (plsOfs n 0); s.plsEn n && !bit w 8 && fld w 0 6 = c

/-- A write of CH_DEF with its settled value. -/
def chDefEffect (c : Nat) (w : Word) (s : State) : State × Nat :=
  let owner := fld w 0 9
  let stops := s.chEn c && !bit w 31
  if ctxLimit s.small ≤ owner || s.ctxState owner = 0 then s.chRefuse c stInvalid
  else if s.chLocked c && fld w 20 4 ≠ s.chK c then s.chRefuse c stInUse
  else if stops && s.chPulsed c then (s.setPend pgPLS 2).chRefuse c stInUse
  else if stops && s.inGroup c then s.chRefuse c stInUse
  else
    let s := if stops && isCurrent c then s.flush c else s
    let s := if stops then s.setChan c { s.chan c with gap := false } else s
    let s := s.setChWord c 0x00 w
    (if bit w 31 then s.setChWord c 0x18 (setBit (s.chWord c 0x18) 2 true) else s, stOk)

/-- CH_SCALE of a current channel is held between 0.001 and 1.0 × 10^6; a NaN, which has no nearest value, is not taken
(log entry 34). That of a voltage channel ignores writes (R316). -/
def scaleOf (old w : Word) : Word :=
  if fnan f32 w.toNat then old else word (fclamp f32 0x3A83126F 0x49742400 w.toNat)

/-- A write of one entry word with its settled value, by a path that may write it. -/
def chWordEffect (c o : Nat) (w : Word) (s : State) : State × Nat :=
  if o = 0 then chDefEffect c w s
  else if o = 0x04 then (if isCurrent c then s.setChWord c 4 (scaleOf (s.chWord c 4) w) else s, stOk)
  else if o = 0x08 ∨ o = 0x0C ∨ o = 0x10 then (s.setChWord c o w, stOk)
  else (s, stOk)

/-- A context may read the entry of a channel it owns (R142, file 11). -/
def State.mayChannel (s : State) (ctx c : Nat) : Bool := ctx = 0 || fld (s.chWord c 0x00) 0 9 = ctx

/-- CH_DEF_WRITE (R348): only context 0 writes it. -/
def execChDefWrite (p : Path) (c : Nat) (data : Word) (s : State) : Out :=
  access (fun s => s.port p pgMTR true (fun s =>
    if !s.chExists c then (s, s.undefAt p)
    else if s.ctxOf p ≠ 0 then (s, stDenied)
    else
      let r := chDefEffect c (entSettle pgMTR RegMap.entMeter 0 .plain 0 data) s
      (r.1.noteClamp pgMTR (256 * c) (entClamped pgMTR RegMap.entMeter 0 .plain 0 data && decide (r.2 = stOk)), r.2))) s

/-- The clear of CH_WRAP bits (R326). -/
def chWrapEffect (p : Path) (c : Nat) (al : Alias) (data : Word) (s : State) : State × Nat :=
  if s.mayChannel (s.ctxOf p) c then (s.setChWord c 0x1C (rsValue al (s.chWord c 0x1C) data 0xFF), stOk)
  else (s, stDenied)

/-- CH_WRAP_CLEAR (R326). -/
def execChWrapClear (p : Path) (c : Nat) (data : Word) (s : State) : Out :=
  access (fun s => s.port p pgMTR true (fun s =>
    if !s.chExists c then (s, s.undefAt p) else chWrapEffect p c .clear data s)) s

/-- MTR.STAT as read: SAMPLING and the channels in GAP (Table MTR-4). -/
def State.mtrStat (s : State) : Word :=
  setFld (s.reg pgMTR 0x044) 8 6 ((List.range 52).filter fun c => s.chanState c = 2).length

end Sys2Proof.Machine
end

