-- ==== Sys2Proof/Machine/Quality.lean ====
section
/-! DEFINITION. Power quality (R344 to R347) and the processing ft of a sample set (R315, R317). -/

namespace Sys2Proof.Machine

set_option cleanup.letToHave false

open Sys2Proof.Config

/-! ### Values against UDIN (R345, R346) -/

/-- The square of `pct` % of UDIN in V² (UDIN counts 0.1 V). -/
def State.pqSquare (s : State) (pct : Nat) : Frac :=
  let u := pct * s.sampledFld pgPQE 0x040 0 12
  Frac.mk' (u * u : Nat) 1000000
abbrev State.pqTh (s : State) (lo : Nat) : Nat := s.sampledFld pgPQE 0x044 lo 8

/-- An event of type t (0 sag, 1 swell, 2 interruption) starts at this mean square. -/
def State.pqStarts (s : State) (t : Nat) (ms : Frac) : Bool :=
  match t with
  | 0 => Frac.lt ms (s.pqSquare (s.pqTh 0))
  | 1 => Frac.lt (s.pqSquare (s.pqTh 8)) ms
  | _ => Frac.lt ms (s.pqSquare (s.pqTh 16))

/-- An event of type t ends at this mean square. -/
def State.pqEnds (s : State) (t : Nat) (ms : Frac) : Bool :=
  match t with
  | 0 => Frac.le (s.pqSquare (s.pqTh 0 + s.pqTh 24)) ms
  | 1 => Frac.le ms (s.pqSquare (s.pqTh 8 - s.pqTh 24))
  | _ => Frac.le (s.pqSquare (s.pqTh 16 + s.pqTh 24)) ms

/-! ### Events -/

def State.pqEvent (s : State) (p t : Nat) : Option PqEvent := Tbl.get (fun _ => none) s.meter.pq (4 * p + t)
def State.setPqEvent (s : State) (p t : Nat) (e : Option PqEvent) : State :=
  { s with meter := { s.meter with pq := Tbl.set (fun _ => none) s.meter.pq (4 * p + t) e } }
abbrev State.inEvent (s : State) (p t : Nat) : Bool := (s.pqEvent p t).isSome
abbrev State.monitored (s : State) (p : Nat) : Bool := s.regBit pgPQE 0x04C (4 * p)

/-- Start of an event (R347): the record gives phase, type and stamp. -/
def State.pqStart (s : State) (p t h : Nat) (w : Word) : State :=
  let s := (s.setPqEvent p t (some { start := h, extreme := w })).setRegBit pgPQE 0x04C (4 * p + 1 + t) true
  s.event pgPQE 0 [p, t + 1, h]

/-- A half-cycle stamp as its CYCLE word, and as EPOCH with H (Table PQE-1). -/
def stampCycle (h : Nat) : Word := word (h / 2)
def stampEh (h : Nat) : Word := word (h / 2 / turn % 65536 + 65536 * (h % 2))

/-- End of an event (R347). -/
def State.pqEnd (s : State) (p t h : Nat) : State :=
  match s.pqEvent p t with
  | none => s
  | some e =>
    let dur := if e.through then 0xFFFFFFFF else min (ringDist (pw 49) e.start h) 0xFFFFFFFF
    let s := s.setReg pgPQE 0x080 (word (t + 1 + 16 * p + 256 * b2n e.through))
    let s := (s.setReg pgPQE 0x084 (stampCycle e.start)).setReg pgPQE 0x088 (stampEh e.start)
    let s := (s.setReg pgPQE 0x08C (stampCycle h)).setReg pgPQE 0x090 (stampEh h)
    let s := (s.setReg pgPQE 0x094 (word dur)).setReg pgPQE 0x098 e.extreme
    let s := (s.bump pgPQE (0x100 + 4 * (3 * p + t))).setRegBit pgPQE 0x04C (4 * p + 1 + t) false
    (s.setPqEvent p t none).event pgPQE 1
      ([p, t + 1, e.start, h, dur, e.extreme.toNat] ++ if e.through then [s.meter.pqDay, s.timeOfDay8] else [])

/-- The extreme follows: the lowest value of a sag or interruption, the highest of a swell (R347). -/
def State.pqTrack (s : State) (p t : Nat) (w : Word) : State :=
  match s.pqEvent p t with
  | none => s
  | some e =>
    let better := if t = 1 then flt f32 e.extreme.toNat w.toNat else flt f32 w.toNat e.extreme.toNat
    if better then s.setPqEvent p t (some { e with extreme := w }) else s

/-- The highest or lowest of words. -/
def pqBest (t : Nat) : List Word → Word → Word
  | [], b => b
  | w :: l, b => pqBest t l (if (if t = 1 then flt f32 b.toNat w.toNat else flt f32 w.toNat b.toNat) then w else b)

/-! ### One half-cycle value of each phase -/

/-- A phase that AUTO or ON monitors (R345). A write of VCH_CFG in this ft counts from the next value (R129). -/
def State.pqMonitor (s : State) (p : Nat) (ms : Frac) : State :=
  let run := if Frac.le (s.pqSquare 50) ms then min 100 (Tbl.get (fun _ => 0) s.meter.pqRun p + 1) else 0
  let s := { s with meter := { s.meter with pqRun := Tbl.set (fun _ => 0) s.meter.pqRun p run } }
  if s.sampled pgPQE 0x048 ≠ s.reg pgPQE 0x048 then s
  else match s.regFld pgPQE 0x048 (2 * p) 2 with
  | 0 => if s.monitored p || run < 100 then s else (s.setRegBit pgPQE 0x04C (4 * p) true).setPend pgPQE 2
  | 1 => s.setRegBit pgPQE 0x04C (4 * p) true
  | _ => s.setRegBit pgPQE 0x04C (4 * p) false
def State.pqMonitors (s : State) : List (Nat × Frac × Word) → State
  | [] => s
  | (p, ms, _) :: t => (s.pqMonitor p ms).pqMonitors t

/-- A value of a phase tracks its open events and ends those that it ends; an event that was open at a save ends now. -/
def State.pqPhaseEnds (s : State) (p h : Nat) (ms : Frac) (w : Word) : List Nat → State
  | [] => s
  | t :: l =>
    let s := match s.pqEvent p t with
      | none => s
      | some e => if e.through then s.pqEnd p t h else (if s.pqEnds t ms then (s.pqTrack p t w).pqEnd p t h else s.pqTrack p t w)
    s.pqPhaseEnds p h ms w l
def State.pqEndsAll (s : State) (h : Nat) : List (Nat × Frac × Word) → State
  | [] => s
  | (p, ms, w) :: t => (s.pqPhaseEnds p h ms w [0, 1, 2]).pqEndsAll h t

/-- A phase is in an event after this value. -/
def State.pqWillBe (s : State) (t : Nat) (v : Nat × Frac × Word) : Bool :=
  s.inEvent v.1 t || (s.monitored v.1 && s.pqStarts t v.2.1)

/-- The polyphase event of a type is to be in progress after this value (R346). -/
def State.pqPolyWill (s : State) (t : Nat) (vs : List (Nat × Frac × Word)) : Bool :=
  if t = 2 then (vs.any fun v => s.monitored v.1) && vs.all fun v => !s.monitored v.1 || s.pqWillBe t v
  else vs.any fun v => s.pqWillBe t v

def State.pqPolyEnds (s : State) (h : Nat) (vs : List (Nat × Frac × Word)) : List Nat → State
  | [] => s
  | t :: l =>
    let ws := (vs.filter fun v => s.monitored v.1).map fun v => v.2.2
    let s := match s.pqEvent 3 t with
      | none => s
      | some e =>
        if e.through then s.pqEnd 3 t h
        else
          let s := s.pqTrack 3 t (pqBest t ws (ws.headD e.extreme))
          if s.pqPolyWill t vs then s else s.pqEnd 3 t h
    s.pqPolyEnds h vs l

def State.pqPhaseStarts (s : State) (p h : Nat) (ms : Frac) (w : Word) : List Nat → State
  | [] => s
  | t :: l =>
    (if s.monitored p && !s.inEvent p t && s.pqStarts t ms then s.pqStart p t h w else s).pqPhaseStarts p h ms w l
def State.pqStartsAll (s : State) (h : Nat) : List (Nat × Frac × Word) → State
  | [] => s
  | (p, ms, w) :: t => (s.pqPhaseStarts p h ms w [0, 1, 2]).pqStartsAll h t

def State.pqPolyStarts (s : State) (h : Nat) (vs : List (Nat × Frac × Word)) : List Nat → State
  | [] => s
  | t :: l =>
    let ws := (vs.filter fun v => s.monitored v.1).map fun v => v.2.2
    (if !s.inEvent 3 t && s.pqPolyWill t vs then s.pqStart 3 t h (pqBest t ws (ws.headD 0)) else s).pqPolyStarts h vs l

/-- URMSp as values (R344). -/
def State.pqShow (s : State) : List (Nat × Frac × Word) → State
  | [] => s
  | (p, _, w) :: t => (s.setReg pgPQE (0x050 + 4 * p) w).pqShow t

/-- The half-cycle values of the three phases at stamp h: values, monitoring, ends before starts (R344 to R347). -/
def State.pqValues (s : State) (h : Nat) (vs : List (Nat × Frac × Word)) : State :=
  let s := ((s.pqShow vs).setReg pgPQE 0x060 (stampCycle h)).setReg pgPQE 0x064 (stampEh h)
  let s := (s.pqMonitors vs).pqEndsAll h vs
  ((s.pqPolyEnds h vs [0, 1, 2]).pqStartsAll h vs).pqPolyStarts h vs [0, 1, 2]

/-- A write of VCH_CFG ends AUTO's monitoring (R345), and drops the open events of phases that are no longer monitored (log entry 57). -/
def State.pqUnmonitor (s : State) (w : Word) : List Nat → State
  | [] => s
  | p :: t =>
    let s := { s with meter := { s.meter with pqRun := Tbl.set (fun _ => 0) s.meter.pqRun p 0 } }
    let s := if fld w (2 * p) 2 = 1 then s else
      (((s.setRegFld pgPQE 0x04C (4 * p) 4 0).setPqEvent p 0 none).setPqEvent p 1 none).setPqEvent p 2 none
    s.pqUnmonitor w t
def vchCfgEffect (w : Word) (s : State) : State × Nat := ((s.setReg pgPQE 0x048 w).pqUnmonitor w [0, 1, 2], stOk)

/-! ### The processing ft (R315, R317) -/

def State.voltSamples (s : State) (n delta : Nat) : List Nat → State
  | [] => s
  | c :: t => (s.voltSample n delta c).voltSamples n delta t
def State.chSamples (s : State) (n delta : Nat) (gaps : List Bool) : List Nat → State
  | [] => s
  | c :: t => (s.chSample n delta gaps c).chSamples n delta gaps t

/-- The mean squares of Lp − N of the three phases. -/
def State.phaseSquares (s : State) : List Nat → State × List (Nat × Frac × Word)
  | [] => (s, [])
  | p :: t =>
    let (s, ms) := s.meanSq (s.vsel p)
    let (s, l) := s.phaseSquares t
    (s, (p, ms, fracSqrtF32 ms) :: l)

end Sys2Proof.Machine
end

