-- ==== Sys2Proof/Machine/Save.lean ====
section
/-! DEFINITION. The orderly save (R85, R545), the power-fail decision (R79 to R86), and the hand-over before a restart or a
shutdown (R519). -/

namespace Sys2Proof.Machine

set_option cleanup.letToHave false

open Sys2Proof.Config

/-! ### What a save keeps -/

/-- The window of every enabled current channel is flushed (R328). -/
def State.flushAll (s : State) : List Nat → State
  | [] => s
  | c :: t => (if s.chEn c then s.flush c else s).flushAll t

/-- Power-quality events that are open at the save (R347). -/
def PqEvent.save (e : Option PqEvent) : Option PqEvent := e.map fun x => { x with through := true }

/-- The meter's part of the save (Table SYS-6): flush, conversion of its quanta, closure, totals. A later save of the same stop finds the
engine stopped (R545). -/
def State.saveMeter (s : State) : State :=
  let s := if s.accumulates then ((s.flushAll (List.range 48)).convert).closeInterval true else s
  { s with meter := { s.meter with closing := false, saved := some s.meterCopy, pqDay := s.timeOfDay8,
                                   pq := Tbl.mapVals (fun _ => none) PqEvent.save s.meter.pq } }

/-- WARM_OK of a save that starts now (R535, R538, R547): 0 for a fault that Table SYS-4 gives 0 and for a COLD restart. -/
def State.warmOk (s : State) : Bool := (s.sys.fault = 0 || faultWarm s.sys.fault) && s.sys.restart ≠ 2

/-- The record of a save that starts now, with the reset cause that follows it. -/
def State.saveRec (s : State) (cause : Nat) : SaveRec :=
  { seq := (s.reg pgSYS 0x070).toNat + 1, fmt := s.activeImage.saveFmt, warmOk := s.warmOk, cause := cause, stamp := s.stamp,
    gens := s.slots.filterMap fun e => e.2.prog.map fun g => (e.1, g.gen),
    img := { regs := s.regs, sram := s.sram, val := s.points.val, slots := s.slots, loop := s.loops.loop, at_ := s.tick } }

/-- The content of the save is written (Table SYS-6): work in progress ends, the meter is flushed and saved, Cairn's buffer is
written and a freeze ends, tunnel sessions close. -/
def State.writeSave (s : State) (cause : Nat) : State :=
  let s := (s.endWork.saveMeter.crnThaw).closeSessions 5 sessionNumbers
  let r := s.saveRec cause
  { s with sys := { s.sys with draft := some r, saveCause := cause } }

/-- The orderly save starts (R85, R545). `power` says that a power-fail decision led to it. -/
def State.startSave (s : State) (power : Bool) (cause : Nat) : State :=
  let s := s.writeSave cause
  let s := s.setReg pgPWR 0x080 (word (2 * b2n (power && s.power.byRail)))
  if power then (s.setSysState ssSave).enterPwr pwSave else s.setSysState ssSave

/-- The save is complete: its record becomes the latest, and a MARK is written (R453, R535). -/
def State.sealSave (s : State) (tenths : Nat) : State :=
  let s := match s.sys.draft with
    | some r =>
      { s.setReg pgSYS 0x070 (word r.seq) with sys := { s.sys with save := some { r with complete := true }, draft := none } }
    | none => s
  let s := s.setRegBit pgSYS 0x040 9 true
  let s := s.setReg pgPWR 0x080 (setFld (setBit (s.reg pgPWR 0x080) 0 true) 16 16 (min tenths 65535))
  (s.crnMark markSave).crnThaw

/-- The save of a module fault is due (R539). -/
def State.faultSaveDue (s : State) : Bool := s.sys.fault ≠ 0 && faultSaves s.sys.fault && !s.sys.faultSaved

/-! ### Restarts that software or the supervisor starts -/

/-- A primary with a standby in SYNC hands over first (R519). -/
def State.handsOver (s : State) : Bool := s.role = rolePrimary && s.pairState = psSync && s.working

/-- A restart with cause COMMAND or SUPERVISOR (R530, R547): the save, after the LEAVING hand-over of R519 where it applies. A
restart asked for during a save takes effect at its end. -/
def State.askRestart (s : State) (cause kind : Nat) : State :=
  let s := { s with sys := { s.sys with restart := kind, restartCause := cause } }
  if s.saving then s
  else if s.handsOver then { s with pair := { s.pair with wish := 2, wishAt := s.tick, flagged := false } }
  else s.startSave false cause

/-! ### The power-fail decision -/

/-- The store is at V_SAVE in RIDE (R85): every stage and 24V_SNS are shed and the save starts. After a module fault whose save
has run, none runs again (R539); a save that already runs ends as one of power failure. -/
def State.atVSave (s : State) : State :=
  if s.pwrState = pwRide then
    let s := ((s.shedAll.shedBit 3 true).snsOff).setReg pgPWR 0x078 0xFFFFFFFF
    if s.sys.fault ≠ 0 && s.sys.faultSaved then s.enterPwr pwSave
    else if s.sysState = ssSave then { s.enterPwr pwSave with sys := { s.sys with saveCause := 1 } }
    else s.startSave true 1
  else s

/-- A stage whose delay runs out before the store comes to V_SAVE is shed first. -/
def State.shedBefore (s : State) (stage : Nat) : State := if s.shedTick stage < s.storeTick 3050 then s.shedOne stage else s

/-- V_SAVE_REACHED (R85, R87): not while mains is good. The store comes to V_SAVE with the draws of Table PWR-2, which fall as stages are
shed. Mains good in that ft wins, so the crossing comes behind its arrivals. -/
def vSaveReached (s : State) : State :=
  if s.power.pf && s.power.powered && !s.saving then
    let s := ((s.shedBefore 1).shedBefore 2).shedBefore 3
    ((s.expire (s.storeTick 3050)).storeVolt 3050).atVSave
  else s
def execVSaveReached (s : State) : Out := event (fun s => vSaveReached s) s

/-- The power-fail decision (R79 to R82, R86, R519) with the store at `mV`. The record carries the cause (0 the RMS, 1 the 12 V rail: the
model's numbers, log entry 53), the RMS, the store voltage, and the half-cycle stamp `h`, which a sag of the same value carries too
(R80). -/
def State.powerFails (s : State) (byRms : Bool) (mV h : Nat) : State :=
  let s := s.storeVolt mV
  let s := { s with power := { s.power with mainsGood := false, pf := true, decidedAt := s.tick, byRail := !byRms, rail := byRms,
                                            good := 0 } }
  let s := (s.setRegBit pgPWR 0x050 18 false).bump pgPWR 0x068
  let s := (s.setReg64 pgPWR 0x06C s.tick).setReg pgPWR 0x074 (s.reg pgPHT 0x050)
  let s := s.event pgPWR 0 [b2n (!byRms), (s.reg pgPWR 0x058).toNat, mV, h]
  if s.pwrState = pwStart then s.shedAll
  else if s.pwrState = pwNormal then
    let s := s.enterPwr pwRide
    let s := if s.handsOver && !bit (s.reg pgPAR 0x060) 9 && s.pair.wish = 0
      then { s with pair := { s.pair with wish := 1, wishAt := s.tick, flagged := false } } else s
    if mV ≤ 3050 then s.atVSave else s
  else s

/-- A half-cycle value of the supply with its stamp (R79, R80). -/
def State.supplyValue (s : State) (rms h : Nat) : State :=
  let s := s.countValue rms
  if s.railsLow then s.powerFails true s.storeVolts h
  else if s.railsGood then s.declareGood
  else s

/-- POWER_FAIL_DECISION (R79, R80): a half-cycle value of the supply RMS, or the 12 V rail below 10.5 V, or both in one ft: then one
decision, with the cause RMS where the value completes the run of PF_HC. -/
def powerFailDecision (byRms by12V : Bool) (rms mV : Nat) (s : State) : State :=
  if !s.power.powered || s.power.pf then s
  else
    let s := if byRms then s.countValue rms else s
    let r := byRms && s.railsLow
    if r || by12V then s.powerFails r mV s.halfStamp else s
def execPowerFailDecision (byRms by12V : Bool) (rms mV : Nat) (s : State) : Out :=
  event (fun s => powerFailDecision byRms by12V rms mV s) s

end Sys2Proof.Machine
end

