-- ==== Sys2Proof/Machine/Update.lean ====
section
/-! DEFINITION. The update engine (R485 to R501): the chunk buffer and its owner, staging, the manifest, the trial of an image,
its confirmation and fallback. The install itself is part of a start (Restart.lean). -/

namespace Sys2Proof.Machine

set_option cleanup.letToHave false

open Sys2Proof.Config

/-! ### UPD.STATE -/

abbrev State.updStage (s : State) : Nat := s.regFld pgUPD 0x040 0 3
abbrev State.setUpdStage (s : State) (v : Nat) : State := s.setRegFld pgUPD 0x040 0 3 v
abbrev sgEmpty : Nat := 0
abbrev sgManifest : Nat := 1
abbrev sgChunks : Nat := 2
abbrev sgComplete : Nat := 3
abbrev sgArmed : Nat := 4
abbrev State.onTrial (s : State) : Bool := s.regBit pgUPD 0x040 4
abbrev State.hasFallback (s : State) : Bool := s.regBit pgUPD 0x040 6
abbrev State.updBusy (s : State) : Bool := s.regBit pgUPD 0x040 31

/-- UPD.CMD values (Table UPD-6). -/
abbrev ucBegin : Nat := 1
abbrev ucManifest : Nat := 2
abbrev ucChunk : Nat := 3
abbrev ucInstall : Nat := 4
abbrev ucAbort : Nat := 5
abbrev ucConfirm : Nat := 6
abbrev ucRevert : Nat := 7
abbrev ucClaim : Nat := 8
abbrev ucRelease : Nat := 9

/-- The path owns the chunk buffer. -/
def State.ownsBuffer (s : State) (p : Path) : Bool :=
  s.regBit pgUPD 0x068 15 && s.regFld pgUPD 0x068 0 10 = pathIdx p
def State.dropOwner (s : State) : State := s.setReg pgUPD 0x068 0

/-- A refused command (R488, R501). -/
def State.updRefuse (s : State) (cmd st : Nat) : State × Nat :=
  ((s.setRegFld pgUPD 0x040 8 8 st).setPend pgUPD (if cmd = ucManifest ∨ cmd = ucChunk then 0 else 5), st)

/-- An accepted command: LAST shows OK, BUSY is 1 until it completes. -/
def State.updAccept (s : State) : State × Nat :=
  ((s.setRegFld pgUPD 0x040 8 8 stOk).setRegBit pgUPD 0x040 31 true, stOk)

/-- The checks every command meets first: the owner, then BUSY (R488). -/
def updCommand (p : Path) (cmd : Nat) (f : State → State × Nat) (s : State) : State × Nat :=
  if !s.ownsBuffer p then s.updRefuse cmd stDenied
  else if s.updBusy then s.updRefuse cmd stUpdBusy
  else f s

/-! ### The mirror (R522) and the relay (R499) -/

/-- A mirror request leaves for the partner. -/
def State.mirrorSend (s : State) (path : Option Nat) (write : Bool) (addr data : Word) : State :=
  let n := s.pair.reqNo + 1
  let r : MirReq := ⟨path, n, write, addr, data, s.tick⟩
  ({ s with pair := { s.pair with reqNo := n, mirror := s.pair.mirror ++ [r] } }).bump pgPAR 0x12C

/-- A relayed command (R499): the partner's UPD.CMD takes the same value. The buffer words that go before it travel in the same
request (log entry 40). -/
def State.relay (s : State) (cmd index : Nat) : State :=
  if s.regBit pgUPD 0x048 1 && s.role = rolePrimary && s.pair.up then
    s.mirrorSend none true (word (pgUPD * 0x4000 + 0x044)) (word (cmd + 65536 * index))
  else s

/-! ### The chunk buffer -/

/-- The 1,024 words of the buffer. -/
def State.bufferWords (s : State) : List Word := (List.range 1024).map fun i => Tbl.get (fun _ => 0) s.upd.buffer i

/-- A write of word w of the buffer (R488). -/
def bufferEffect (p : Path) (w : Nat) (al : Alias) (data : Word) (s : State) : State × Nat :=
  if !s.ownsBuffer p then (s, stDenied)
  else
    let old := Tbl.get (fun _ => 0) s.upd.buffer w
    ({ s with upd := { s.upd with buffer := Tbl.set (fun _ => 0) s.upd.buffer w (aliasValue al old data), usedAt := s.tick } }, stOk)

/-- Bit j of the bitmaps, and their words as read (Table UPD-6). -/
def State.hasChunk (s : State) (i : Nat) : Bool := Tbl.get (fun _ => false) s.upd.have_ i
def State.hasManifest (s : State) (i : Nat) : Bool := Tbl.get (fun _ => false) s.upd.manHave i
def bitmapWord (t : Tbl Bool) (w : Nat) : Word :=
  word (((List.range 32).map fun j => if Tbl.get (fun _ => false) t (32 * w + j) then 2 ^ j else 0).sum)

/-- A word of the UPD indirect space as read: buffer, chunk bitmap, manifest-chunk bitmap. A read by the owner is a buffer access. -/
def updRead (p : Path) (ia : Nat) (s : State) : State × Nat × Word :=
  if ia < 0x1000 then
    let s := if s.ownsBuffer p then { s with upd := { s.upd with usedAt := s.tick } } else s
    (s, stOk, Tbl.get (fun _ => 0) s.upd.buffer (ia / 4))
  else if 0x10000 ≤ ia ∧ ia < 0x10400 then (s, stOk, bitmapWord s.upd.have_ ((ia - 0x10000) / 4))
  else if 0x20000 ≤ ia ∧ ia < 0x2000C then (s, stOk, bitmapWord s.upd.manHave ((ia - 0x20000) / 4))
  else (s, stOk, 0)

/-! ### Staging -/

/-- CHUNKS_HAVE. -/
def State.showHave (s : State) : State := s.setReg pgUPD 0x060 (word (s.upd.have_.filter (·.2)).length)

/-- The staging content is discarded: chunks, manifest, both bitmaps, and the registers that show the staged manifest. -/
def State.discardStaging (s : State) : State :=
  let u := s.upd
  let s := { s with upd := { u with
    have_ := [], manHave := [], chunks := Tbl.clear (fun k => decide (k / 8192 = u.staging)) u.chunks,
    manifs := Tbl.clear (fun k => decide (k / 128 = u.staging)) u.manifs, image := Tbl.drop u.staging u.image } }
  let s := ((s.setReg pgUPD 0x054 0).setReg pgUPD 0x05C 0).setReg pgUPD 0x060 0
  { s with regs := Tbl.clear (fun k => decide (rkey pgUPD 0x070 ≤ k) && decide (k < rkey pgUPD 0x090)) s.regs }

/-- CLAIM (Table UPD-3). -/
def claimEffect (p : Path) (s : State) : State × Nat :=
  if s.updBusy then s.updRefuse ucClaim stUpdBusy
  else if s.regBit pgUPD 0x068 15 then s.updRefuse ucClaim stDenied
  else
    let s := s.setReg pgUPD 0x068 (word (pathIdx p % 1024 + 32768))
    ({ s with upd := { s.upd with usedAt := s.tick } }).updAccept

/-- RELEASE. -/
def releaseEffect (p : Path) : State → State × Nat := updCommand p ucRelease fun s => s.dropOwner.updAccept

/-- BEGIN. -/
def beginEffect (p : Path) : State → State × Nat :=
  updCommand p ucBegin fun s => ((s.discardStaging.setUpdStage sgManifest).relay ucBegin 0).updAccept

/-- ABORT. -/
def updAbortEffect (p : Path) : State → State × Nat :=
  updCommand p ucAbort fun s =>
    if s.updStage = sgEmpty then s.updRefuse ucAbort stUpdState
    else ((s.discardStaging.setUpdStage sgEmpty).relay ucAbort 0).updAccept

/-! ### The manifest (R486, R489) -/

/-- Word `n` of the staged manifest. -/
def State.manWord (s : State) (n : Nat) : Word :=
  ((Tbl.get (fun _ => []) s.upd.manifs (128 * s.upd.staging + n / 1024))[n % 1024]?).getD 0

/-- N_CHUNK as the staged manifest gives it, and the manifest chunks that it needs. -/
def State.manChunks (s : State) : Nat := fld (s.manWord 3) 0 14
def manifestChunks (n : Nat) : Nat := ceilDiv (192 + 32 * n) 4096
/-- The manifest chunks that the largest manifest of R486, 262,336 bytes, needs. -/
abbrev manifestMost : Nat := 65

/-- The header is well formed (Table UPD-2): magic, format, lengths, and reserved fields 0. -/
def State.manFormOk (s : State) : Bool :=
  let len := (s.manWord 2).toNat
  s.manWord 0 = 0x4D555344 && s.manWord 1 = 0x00800001 && 4096 ≤ len && len ≤ 33554432 &&
  (s.manWord 3).toNat = ceilDiv len 4096 && fld (s.manWord 5) 26 6 = 0 && fld (s.manWord 7) 16 16 = 0 &&
  (List.range 16).all fun i => s.manWord (16 + i) = 0

/-- VARIANTS names the variant; KEY_ID names a key of the boot ROM. -/
def State.manVariantOk (s : State) : Bool := bit (s.manWord 5) (if s.small then 25 else 24)
def State.manKeyOk (s : State) : Bool := fld (s.manWord 5) 16 8 ≤ 1

/-- The image that the staged manifest describes. -/
def State.manImage (s : State) : Image :=
  ⟨s.manWord 4, fld (s.manWord 5) 0 16, fld (s.manWord 6) 0 16, fld (s.manWord 6) 16 16, fld (s.manWord 7) 0 16, s.manChunks⟩

/-- The bytes of the staged manifest (R486), and digest `i` of its chunks. -/
def State.manLen (s : State) : Nat := 192 + 32 * s.manChunks
def State.manBytes (s : State) (lo n : Nat) : List Byte :=
  (((List.range ((n + 3) / 4)).flatMap fun i => leBytes 4 (s.manWord (lo / 4 + i)).toNat)).take n
def State.chunkDigest (s : State) (i : Nat) : List Byte := s.manBytes (128 + 32 * i) 32

/-- The signature over every byte before it verifies under the key that KEY_ID names (R486, R487). -/
def State.romKey (s : State) (k : Nat) : Nat := (Tbl.get signingKey s.upd.romKeys k).toNat
def State.manSigned (s : State) : Bool :=
  let key := s.romKey (fld (s.manWord 5) 16 8)
  let at_ := s.manLen - 64
  ecdsaVerify (key / 2 ^ 256) (key % 2 ^ 256) (sha256 (s.manBytes 0 at_)) (beNat (s.manBytes at_ 32)) (beNat (s.manBytes (at_ + 32) 32))

/-- The checks of R489 in their order. -/
def State.manStatus (s : State) : Nat :=
  if !(s.manFormOk && s.manVariantOk && s.manKeyOk) then stManFormat
  else if !s.manSigned then stManSig
  else if fld (s.manWord 5) 0 16 < s.regFld pgUPD 0x064 0 16 then stSecVersion
  else stOk

/-- MAN_DIG0 to MAN_DIG7: bytes 4i to 4i + 3 of the digest, byte 4i in bits [7:0]. -/
def State.showDigest (s : State) (d : List Byte) : List Nat → State
  | [] => s
  | i :: t => (s.setReg pgUPD (0x070 + 4 * i) (word (ofLeBytes ((d.drop (4 * i)).take 4)))).showDigest d t

/-- What the flash keeps of a manifest chunk: the buffer; where it does not read back, 1,024 free words (log entry 42). -/
def State.keptWords (s : State) (readBackOk : Bool) : List Word :=
  if readBackOk then s.bufferWords else (List.range 1024).map fun i => word (freeValue (s.fresh + i)).toNat

/-- Manifest chunk i is stored; a complete manifest is checked. -/
def manifestStore (i : Nat) (readBackOk : Bool) (s : State) : State × Nat :=
  let u := s.upd
  let s := { s with fresh := s.fresh + (if readBackOk then 0 else 1024),
                    upd := { u with manifs := Tbl.set (fun _ => []) u.manifs (128 * u.staging + i) (s.keptWords readBackOk),
                                    manHave := Tbl.set (fun _ => false) u.manHave i true } }
  let need := manifestChunks s.manChunks
  if s.hasManifest 0 && (List.range need).all s.hasManifest then
    let st := s.manStatus
    if st = stOk then
      let m := s.manImage
      let s := { s with upd := { s.upd with image := Tbl.set (fun _ => {}) s.upd.image s.upd.staging m } }
      let s := ((s.setReg pgUPD 0x054 m.fw).setReg pgUPD 0x05C (word m.chunks)).showDigest
        (sha256 (s.manBytes 0 s.manLen)) (List.range 8)
      ((s.setUpdStage sgChunks).relay ucManifest i).updAccept
    else (s.discardStaging.setUpdStage sgEmpty).updRefuse ucManifest st
  else (s.relay ucManifest i).updAccept

/-- MANIFEST_CHUNK i (Table UPD-3). -/
def manifestEffect (p : Path) (i : Nat) (readBackOk : Bool) : State → State × Nat :=
  updCommand p ucManifest fun s =>
    if s.updStage ≠ sgManifest then s.updRefuse ucManifest stUpdState
    else if (if s.hasManifest 0 then min (manifestChunks s.manChunks) manifestMost else manifestMost) ≤ i then s.updRefuse ucManifest stManFormat
    else manifestStore i readBackOk s

/-! ### Chunks (R490, R491) -/

/-- The SHA-256 of the buffer is digest i (R490). -/
def wordBytes (l : List Word) : List Byte := l.flatMap fun w => leBytes 4 w.toNat
def State.bufferMatches (s : State) (i : Nat) : Bool := sha256 (wordBytes s.bufferWords) = s.chunkDigest i

/-- CHUNK i (R490). The chunk is written and read back until the command completes; a power failure until then leaves its bit clear
(R492). -/
def chunkEffect (p : Path) (i : Nat) (readBackOk : Bool) : State → State × Nat :=
  updCommand p ucChunk fun s =>
    if s.updStage ≠ sgChunks then s.updRefuse ucChunk stUpdState
    else if decide ((s.reg pgUPD 0x05C).toNat ≤ i) || !s.bufferMatches i then (s.bump pgUPD 0x108).updRefuse ucChunk stChunkHash
    else if s.hasChunk i then ((s.bump pgUPD 0x104).relay ucChunk i).updAccept
    else
      (({ s with upd := { s.upd with writing := some (i, s.bufferWords, readBackOk) } }).relay ucChunk i).updAccept

/-- The end of the writing of a chunk: its bit sets only where the read-back matches (R490). Where it does not, LAST shows CHUNK_HASH (log
entry 42). -/
def State.chunkWritten (s : State) : State :=
  match s.upd.writing with
  | none => s
  | some (i, ws, ok) =>
    let u := s.upd
    let s := { s with upd := { u with chunks := Tbl.set (fun _ => []) u.chunks (8192 * u.staging + i) ws, writing := none } }
    if ok then (({ s with upd := { s.upd with have_ := Tbl.set (fun _ => false) s.upd.have_ i true } }).showHave).bump pgUPD 0x100
    else (s.updRefuse ucChunk stChunkHash).1

/-- Clear the bits of mismatching chunks. -/
def State.clearChunks (s : State) (bad : List Nat) : State :=
  ({ s with upd := { s.upd with have_ := Tbl.clear (fun i => bad.contains i) s.upd.have_ } }).showHave

/-- The chunks of the staging slot, and whether IMAGE_LEN bytes of them hash to IMAGE_DIGEST (R486, R491). -/
def State.stagedChunk (s : State) (i : Nat) : List Word := Tbl.get (fun _ => []) s.upd.chunks (8192 * s.upd.staging + i)
def State.imageMatches (s : State) : Bool :=
  sha256 (((List.range s.manChunks).flatMap fun i => wordBytes (s.stagedChunk i)).take (s.manWord 2).toNat) = s.manBytes 32 32

/-- IMAGE_DIGEST_CHECK (R491): when every bit is set, the staging slot is read and checked. `unread` are the chunks that this read does not
give as they were written, `bad` those that then do not match when every chunk is hashed again. -/
def imageDigestCheck (unread bad : List Nat) (s : State) : State :=
  if s.updStage = sgChunks && s.reg pgUPD 0x060 = s.reg pgUPD 0x05C then
    if unread.isEmpty && s.imageMatches then (s.setUpdStage sgComplete).setPend pgUPD 1 else s.clearChunks bad
  else s

/-! ### Installing, confirming, falling back -/

/-- INSTALL (R493): armed; with AUTO_RESTART the supervisor restarts. -/
def installEffect (p : Path) : State → State × Nat :=
  updCommand p ucInstall fun s =>
    if s.updStage ≠ sgComplete || s.onTrial then s.updRefuse ucInstall stUpdState
    else
      let r := (s.setUpdStage sgArmed).updAccept
      (if s.regBit pgUPD 0x048 2 then r.1.askRestart 7 1 else r.1, r.2)

/-- The row of the register under a key. -/
def keyRow (k : Nat) : Option Row :=
  if 4294967296 ≤ k then
    let pg := (k - 4294967296) / 16777216
    let a := (k - 4294967296) % 16777216
    if pageIndirect pg then RegMap.rowOf pg a else (RegMap.entryRow pg a).map (·.1)
  else if 1073741824 ≤ k then RegMap.rowsLDR.find? (RegMap.holds (k - 1073741824))
  else if k % 4096 < 0x40 then none
  else RegMap.rowOf (k / 4096) (k % 4096)

/-- The page of a key. -/
def keyPage (k : Nat) : Nat :=
  if 4294967296 ≤ k then (k - 4294967296) / 16777216 else if 1073741824 ≤ k then pgSCN else k / 4096

/-- The words of Table PTM-9 that change in service and are no configuration: forced values, forces and USES. -/
def isForce (k : Nat) : Bool :=
  ikey pgPTM 0 ≤ k && k < ikey pgPTM 0x040000 && decide (8 ≤ k % 32) && decide (k % 32 ≤ 0x10)
def isUses (k : Nat) : Bool :=
  ikey pgPTM 0x080000 ≤ k && k < ikey pgPTM 0x0E0000 && decide (k % 32 = 0x14)

/-- The configuration: the RW registers, whose stored copy is the settings (R498). -/
def isConfig (k : Nat) : Bool :=
  !isForce k && !isUses k && (match keyRow k with | some r => decide (r.acc = .rw) | none => false)

/-- Configuration words whose value differs between two stores: the writes that a fallback loses (R498; log entry 41). -/
def lostWrites (small : Bool) (new old : Tbl Word) : Nat :=
  let v := fun (t : Tbl Word) k => Tbl.get (RegMap.resetWord small) t k
  ((new.filter fun e => isConfig e.1 && v old e.1 ≠ e.2).length) +
  ((old.filter fun e => isConfig e.1 && !(new.any fun x => x.1 = e.1)).length)

/-- The trial image confirms itself (R495). -/
def State.confirmImage (s : State) : State :=
  let m := s.activeImage
  let s := { s with upd := { s.upd with confirm := false, oldArea := none } }
  let s := (s.setReg pgUPD 0x040 (setBit (setBit (setFld (s.reg pgUPD 0x040) 16 4 0) 4 false) 5 false)).setReg pgUPD 0x064 (word m.sec)
  (s.bump pgUPD 0x110).event pgUPD 3 [m.fw.toNat]

/-- The conditions of R495. A module fault ends in a reset, so none has occurred while none is in force; migration completes
within the start (log entry 41). -/
def State.trialHealthy (s : State) : Bool :=
  s.onTrial && s.sys.released && s.ridge.locked && !s.faulted &&
  (if s.isStandby then decide (100 ≤ s.upd.copies) else s.regBit pgSCN 0x040 0 && s.scan.ended) &&
  (!s.regBit pgUPD 0x048 0 || s.upd.confirm)

/-- TRIAL_CONFIRMATION (R495). -/
def trialConfirmation (s : State) : State := if s.trialHealthy then s.confirmImage else s

/-- A directory change writes the copy with the older sequence number and gives it the next one (R485). -/
def State.writeDir (s : State) : State :=
  let u := s.upd
  let new : DirCopy := ⟨max u.dirA.seq u.dirB.seq + 1, u.active, u.fallback, u.staging⟩
  { s with upd := if u.dirA.seq < u.dirB.seq then { u with dirA := new } else { u with dirB := new } }

/-- The directory makes FALLBACK the ACTIVE image and marks the trial slot empty (R496, R498). -/
def State.fallBack (s : State) (cause : Nat) : State :=
  let trial := s.activeImage
  let u := s.upd
  let lost := match u.oldArea with | some old => lostWrites s.small s.regs old | none => 0
  let s := { s with upd := { u with active := u.fallback, fallback := u.active, image := Tbl.drop u.active u.image,
                                    confirm := false, oldArea := none } }.writeDir
  let s := match u.oldArea with | some old => { s with regs := Tbl.overlay isConfig old s.regs } | none => s
  let st := setBit (setBit (setBit (setFld (s.reg pgUPD 0x040) 16 4 0) 4 false) 5 false) 6 false
  let s := ((s.setReg pgUPD 0x040 st).setReg pgUPD 0x06C (word cause)).setReg pgUPD 0x058 0
  let s := (s.setReg pgUPD 0x050 0).bump pgUPD 0x10C
  s.event pgUPD 4 [cause, trial.fw.toNat, s.activeImage.fw.toNat, lost]

/-- The entries in use are counted anew, and the marks follow (R186). -/
def State.countTo (s : State) (ofs n : Nat) : State :=
  let s := s.setReg pgPTM ofs (word n)
  if (s.reg pgPTM (ofs + 4)).toNat < n then s.setReg pgPTM (ofs + 4) (word n) else s
def State.recountPtm (s : State) : State :=
  let s := s.countTo 0x040 ((s.listed pgPTM 0 32 (pointLimit s.small) fun w => decide (fld w 0 4 ≠ 0)).length)
  let s := s.countTo 0x04C ((List.range (ctxLimit s.small)).filter fun c => s.ctxState c ≠ 0).length
  let s := (s.countTo 0x058 s.grants.length).countTo 0x064 s.creds.length
  s.setReg pgPTM 0x074 (word (s.listed pgPTM 0x10 32 (pointLimit s.small) fun w => bit w 0).length)

/-- A fallback of cause 1 or 3: the supervisor starts the restart. -/
def State.fallBackNow (s : State) (cause : Nat) : State := (s.fallBack cause).askRestart 7 1

/-- CONFIRM (R495, R496): waits for the other conditions. -/
def confirmEffect (p : Path) : State → State × Nat :=
  updCommand p ucConfirm fun s =>
    if !s.onTrial then s.updRefuse ucConfirm stUpdState
    else ({ s with upd := { s.upd with confirm := true } }).updAccept

/-- REVERT (R496). -/
def revertEffect (p : Path) : State → State × Nat :=
  updCommand p ucRevert fun s =>
    if !s.onTrial then s.updRefuse ucRevert stUpdState
    else let r := s.updAccept; (r.1.fallBackNow 3, r.2)

/-- What the end of a second of the trial brings once the wait has run out (R496, R497). -/
def State.trialEnds (s : State) : State :=
  if s.trialHealthy then s.confirmImage
  else if s.role = rolePrimary && s.pairState ≠ psSync then s.setRegBit pgUPD 0x040 5 true
  else s.fallBackNow 1

/-- One second of the trial has passed (R494). -/
def State.trialSecond (s : State) : State :=
  let left := (s.reg pgUPD 0x050).toNat
  let s := { s with upd := { s.upd with secondAt := s.upd.secondAt + ftPerS } }.setReg pgUPD 0x050 (word (left - 1))
  if 1 < left then s else s.trialEnds

/-- HEALTH_LEFT_TICK (R494, R496, R497): one second on trial, released from reset and not riding through. A confirmation in the
same ft wins. A primary without a standby in sync defers the fallback. -/
def healthLeftTick (s : State) : State :=
  if s.onTrial && s.sys.released && s.power.powered && s.pwrState ≠ pwRide && !s.saving then
    (s.until s.upd.secondAt).trialSecond
  else s

/-- A deferred fallback takes place in the ft in which a standby comes into sync (R497). -/
def State.deferredFallback (s : State) : State :=
  if s.regBit pgUPD 0x040 5 && s.pairState = psSync then s.fallBackNow 1 else s

/-! ### Ownership and completion -/

/-- BUFFER_OWNER_TIMEOUT (R488): 60 s without a buffer access by the owner. -/
def bufferOwnerTimeout (s : State) : State :=
  if s.regBit pgUPD 0x068 15 then (s.expire (s.upd.usedAt + 60 * ftPerS)).dropOwner else s

/-- UPD_COMMAND_COMPLETE (R488). -/
def updCommandComplete (s : State) : State := s.chunkWritten.setRegBit pgUPD 0x040 31 false

/-- A write of UPD.CMD as a register write. Whether a chunk reads back is then free (log entry 42). -/
def updCmdEffect (p : Path) (w : Word) (s : State) : State × Nat :=
  let i := fld w 16 13
  match fld w 0 4 with
  | 1 => beginEffect p s
  | 2 => manifestEffect p i (s.freeWord.getLsbD 0) s.draw
  | 3 => chunkEffect p i (s.freeWord.getLsbD 0) s.draw
  | 4 => installEffect p s
  | 5 => updAbortEffect p s
  | 6 => confirmEffect p s
  | 7 => revertEffect p s
  | 8 => claimEffect p s
  | 9 => releaseEffect p s
  | _ => (s, stOk)

def execClaim (p : Path) (s : State) : Out := access (fun s => s.port p pgUPD false (claimEffect p)) s
def execRelease (p : Path) (s : State) : Out := access (fun s => s.port p pgUPD false (releaseEffect p)) s
def execUpdBegin (p : Path) (s : State) : Out := access (fun s => s.port p pgUPD false (beginEffect p)) s
def execManifestChunk (p : Path) (i : Nat) (readBackOk : Bool) (s : State) : Out :=
  access (fun s => s.port p pgUPD false (manifestEffect p i readBackOk)) s
def execChunk (p : Path) (i : Nat) (readBackOk : Bool) (s : State) : Out :=
  access (fun s => s.port p pgUPD false (chunkEffect p i readBackOk)) s
def execImageDigestCheck (unread bad : List Nat) (s : State) : Out := event (fun s => imageDigestCheck unread bad s) s
def execInstall (p : Path) (s : State) : Out := access (fun s => s.port p pgUPD false (installEffect p)) s
def execUpdAbort (p : Path) (s : State) : Out := access (fun s => s.port p pgUPD false (updAbortEffect p)) s
def execConfirm (p : Path) (s : State) : Out := access (fun s => s.port p pgUPD false (confirmEffect p)) s
def execRevert (p : Path) (s : State) : Out := access (fun s => s.port p pgUPD false (revertEffect p)) s
def execBufferOwnerTimeout (s : State) : Out := event (fun s => bufferOwnerTimeout s) s
def execHealthLeftTick (s : State) : Out := event (fun s => healthLeftTick s) s
def execTrialConfirmation (s : State) : Out := event (fun s => trialConfirmation s) s
def execUpdCommandComplete (s : State) : Out := event (fun s => updCommandComplete s) s

end Sys2Proof.Machine
end

