-- ==== Sys2Proof/Machine/Restart.lean ====
section
/-! DEFINITION. Starts (R530 to R536): what a reset clears, the install, the warm-or-cold decision, what a warm and a cold start
restore (Tables PTM-9, SCN-4, LPE-5, MTR-3, BUS-4, LDR-9), the release of the I/O domains, and the commands that reset. -/

namespace Sys2Proof.Machine

set_option cleanup.letToHave false

open Sys2Proof.Config

/-! ### What a reset clears (R531, Table SYS-6) -/

/-- Return the registers of which `p` holds to their reset values. -/
def State.clearRegs (s : State) (p : Nat → Bool) : State := { s with regs := Tbl.clear p s.regs }

/-- A counter that clears on read. -/
def isCounter (k : Nat) : Bool := match keyRow k with | some r => decide (r.acc = .rc) | none => false

/-- The pages that a system reset leaves running (R531). -/
abbrev runsThrough (pg : Nat) : Bool := pg = pgPHT ∨ pg = pgPWR ∨ pg = pgRTC ∨ pg = pgCRN

/-- IRQ_PEND of the blocks that are reset, and the source states (R434). -/
def State.clearIrqs (s : State) (power : Bool) : State :=
  s.clearRegs fun k =>
    k < 1073741824 &&
    ((decide (k % 4096 = 0x010) && (!runsThrough (k / 4096) || (power && (k / 4096 = pgPHT || k / 4096 = pgPWR)))) ||
     (decide (k / 4096 = pgINT) && decide (0x040 ≤ k % 4096) && decide (k % 4096 < 0x060)))

/-- Poll entries start anew: offline, with no secure channel (Table BUS-4). -/
def State.clearPolls (s : State) (ch : Nat) : State :=
  s.clearRegs fun k => ikey (busPage ch) 0x050000 ≤ k && k < ikey (busPage ch) 0x050100 && decide (k % 16 = 12)

/-- Channels: queued and in-flight messages are discarded and counted, their credits return, images and OSDP exchanges start
anew, CAN starts from OFF and integrates (Table BUS-4, R33). -/
def State.resetBus (s : State) (ch : Nat) : State :=
  let s := (s.goDown ch).discardMsgs ch crFlight ((s.busCh ch).arriving.map (·.2))
  let s := s.discardQueues ch [8, 9, 10, 11, 12, 13, 14, 15]
  let s := s.setBus ch { shed := (s.busCh ch).shed, truncated := (s.busCh ch).truncated }
  let s := if isCan ch then s.setCanStat ch csOff false (decide (s.busMode ch ≠ 0)) else s
  if isRsb ch then s.clearPolls ch else s
def State.resetBuses (s : State) : List Nat → State
  | [] => s
  | ch :: t => (s.resetBus ch).resetBuses t

/-- Tunnel: every session closes, and each reply sequence goes on from the end of its reserved block (R397, R400). -/
def State.resetReplies (s : State) : List (Nat × Session) → State
  | [] => s
  | (n, x) :: t => (s.setInd64 pgTUN (32 * n + 0x14) (max x.reserved (s.sesReply n))).resetReplies t
def State.resetTunnel (s : State) : State :=
  let s := s.closeSessions 5 sessionNumbers
  let s := s.resetReplies s.tun.session
  { s with tun := { s.tun with ingress := [], run := none } }

/-- Loader (Table LDR-9): a command that is not complete is discarded with the slot it was loading, and every beside holder becomes
FREE; each writes a record. The load buffer is emptied. -/
def State.resetChanges (s : State) : List (Nat × Slot) → State
  | [] => s
  | (n, x) :: t =>
    let s := if x.unload.isSome then (s.setSlot n { s.slot n with unload := none }).record 0x0720 [opUnload, n, stOk] else s
    (match x.change with
     | some ⟨b, _, _⟩ => (s.freeBeside n b).record 0x0720 [opAbort, n, stOk]
     | none => s).resetChanges t
def State.resetLoader (s : State) (power : Bool) : State :=
  let empty := power || s.ldrBusy
  let s :=
    if s.ldrBusy then
      let x := s.loader
      let s := s.record 0x0720 [x.op, x.slot, x.status]
      if x.op = opLoad && (s.slot x.slot).loading && (s.slot x.slot).state = 0 then s.setSlot x.slot {} else s
    else s
  let s := s.resetChanges s.slots
  let s :=
    if empty then { s with sram := Tbl.clear (fun a => decide (bufferBase ≤ a) && decide (a < bufferBase + 1048576)) s.sram } else s
  let s := { s with loader := { s.loader with prog := none } }
  (s.setLdr 0x004 (setBit (s.ldr 0x004) 31 false)).noteState s.loader.slot

/-- Fabric (R420): the queue and the paths are free, banks on their way reach their states. -/
def State.settleBanks (s : State) : List (Nat × Nat) → State
  | [] => { s with fabric := { s.fabric with changing := [] } }
  | (b, _) :: t =>
    (s.setBankStat b (s.regFld pgFAB (if b < 16 then 0x0E0 else 0x0E4) (2 * (b % 16)) 2)).settleBanks t
def State.resetFabric (s : State) (power : Bool) : State :=
  let s := s.settleBanks s.fabric.changing
  let f := s.fabric
  { s with fabric := { poison := if power then [] else f.poison, struck := if power then [] else f.struck, burst0 := f.burst0,
                       burst1 := f.burst1 } }

/-- Ports: every uplink's link ends, transmissions end. -/
def State.resetPorts (s : State) : List Nat → State
  | [] => { s with net := { s.net with attempts := [], octets := [] } }
  | p :: t => (s.linkDown p).resetPorts t

/-- The pair (R528): SOLO, no role; the cable stays, and on a system reset the trained link. -/
def State.resetPair (s : State) (power : Bool) : State :=
  let q := s.pair
  let s := { s with pair := { accepted := q.accepted, up := q.up && !power, far := q.far, seq := q.seq, reqNo := q.reqNo } }
  let s := (s.setRegFld pgPAR 0x044 0 6 0).setRegBit pgPAR 0x044 10 false
  s.clearRegs fun k => decide (k / 4096 = pgPAR) &&
    ([0x060, 0x064, 0x068, 0x070, 0x08C, 0x090, 0x0B8].contains (k % 4096) ||
     (power && [0x054, 0x058, 0x074, 0x078].contains (k % 4096)))

/-- The shadows are the values in force. -/
def isShadow (k : Nat) : Bool := match keyRow k with | some r => r.shadow | none => false

/-- Locks that lanes hold break as the lanes are reset (R218). -/
def State.breakLanes (s : State) : State :=
  s.breakLocks (s.locks.filterMap fun e => if e.2.state = lkHeld ∧ e.2.kind = 1 then some e.1 else none)

/-- What the DIO page shows of its terminals, and the stamps: DI_STATE, DI_EDGE_PEND, _OVR and _POL, DO_FAULT, DIO_SUP, MAP_REFUSE, DI_TSn. -/
def isDioLive (k : Nat) : Bool :=
  decide (k / 4096 = pgDIO) &&
  ([0x040, 0x050, 0x054, 0x058, 0x068, 0x074, 0x078].contains (k % 4096) || (decide (0x080 ≤ k % 4096) && decide (k % 4096 < 0x100)))

/-- Every pulse output is open (R343). -/
def State.pulsesOff (s : State) : List Nat → State
  | [] => s
  | n :: t => (s.setRegBit pgPLS (plsOfs n 0x10) 0 false).pulsesOff t

/-- Every master, engine and port is reset (R531). Registers that hold configuration stay: the supervisor restores them. Ridgeline and the
clock run through a system reset, with their shadows. -/
def State.blockReset (s : State) (power : Bool) : State :=
  let s := (s.endWork.breakLanes.resetTunnel).resetLoader power
  let s := (s.resetBuses (List.range 14)).resetFabric power
  let s := (s.resetPorts [2, 3]).resetPair power
  let s := (s.clearIrqs power).clearRegs fun k =>
    [ikey pgSNS 0x084, ikey pgSNS 0x0C4, ikey pgSNS 0x104].contains k || isDioLive k ||
    (decide (8 ≤ k / 4096) && decide (k / 4096 ≤ 15) && decide (k % 4096 = 0x044))
  let x := s.meter
  let m : Meter := { acc := x.acc, grp := x.grp, grpAt := x.grpAt, pq := x.pq, pqDay := x.pqDay, copy := x.copy, saved := x.saved }
  let s := (s.setRegFld pgRTC 0x06C 0 5 0).pulsesOff (List.range 8)
  let en := (List.range 4).foldl (fun t w => Tbl.set (fun _ => 0) t w (s.reg pgINT (0x060 + 4 * w))) []
  let s := (s.setReg pgUPD 0x068 0).setRegBit pgUPD 0x040 31 false
  { s with
    bank := [], entry := [], busy := [], waiting := [], fences := [], ports := [], spi := {}, intc := { en := en }, lanes := [], locks := [], links := [],
    shadow := Tbl.overlay (fun k => !power && (decide (keyPage k = pgPHT) || decide (keyPage k = pgRTC))) s.shadow
      (s.regs.filter fun e => isShadow e.1),
    rtc := if power then { s.rtc with frozen := none, touched := false } else s.rtc,
    points := { s.points with tun := [], tunNew := [], tunWas := [], lookups := [] },
    scan := { views := Tbl.mapVals (fun _ => {}) (fun (v : ClassView) => { max := v.max }) s.scan.views },
    loops := { loop := Tbl.mapVals (fun _ => {}) (fun (x : Loop) => { x with pend := none, cap := none, good := 0 }) s.loops.loop,
               coef := s.loops.coef },
    meter := m,
    upd := { s.upd with writing := none, copies := 0 },
    keys := { roots := s.keys.roots, mat := s.keys.mat, sealed := s.keys.sealed },
    dio := {} }

/-- Records accepted and not yet written are lost when no save has completed (R461), and their bytes leave USED_c. -/
def State.crnCountLost (s : State) : List CrnRec → State
  | [] => s
  | r :: t => (((s.crnReturn r.kind r.ctx r.bytes).addKey (ikey pgCRN (16 * r.ctx + 8)) 1).bump pgCRN 0x08C).crnCountLost t
def State.crnPowerOn (s : State) : State :=
  let lost := s.cairn.buffer ++ s.cairn.queue
  let s := { s with cairn := { s.cairn with buffer := [], queue := [], nextHour := 1, marked := false, frozenAt := 0 } }
  let s := (s.setReg pgCRN 0x044 0).setRegBit pgCRN 0x040 0 false
  let s := s.setRegFld pgCRN 0x060 0 16 (s.regFld pgCRN 0x060 0 16 + 1)
  if lost.isEmpty then s else (s.crnCountLost lost).record 0x0125 [lost.length]

/-- What counts from the last power-on: SAMPLING and SAMPLE of the meter (R315, Table MTR-4). -/
def isSincePowerOn (k : Nat) : Bool := k / 4096 = pgMTR ∧ (k % 4096 = 0x044 ∨ k % 4096 = 0x048 ∨ k % 4096 = 0x04C)

/-- AUTO phases are monitored until the next power-on (R345). -/
def State.pqForget (s : State) : List Nat → State
  | [] => s
  | p :: t => (s.setRegBit pgPQE 0x04C (4 * p) false).pqForget t

/-- What only a power-on reset resets (R531): Ridgeline, the tick counter, the contents of RAM, everything that stands on ticks. -/
def State.powerReset (s : State) : State :=
  let s := s.settle
  let s := s.clearRegs fun k => (decide (k / 4096 = pgPHT) && decide (0x40 ≤ k % 4096) && !isConfig k) || isSincePowerOn k
  let s := { s with tick := 0, ridge := {}, sram := [],
                    sys := { s.sys with faultAts := [] },
                    upd := { s.upd with usedAt := 0, secondAt := 0 },
                    net := { s.net with refreshed := 0 },
                    power := { s.power with mainsGood := false, pf := false, decidedAt := 0, good := 0, low := 0, rail := true,
                                            storeAt := 0, capDone := false, capAt := 0 } }
  (((s.pqForget [0, 1, 2]).setPwrState pwStart).startCharge).crnPowerOn.bump pgSYS 0x100

/-! ### Images (R493, R496) -/

/-- A start of a trial image that ended in a reset other than after a save counts as failed; the third makes the boot code fall
back. -/
def State.countFailed (s : State) (cause : Nat) : State :=
  if s.onTrial && (2 ≤ cause && cause ≤ 5) then
    let n := s.regFld pgUPD 0x040 16 4 + 1
    if 3 ≤ n then s.fallBack 2 else s.setRegFld pgUPD 0x040 16 4 n
  else s

/-- Copy the chunks of a slot to another: keys `unit` per slot. -/
def copySlot (unit src dst : Nat) : Tbl (List Word) → Tbl (List Word) → Tbl (List Word)
  | [], t => t
  | (k, w) :: r, t => copySlot unit src dst r (if k / unit = src then Tbl.set (fun _ => []) t (unit * dst + k % unit) w else t)

/-- Install an ARMED staging image (Table UPD-4). Chunks that mismatch abandon it. -/
def State.install (s : State) (b : BootFacts) : State :=
  if s.updStage ≠ sgArmed then s
  else
    match b.badChunks with
    | i :: _ =>
      let s := ((s.clearChunks b.badChunks).setUpdStage sgChunks).setReg pgUPD 0x06C 4
      (s.record (256 * pgUPD + s.freeWord.toNat % 256) [s.upd.staging, i]).draw
    | [] =>
      let u := s.upd
      let x := u.fallback
      let inX := fun unit (k : Nat) => decide (k / unit = x)
      let m := s.imageOf u.staging
      let old := s.activeImage
      let u' : Update := { u with
        chunks := copySlot 8192 u.staging x u.chunks (Tbl.clear (inX 8192) u.chunks),
        manifs := copySlot 128 u.staging x u.manifs (Tbl.clear (inX 128) u.manifs),
        image := Tbl.set (fun _ => {}) u.image x m, active := x, fallback := u.active, copies := 0, confirm := false,
        oldArea := if m.setFmt = old.setFmt then none else some s.regs }
      let s := ({ s with upd := u' }).writeDir.discardStaging
      let st := setBit (setBit (setFld (setFld (s.reg pgUPD 0x040) 0 3 sgEmpty) 16 4 0) 4 true) 6 true
      let s := ((s.setReg pgUPD 0x040 st).setReg pgUPD 0x058 old.fw).setReg pgUPD 0x050 (s.reg pgUPD 0x04C)
      s.setPend pgUPD 2

/-! ### Warm or cold (R535, R281) -/

/-- The decision. -/
def State.startsWarm (s : State) (b : BootFacts) : Bool :=
  match s.sys.save with
  | some r => s.sys.draft.isNone && r.complete && !r.consumed && b.crcOk && b.readable && r.warmOk && r.fmt = s.activeImage.saveFmt && !s.regBit pgSYS 0x048 1
  | none => false

/-- The forces in force. -/
def State.forcedPts (s : State) : List Nat := s.listed pgPTM 0x10 32 (pointLimit s.small) fun w => bit w 0

/-- Every force is released with a record of point and forced value (Table PTM-9). -/
def State.releaseAll (s : State) : List Nat → State
  | [] => s
  | p :: t =>
    let v := (s.ptFval p).toNat
    ((s.release p).record 0x0620 [p, v]).releaseAll t

/-- The archive entry with which a slot starts (R281): that of the recorded generation, else the newer one. -/
def State.archived (s : State) (n : Nat) (want : Option Nat) : Option Prog :=
  let es := (s.loader.archive.filter fun e => e.1 = n).map (·.2)
  (es.find? fun e => some e.gen = want).orElse fun _ => es.head?

/-- A slot holds the program of its archive entry: the points are adjusted as a switch would, after the forces among them are
released (R281). -/
def State.adjustSlot (s : State) (n : Nat) (old : Option Prog) (a : Prog) : State :=
  let r := s.placeSects a.sects
  let x := r.1.slot n
  let y : Slot := { x with state := if x.state = 2 then 2 else 1, prog := some a, sects := r.2, codeAt := (s.placeCode a).getD 0,
                           edges := edgeTable a.edgeInit, timers := [] }
  let s := if x.state = 1 || x.state = 2 then r.1.setSlot n y else (r.1.setSlot n y).slotCount true
  let s := s.releaseAll ((s.forceItems a.ctx old a.pdefs a.written).filter s.ptForced)
  s.applyPoints n a.ctx old (some a)

/-- Every slot starts from its archive entry, and each adjusted or mismatching slot is recorded (R281). `valid` says that MRAM's record of
the generations can be read. -/
def State.fromArchive (s : State) (valid : Bool) : List Nat → State
  | [] => s
  | n :: t =>
    let x := s.slot n
    let want := if valid then Tbl.get (fun _ => none) s.loader.recorded n else none
    let old := if x.state = 1 || x.state = 2 then x.prog else none
    (if x.loading || (old.isNone && want.isNone) then s
     else match s.archived n want with
       | none => s
       | some a =>
         let same := old.map (·.gen) = some a.gen
         let u := (if same then s else s.adjustSlot n old a).noteGen n
         if same && want = some a.gen then u
         else u.record 0x0722 [n, want.getD 0, a.gen]).fromArchive valid t

/-- The slots that hold a program or whose generation MRAM records. -/
def State.startSlots (s : State) : List Nat :=
  s.slots.map (·.1) ++ (s.loader.recorded.map (·.1)).filter fun n => !s.slots.any fun e => e.1 = n

/-- Timers as elapsed times at the save (R249). -/
def Timer.elapsed (at_ : Nat) (t : Timer) : Timer := if t.run then { t with start := since64 at_ t.start } else t

/-- The sections of a slot with the content that they start from: committed copies of the save, or initial values. -/
def startContent (img : SaveImg) (old : Slot) (same : Bool) : List (Sect × Nat) → Nat → List (Nat × List Byte)
  | [], _ => []
  | (x, a) :: t, k =>
    let keep := same && x.retained
    let c := readBytes img.sram ((old.sects[k]?).getD 0) (if keep then x.len else 0)
    (a, if keep then c ++ c else x.start) :: startContent img old same t (k + 1)

/-- A slot after a restart (Table SCN-4): from the save where its generation is the same, else from initial values. -/
def State.restartSlot (s : State) (warm : Bool) (img : SaveImg) (n : Nat) : State :=
  let x := s.slot n
  match x.prog with
  | none => s
  | some g =>
    let old := Tbl.get (fun _ => {}) img.slots n
    let same := warm && decide (old.prog.map (·.gen) = some g.gen)
    let st := if x.state = 0 then 0 else if same then old.state else 1
    let y : Slot := { x with state := st, faults := if same then old.faults else 0, faulted := same && old.faulted, rebase := same,
                             timers := if same then Tbl.mapVals (fun _ => {}) (Timer.elapsed img.at_) old.timers else [],
                             edges := if same then old.edges else edgeTable g.edgeInit, restarting := none,
                             loadedAt := x.loadedAt.map fun _ => 0 }
    (s.setSlot n y).storeAll (startContent img old same (g.sects.zip x.sects) 0)
def State.restartSlots (s : State) (warm : Bool) (img : SaveImg) : List Nat → State
  | [] => s
  | n :: t => (s.restartSlot warm img n).restartSlots warm img t

/-- The meter continues from a copy (R329). -/
def State.restoreMeter (s : State) (c : MeterCopy) : State :=
  { s with regs := Tbl.overlay meterKept c.words s.regs, meter := { s.meter with acc := c.acc } }

/-- LPE words that are neither configuration nor counters: the state of loops and sections (Table LPE-5). -/
def isLoopState (k : Nat) : Bool := decide (keyPage k = pgLPE) && 4294967296 ≤ k && !isConfig k && !isCounter k

/-- A warm start (R535): forces, USES, point values and loop states of the save, then the slots from their archive entries. -/
def State.warmStart (s : State) (r : SaveRec) : State :=
  let keep := fun k => isForce k || isUses k || isLoopState k
  let s := { s with regs := Tbl.overlay keep r.img.regs s.regs, points := { s.points with val := r.img.val },
                    loops := { s.loops with loop := r.img.loop } }
  let s := s.recountPtm.fromArchive true s.startSlots
  let s := match s.meter.saved with | some c => s.restoreMeter c | none => s
  let s := s.restartSlots true r.img (s.slots.map (·.1))
  (s.bump pgSYS 0x104).record 0x0121 []

/-- Initial values of the points that a program defines. -/
def State.initPoints (s : State) (c : Nat) : List PDef → State
  | [] => s
  | d :: t =>
    (match s.windowPoint c d.idx with
     | some p => s.setPtStored p (normalise d.typ (d.value.getD 0))
     | none => s).initPoints c t
def State.initAllPoints (s : State) : List (Nat × Slot) → State
  | [] => s
  | (_, x) :: t => (match x.prog with | some g => if x.state = 0 then s else s.initPoints g.ctx g.pdefs | none => s).initAllPoints t

/-- The four terms of the credit sum. -/
def State.crdTerms (s : State) : List Nat := [s.crd crFree, s.crd crQuota, s.crd crQueued, s.crd crFlight]

/-- The counters of the bus pages that are not 0 (Table ARCH-6, bus statistics), as (page, offset, value). -/
def State.busCounts (s : State) : List (Nat × Nat × Nat) :=
  s.regs.filterMap fun e =>
    let pg := e.1 / 4096
    if isCounter e.1 ∧ e.1 < 1073741824 ∧ ((List.range 14).any fun ch => busPage ch = pg) ∨ (isCounter e.1 ∧ (pg = pgT1S 0 ∨ pg = pgT1S 1)) then
      some (pg, e.1 % 4096, e.2.toNat)
    else none
def State.recordCounts (s : State) : List (Nat × Nat × Nat) → State
  | [] => s
  | (pg, o, v) :: t => (s.record 0x0120 [5, pg, o, v]).recordCounts t
def State.recordOwed (s : State) : List Nat → State
  | [] => s
  | n :: t => (s.record 0x0120 [2, n, s.plsOwed n, s.plsBacklog n]).recordOwed t

/-- The records of R32, one for each quantity that a cold restart resets, with the value held before: the pulses that each output owes and
its backlog, the terms of the credit sum as they were before the reset, and each counter of the buses (the layout is the model's, log
entry 56). -/
def State.coldRecords (s : State) (terms : List Nat) : State :=
  ((s.recordOwed (List.range 8)).record 0x0120 (3 :: terms)).recordCounts s.busCounts

/-- The credit pool is reinitialised: every credit free, then AVAIL := ALLOC for each context (Table BUS-4). -/
def State.fillAvail (s : State) : List Nat → State
  | [] => s
  | c :: t => (s.setInd pgPool (0x100004 + 8 * c) (word (s.crdAlloc c))).fillAvail t
def State.resetPool (s : State) : State :=
  let s := s.fillAvail (List.range (ctxLimit s.small))
  let q := ((List.range (ctxLimit s.small)).map s.crdAlloc).sum
  let s := ((s.setReg pgPool crQuota (word q)).setReg pgPool crQueued 0).setReg pgPool crFlight 0
  let s := s.setReg pgPool crFree (word (creditTotal s.small - q))
  s.setReg pgPool 0x318 (word q)

/-- Loops that were RUNNING run the start procedure at their first anchor (Table LPE-5). -/
def State.startLoops (s : State) : List Nat → State
  | [] => s
  | n :: t => (if s.lpState n = lpRunning then s.setLoopRec n { s.loopRec n with starting := true } else s).startLoops t

/-- High-water marks are set to the current counts, other marks and figures since the last cold restart to 0. -/
def State.resetMarks (s : State) : State :=
  let s := (lpeHwmEffect 7 (ptmHwmEffect 15 s).1).1
  let s := (ldrHwmEffect 1 s).1.hwmOne pgKEY 0x048 0x04C true
  let s := ((List.range 10).map busPage).foldl (fun (s : State) pg => s.hwmOne pg 0x070 0x074 true) s
  { (s.setReg pgLPE 0x048 0).setReg pgPWR 0x068 0 with scan := { s.scan with views := [] } }

/-- The USES of entries that were in use at the last orderly save (Table PTM-9). -/
def State.coldUses (s : State) : State :=
  match s.sys.save with
  | some r =>
    if r.complete then
      let inUse := fun k => isUses k && (Tbl.get (RegMap.resetWord s.small) r.img.regs (k + 4) ≠ 0)
      { s with regs := Tbl.overlay inUse r.img.regs s.regs }
    else s
  | none => s

/-- The meter at a cold start: from a valid save, else from the checkpoint with a record (R329). -/
def State.coldMeter (s : State) (valid : Bool) : State :=
  match valid, s.meter.saved with
  | true, some c => s.restoreMeter c
  | _, _ => (s.restoreMeter s.meter.copy).record 0x1220 [s.meter.copy.seq.toNat, s.meter.copy.stamp]

/-- DRAINED of every output, whose OWED and BACKLOG are 0 (R342). -/
def State.drainAll (s : State) : List Nat → State
  | [] => s
  | n :: t => (s.setRegBit pgPLS (plsOfs n 0x10) 1 (!s.plsEn n)).drainAll t

/-- A cold start (R32, R535, R536). `valid` says that the save record is complete, unconsumed and readable, `mram` that the record of the
slots' generations can be read, `terms` the credit sum's terms before the reset. -/
def State.coldStart (s : State) (valid mram : Bool) (terms : List Nat) : State :=
  let s := s.coldRecords terms
  let s := (s.releaseAll s.forcedPts).coldUses
  let s := s.recountPtm.fromArchive mram s.startSlots
  let s := { s with points := { s.points with val := [] } }
  let s := (s.initAllPoints s.slots).restartSlots false {} (s.slots.map (·.1))
  let s := (s.coldMeter valid).clearRegs fun k =>
    (isCounter k && !((keyPage k = pgSYS || runsThrough (keyPage k)))) ||
    (decide (k / 4096 = pgPLS) && decide (0x040 ≤ k % 4096) && decide (k % 4096 < 0x140) && decide (0x10 ≤ k % 32)) ||
    (decide (k / 4096 = pgFAB) && decide (0x0E0 ≤ k % 4096) && decide (k % 4096 < 0x0F0)) ||
    (decide (k / 4096 = pgPTM) && (decide (0x078 ≤ k % 4096 ∧ k % 4096 < 0x080) || decide (0xC00 ≤ k % 4096)))
  let s := (((s.resetPool).startLoops s.confLoops).resetMarks).drainAll (List.range 8)
  let s := { s with sys := { s.sys with draft := none,
                                        save := s.sys.save.map fun (r : SaveRec) => ({ r with consumed := true } : SaveRec) },
                    meter := { s.meter with pq := if valid then s.meter.pq else [] },
                    bus := Tbl.mapVals (fun _ => {}) (fun (b : BusCh) => { b with truncated := 0 }) s.bus }
  s.bump pgSYS 0x108

/-! ### The start sequence (Table SYS-2) -/

/-- Page summaries that are up after the restart fire (R434). -/
def State.fireSummaries (s : State) : List Nat → State
  | [] => s
  | pg :: t => (if s.present pg && s.summary pg then s.fire pg else s).fireSummaries t

/-- Step 7: the I/O domains are released, RUN := AUTORUN (R534). -/
def State.releaseIo (s : State) : State :=
  let s := { s with sys := { s.sys with released := true },
                    upd := { s.upd with secondAt := s.tick + ftPerS } }
  let s := (s.setRegBit pgSCN 0x040 0 (s.regBit pgSYS 0x048 0)).setSysState ssWait
  let s := if !s.power.pf then s.unshed.shedBit 3 false else s
  (((s.linksStart s.allLinks).alOwed s.rtc.owed).fireSummaries allPages).leaveStart

/-- The start (R530 to R536): the reset with its cause, images, the decision, the content, the release. -/
def State.boot (s : State) (cause : Nat) (b : BootFacts) : State :=
  let power := decide (cause ≤ 3)
  let fault := s.sys.fault
  let at_ := if power then 0 else s.tick
  let ridge : Ridge := if power then {} else { s.ridge with owed := [] }
  let terms := s.crdTerms
  let s := s.blockReset power
  let s := if power then s.powerReset.rtcPowerOn else s
  let s := { s with sys := { s.sys with released := false, firstDone := false, resetAt := s.tick, restart := 0, restartCause := 0,
                                        saveCause := 0, fault := 0, faultSaved := false, held := 0 } }
  let s := s.setRegBit pgSYS 0x058 8 false
  let s := ((s.makeRoot s.lifecycle).burstReset.expireKeys (List.range (keyLimit s.small))).showId
  let s := ((s.countFailed cause).install b).setSysState ssRestore
  let s := if b.readable then s else s.draw.uncorrectable dmMram (s.freeWord.toNat % 16) (s.freeWord.toNat / 16 % 1048576)
  let warm := s.startsWarm b
  let valid := s.sys.draft.isNone && b.crcOk && b.readable && (match s.sys.save with | some r => r.complete && !r.consumed | none => false)
  let s := match warm, s.sys.save with
    | true, some r => s.warmStart r
    | _, _ => s.coldStart valid b.readable terms
  let s := (s.setRegBit pgSYS 0x040 8 warm).setRegBit pgSYS 0x040 9 warm
  let s := (s.setRegBit pgSYS 0x048 1 false)
  let s := s.setReg pgSYS 0x044 (word (cause + 256 * fault))
  ({ s with sys := { s.sys with cold := !warm }, tick := at_, ridge := ridge } : State).releaseIo

/-- MAINS_APPLIED (R532): mains reaches an unpowered module, or the start after a released power-on reset goes on. Mains is good only
when its half-cycle values have declared it (R79). -/
def mainsApplied (b : BootFacts) (s : State) : State :=
  if s.power.powered && (s.sys.released || s.sys.held ≠ 0) then s
  else if s.pwrState = pwDown then s
  else ({ s with power := { s.power with powered := true, pf := false } }).boot 1 b
def execMainsApplied (b : BootFacts) (s : State) : Out := event (fun s => mainsApplied b s) s

/-- SYSTEM_RESET (R531), with a cause of Table SYS-1. A save that runs ends first (R85): its end brings the reset. HALTED ends only by the
watchdog, which runs there too, and by SYS.RESTART (R541, R542). -/
def systemReset (cause : Nat) (b : BootFacts) (s : State) : State :=
  if s.alive && 4 ≤ cause && cause ≤ 7 && !s.saving && (s.sysState ≠ ssHalted || cause = 4 || cause = 6) then s.boot cause b else s
def execSystemReset (cause : Nat) (b : BootFacts) (s : State) : Out := event (fun s => systemReset cause b s) s

/-- MAINS_GOOD_IN_DOWN (R85, Table PWR-4). -/
def mainsGoodInDown (b : BootFacts) (s : State) : State :=
  if s.pwrState = pwDown then
    let s := s.settle
    let s := ({ s with power := { s.power with powered := true, pf := false } }).boot 1 b
    (({ s with power := { s.power with mainsGood := true } }).setPend pgPWR 1).leaveStart
  else s
def execMainsGoodInDown (b : BootFacts) (s : State) : Out := event (fun s => mainsGoodInDown b s) s

/-- The terminals while the module is unpowered or held in reset (Table ELE-19): sense links, uplinks and 24V_SNS are off, and in a
power-on reset the Col link is down. -/
def State.linksOff (s : State) : List Nat → State
  | [] => s
  | k :: t => ((s.linkOff k).linksOff t)
def State.dark (s : State) : State :=
  let s := (s.linksOff s.allLinks).resetPorts [2, 3]
  let s := s.snsOff
  { s with pair := { s.pair with up := false } }

/-- V_MIN_REACHED (R85): without mains the store comes to V_MIN, and the module is unpowered. A save comes first and runs to its end. -/
def vMinReached (s : State) : State :=
  if s.pwrState = pwRide then vSaveReached s
  else if s.storeFeeds && s.pwrState ≠ pwSave && s.sysState ≠ ssSave then
    let s := ((s.until (s.storeTick 2800)).storeVolt 2800).setPwrState pwStart
    let s := s.endWork.dark.rtcPowerOff
    { s with power := { s.power with powered := false, mainsGood := false, pf := false }, sys := { s.sys with released := false } }
  else s
def execVMinReached (s : State) : Out := event (fun s => vMinReached s) s

/-- SAVE_COMPLETE (R85, R539, R547, Table PWR-4): the save of a module fault, of a power failure, or before a restart. -/
def saveComplete (tenths : Nat) (b : BootFacts) (s : State) : State :=
  if s.saving then
    let again := s.sys.fault ≠ 0 && s.sys.faultSaved && s.sys.saveCause ≠ 6 && s.sys.saveCause ≠ 7
    let s := if again then s else s.sealSave tenths
    let s := if s.sys.restart = 2 then
        { s with sys := { s.sys with save := s.sys.save.map fun (r : SaveRec) => ({ r with warmOk := false } : SaveRec) } } else s
    if s.pwrState = pwSave then
      if s.power.mainsGood then s.boot 1 b
      else
        let s := s.dark.rtcPowerOff.enterPwr pwDown
        { s with power := { s.power with powered := false }, sys := { s.sys with released := false } }
    else s.boot s.sys.saveCause b
  else if s.faultSaveDue && s.alive then
    let s := ((s.writeSave 5).setReg pgPWR 0x080 0).sealSave tenths
    let s := { s with sys := { s.sys with faultSaved := true } }
    if s.sys.restart = 0 then s else s.boot s.sys.restartCause b
  else s
def execSaveComplete (tenths : Nat) (b : BootFacts) (s : State) : Out := event (fun s => saveComplete tenths b s) s

/-! ### Rail and clock (R73, R544) -/

/-- The module is held in a power-on reset from its fault ft (R73, R544): Ridgeline's series of anchors ends (R19), and the terminals
take their states in reset. -/
def State.hold (s : State) (why : Nat) : State :=
  let s := s.dark.breakLanes
  { s with sys := { s.sys with held := why, released := false }, ridge := {} }

/-- RAIL_OUT_OF_TOLERANCE (R73): module fault and reset in the same ft; RAIL_STAT records the rails. -/
def railOutOfTolerance (rails : BitVec 3) (s : State) : State :=
  if s.alive && rails ≠ 0 then ((s.moduleFault mfRail).setRegFld pgPWR 0x05C 0 3 rails.toNat).hold 2 else s
def execRailOutOfTolerance (rails : BitVec 3) (s : State) : Out := event (fun s => railOutOfTolerance rails s) s

/-- RAIL_RECOVERED (R73). -/
def railRecovered (b : BootFacts) (s : State) : State := if s.sys.held = 2 then s.boot 2 b else s
def execRailRecovered (b : BootFacts) (s : State) : Out := event (fun s => railRecovered b s) s

/-- CLOCK_FAILURE (R544). -/
def clockFailure (s : State) : State := if s.alive then (s.moduleFault mfClock).hold 3 else s
def execClockFailure (s : State) : Out := event (fun s => clockFailure s) s

/-- CLOCK_RECOVERED (R544). -/
def clockRecovered (b : BootFacts) (s : State) : State := if s.sys.held = 3 then s.boot 3 b else s
def execClockRecovered (b : BootFacts) (s : State) : Out := event (fun s => clockRecovered b s) s

/-! ### Watchdog, fault delay, restart (R541, R542, R547) -/

/-- SUPERVISOR_WATCHDOG_EXPIRY (R542): 200,000,000 ft without a kick, the start being the first, module fault and reset; in a save, which runs to its end (R85), the reset follows it. -/
def supervisorWatchdogExpiry (b : BootFacts) (s : State) : State :=
  if s.alive then
    let s := s.expire (s.sys.resetAt + 200000000)
    let t := (s.bump pgSYS 0x110).moduleFault mfWdtSup
    if s.saving then { t.setSysState ssSave with sys := { t.sys with saveCause := if s.pwrState = pwSave then s.sys.saveCause else 4 } }
    else t.boot 4 b
  else s
def execSupervisorWatchdogExpiry (b : BootFacts) (s : State) : Out := event (fun s => supervisorWatchdogExpiry b s) s

/-- FAULT_DELAY_EXPIRY (R541): the reset, or HALTED at the FAULT_LIMIT-th fault of the window. -/
def faultDelayExpiry (b : BootFacts) (s : State) : State :=
  if s.alive && s.faulted && s.sysState = ssFault && !s.regBit pgSYS 0x054 0 && !s.faultSaveDue && s.pwrState ≠ pwSave then
    let s := s.until (s.sys.faultAt + s.regFld pgSYS 0x054 8 8 * 10 * ftPerMs)
    if s.regFld pgSYS 0x054 16 4 ≤ s.regFld pgSYS 0x058 12 4 && !s.onTrial then
      (((s.setSysState ssHalted).bump pgSYS 0x114).setPend pgSYS 3).record 0x0103 [s.sys.fault]
    else s.boot 5 b
  else s
def execFaultDelayExpiry (b : BootFacts) (s : State) : Out := event (fun s => faultDelayExpiry b s) s

/-- A write of SYS.RESTART (R547). -/
def restartEffect (data : Word) (s : State) : State × Nat :=
  let kind := fld data 0 2
  if fld data 16 16 = 0x5253 ∧ (kind = 1 ∨ kind = 2) then
    (if s.faultSaveDue then { s with sys := { s.sys with restart := kind, restartCause := 6 } } else s.askRestart 6 kind, stOk)
  else (s, stInvalid)

/-- SYS_RESTART (R547). -/
def execSysRestart (p : Path) (data : Word) (s : State) : Out :=
  access (fun s => s.port p pgSYS false (restartEffect data)) s

/-- HANDOVER_TIMEOUT (R519): 1 s without an acknowledged FINAL COPY, and the module goes on without the flag. -/
def handoverTimeout (s : State) : State :=
  if s.pair.wish = 0 || s.pair.flagged then s
  else
    let w := s.pair.wish
    let s := s.expire (s.pair.wishAt + ftPerS)
    let s := { s with pair := { s.pair with wish := 0 } }
    if w = 2 then s.startSave false s.sys.restartCause else s
def execHandoverTimeout (s : State) : Out := event (fun s => handoverTimeout s) s

end Sys2Proof.Machine
end

