-- ==== Sys2Proof/Machine/Copy.lean ====
section
/-! DEFINITION. The content of COPY (R513, Table PAR-5): which words are content, their values, which are dirty, and what the standby
does with a received word. The layout of a word is the model's (log entry 7). -/

namespace Sys2Proof.Machine

set_option cleanup.letToHave false

open Sys2Proof.Config

/-! ### Words of 256 bits -/

/-- Fields of a number, lowest first, as (width, value). -/
def pack : List (Nat × Nat) → Nat
  | [] => 0
  | (w, v) :: t => v % 2 ^ w + 2 ^ w * pack t
/-- `len` bits of a number from `lo`. -/
def cut (x lo len : Nat) : Nat := x / 2 ^ lo % 2 ^ len
abbrev wide (n : Nat) : BitVec 256 := BitVec.ofNat 256 n

/-! ### Register words -/

/-- The registers that a copy word may hold, in order. -/
def wordKeys (a : Nat) : List Nat :=
  let i := a % 16777216
  let base :=
    match a / 16777216 with
    | 1 => ikey pgPTM (32 * (i - 0x8000))
    | 3 => ikey pgLPE (32 * i)
    | 4 => if i < 0x10000 then ikey pgMTR (32 * i)
      else if i < 0x28000 then dkey pgPLS (32 * (i - 0x20000)) else dkey pgMLG (32 * (i - 0x28000))
    | 5 => ikey (0x18 + i / 0x80000) (32 * (i % 0x80000))
    | 6 => ikey pgTUN (32 * i)
    | _ => dkey (i / 128) (32 * (i % 128))
  (List.range 8).map fun j => base + 4 * j

/-- Those of them that are content. -/
def heldKeys (a : Nat) : List (Nat × Nat) := (wordKeys a).zipIdx.filter fun e => decide (copyOf e.1 = some a)

/-! ### Slots (region 2) -/

/-- A timer with its elapsed time at tick `at_` (R249). -/
def timerBits (at_ : Nat) (t : Timer) : Nat :=
  pack [(64, (t.elapsed at_).start), (1, b2n t.run), (1, b2n t.q), (1, b2n t.last), (61, 0)]
def timerOf (x : Nat) : Timer := ⟨cut x 64 1 = 1, cut x 0 64, cut x 65 1 = 1, cut x 66 1 = 1⟩

/-- The slot table's word. -/
def slotHeader (x : Slot) : Nat :=
  let ch : Change := x.change.getD { beside := 0 }
  let gen := match x.prog with | some g => g.gen | none => 0
  pack [(3, x.state), (1, b2n x.faulted), (1, b2n x.restarting.isSome), (1, b2n x.loading), (1, b2n x.prog.isSome), (1, b2n x.change.isSome),
    (8, x.faults), (16, gen), (1, b2n x.unload.isSome), (1, b2n ch.armed.isSome), (1, b2n ch.unmirrored), (1, b2n x.holderOf.isSome),
    (12, ch.beside), (12, x.holderOf.getD 0), (8, x.sects.length), (32, x.codeAt)]

def State.slotWord (s : State) (n w : Nat) : Nat :=
  let x := s.slot n
  let t := fun i => Tbl.get (fun _ => ({} : Timer)) x.timers i
  if w < 32 then pack [(128, timerBits s.scan.capture (t (2 * w))), (128, timerBits s.scan.capture (t (2 * w + 1)))]
  else if w = 64 then pack ((List.range 256).map fun i => (1, b2n (Tbl.get (fun _ => false) x.edges i)))
  else if w = 65 then slotHeader x
  else pack ((List.range 8).map fun i => (32, (x.sects[8 * (w - 66) + i]?).getD 0))

/-- The program of a slot as the standby's archive holds it (R523). -/
def State.archiveProg (s : State) (slot gen : Nat) : Option Prog :=
  (s.loader.archive.find? fun e => e.1 = slot && e.2.gen = gen).map (·.2)

/-- A slot takes a received word. -/
def State.takeSlotWord (s : State) (n w x : Nat) : State :=
  let y := s.slot n
  if w < 32 then
    let t := Tbl.set (fun _ => {}) (Tbl.set (fun _ => {}) y.timers (2 * w) (timerOf (cut x 0 128))) (2 * w + 1) (timerOf (cut x 128 128))
    s.setSlot n { y with timers := t, rebase := true }
  else if w = 64 then s.setSlot n { y with edges := (List.range 256).filterMap fun i => if cut x i 1 = 1 then some (i, true) else none }
  else if w = 65 then
    let gen := cut x 16 16
    let holder := if cut x 35 1 = 1 then some (cut x 48 12) else none
    let old := match y.prog with | some g => if g.gen = gen then some g else none | none => none
    let prog := if cut x 6 1 = 0 then none else (s.archiveProg (holder.getD n) gen).orElse fun _ => old
    let change : Option Change :=
      if cut x 7 1 = 1 then some ⟨cut x 36 12, if cut x 33 1 = 1 then some 0 else none, cut x 34 1 = 1⟩ else none
    s.setSlot n { y with
      state := cut x 0 3, faulted := cut x 3 1 = 1, restarting := if cut x 4 1 = 1 then some 0 else none, loading := cut x 5 1 = 1,
      loadedAt := if cut x 5 1 = 1 then some 0 else none, unload := if cut x 32 1 = 1 then some 0 else none, faults := cut x 8 8,
      prog := prog, change := change, holderOf := holder, codeAt := cut x 68 32, rebase := true,
      sects := (List.range (cut x 60 8)).map fun i => (y.sects[i]?).getD 0 }
  else
    let at_ := fun i => if 8 * (w - 66) ≤ i ∧ i < 8 * (w - 66) + 8 then cut x (32 * (i - 8 * (w - 66))) 32 else (y.sects[i]?).getD 0
    s.setSlot n { y with sects := (List.range (max y.sects.length (if w = 66 then 8 else 16))).map at_ }

/-! ### Loops (region 3) and the meter (region 4) -/

def loopBits (x : Loop) : Nat :=
  pack [(32, x.lastOut.toNat), (32, x.pvPrev.toNat), (13, x.pvPt), (13, x.spPt), (13, x.outPt), (1, b2n x.enabling.isSome),
    (1, b2n x.starting), (8, x.good)]
def State.takeLoopWord (s : State) (n x : Nat) : State :=
  s.setLoopRec n { s.loopRec n with
    lastOut := word (cut x 0 32), pvPrev := word (cut x 32 32), pvPt := cut x 64 13, spPt := cut x 77 13, outPt := cut x 90 13,
    enabling := if cut x 103 1 = 1 then some 0 else none, starting := cut x 104 1 = 1, good := cut x 105 8 }

/-- The unreleased window sums of a channel (R328). -/
def State.windowBits (s : State) (c : Nat) : Nat :=
  let x := s.chan c
  pack [(128, wrapInt 128 (unreleased 0 x.e)), (128, wrapInt 128 (unreleased 0 x.r))]

/-! ### Any word -/

/-- The value of a word of the copied content. -/
def State.copyWord (s : State) (a : Nat) : BitVec 256 :=
  let i := a % 16777216
  wide (match a / 16777216 with
    | 0 => ofLeBytes (readBytes s.sram (32 * i) 32)
    | 2 => s.slotWord (i / 4096) (i % 4096)
    | r =>
      if r = 1 ∧ i < 0x8000 then pack ((List.range 4).map fun j => (64, (s.ptStored (4 * i + j)).toNat))
      else if r = 3 ∧ 0x10000 ≤ i then loopBits (s.loopRec (i - 0x10000))
      else if r = 4 ∧ 0x10000 ≤ i ∧ i < 0x18000 then s.residue ((i - 0x10000) / 8) ((i - 0x10000) % 8)
      else if r = 4 ∧ 0x18000 ≤ i ∧ i < 0x20000 then s.windowBits (i - 0x18000)
      else ((heldKeys a).map fun e => (s.getKey e.1).toNat * 2 ^ (32 * e.2)).sum)

/-! ### What is dirty (R513, R514) -/

/-- The ranges of data SRAM words that hold committed copies and non-retained sections (R200), as (first, count). -/
def State.sramContent (s : State) : List (Nat × Nat) :=
  s.slots.flatMap fun e =>
    match e.2.prog with
    | none => []
    | some g => (g.sects.zip e.2.sects).map fun x => (x.2 / 32, ceilDiv (x.2 % 32 + x.1.len) 32)

/-- The word is content of Table PAR-5. -/
def State.isContent (s : State) (a : Nat) : Bool :=
  let i := a % 16777216
  match a / 16777216 with
  | 0 => s.sramContent.any fun r => decide (r.1 ≤ i) && decide (i < r.1 + r.2)
  | 2 => decide (i / 4096 < slotLimit s.small) && (decide (i % 4096 < 32) || (decide (64 ≤ i % 4096) && decide (i % 4096 < 68)))
  | r =>
    if r = 1 ∧ i < 0x8000 then decide (4 * i < pointLimit s.small)
    else if r = 3 ∧ 0x10000 ≤ i then decide (i - 0x10000 < 1088)
    else if r = 4 ∧ 0x10000 ≤ i ∧ i < 0x18000 then decide (i - 0x10000 < 416)
    else if r = 4 ∧ 0x18000 ≤ i ∧ i < 0x20000 then decide (i - 0x18000 < 52)
    else decide (r ≤ 7) && !(heldKeys a).isEmpty

/-- Put a range into ascending order. -/
def putRange (r : Nat × Nat) : List (Nat × Nat) → List (Nat × Nat)
  | [] => [r]
  | x :: t => if r.1 ≤ x.1 then r :: x :: t else x :: putRange r t

/-- Every word of every region, in ascending address. -/
def State.allContent (s : State) : List Nat :=
  let r0 := s.sramContent.foldl (fun l r => putRange r l) []
  let rest := [(0x01000000, 0x0F000), (0x02000000, slotLimit s.small * 4096), (0x03000000, 0x10440), (0x04000000, 0x28020),
    (0x05000000, 16 * 0x80000), (0x06000000, 512), (0x07000000, 0x2A * 128)]
  ((r0 ++ rest).flatMap fun r => (List.range r.2).map (r.1 + ·)).filter s.isContent

/-- The dirty words in ascending address. -/
def State.dirtyWords (s : State) : List Nat :=
  let single := (s.dirty.map (·.1)).filter s.isContent
  match s.pair.dirtyFrom with
  | none => single
  | some b => single.filter (· < b) ++ s.allContent.filter (b ≤ ·)

/-- Clear the marks of captured words: those up to the last captured address, the lowest first (R514). -/
def State.clearDirty (s : State) (last : Nat) (rest : List Nat) : State :=
  let from_ := match s.pair.dirtyFrom with
    | none => none
    | some b => if last < b then some b else if rest.isEmpty then none else some (last + 1)
  { s with dirty := Tbl.clear (fun a => decide (a ≤ last)) s.dirty, pair := { s.pair with dirtyFrom := from_ } }

/-! ### What the standby does with a word -/

/-- A register word takes a received value, with what follows from it: shadows, enables in force, modes, generators. -/
def State.takeKey (s : State) (k : Nat) (w : Word) : State :=
  let was := s.getKey k
  if k < 1073741824 then
    let pg := k / 4096
    let o := k % 4096
    if was = w then s
    else if o = 0x040 ∧ 0x18 ≤ pg ∧ pg ≤ 0x27 then (busCtlEffect (if pg < 0x20 then pg - 0x18 else pg - 0x20 + 6) w s).1
    else
      let s := (s.setKey k w)
      let s := if isShadow k then { s with shadow := Tbl.set (RegMap.resetWord s.small) s.shadow k w } else s
      if pg = pgSCN ∧ 0x060 ≤ o ∧ o < 0x0A0 then (s.genFrom (genClass ((o - 0x060) / 8))).genFrom (genRef ((o - 0x060) / 8))
      else if pg = pgLPE ∧ 0x100 ≤ o ∧ o < 0x140 then s.genFrom (genGroup ((o - 0x100) / 4))
      else if pg = pgINT ∧ 0x060 ≤ o ∧ o < 0x070 then
        { s with intc := { s.intc with en := Tbl.set (fun _ => 0) s.intc.en ((o - 0x060) / 4) w } }
      else if pg = pgDIO ∧ 0x1C0 ≤ o ∧ o < 0x1E0 then s.setRegBit pgDIO 0x070 ((o - 0x1C0) / 4) (bit w 31)
      else s
  else s.setKey k w
def State.takeKeys (s : State) (x : Nat) : List (Nat × Nat) → State
  | [] => s
  | e :: t => (s.takeKey e.1 (word (cut x (32 * e.2) 32))).takeKeys x t

def State.takePoints (s : State) (p x : Nat) : Nat → State
  | 0 => s
  | j + 1 => (s.takePoints p x j).setPtStored (p + j) (BitVec.ofNat 64 (cut x (64 * j) 64))

/-- A received word is written in place (R516). -/
def State.takeWord (s : State) (a : Nat) (v : BitVec 256) : State :=
  let i := a % 16777216
  let x := v.toNat
  match a / 16777216 with
  | 0 => s.store (32 * i) (leBytes 32 x)
  | 2 => s.takeSlotWord (i / 4096) (i % 4096) x
  | r =>
    if r = 1 ∧ i < 0x8000 then s.takePoints (4 * i) x 4
    else if r = 3 ∧ 0x10000 ≤ i then s.takeLoopWord (i - 0x10000) x
    else if r = 4 ∧ 0x10000 ≤ i ∧ i < 0x18000 then
      { s with meter := { s.meter with acc := Tbl.set (fun _ => 0) s.meter.acc (i - 0x10000) x } }
    else if r = 4 ∧ 0x18000 ≤ i ∧ i < 0x20000 then
      { s with meter := { s.meter with
          unrel := Tbl.set (fun _ => (0, 0)) s.meter.unrel (i - 0x18000) (sext 128 (cut x 0 128), sext 128 (cut x 128 128)) } }
    else if r ≤ 7 then s.takeKeys x (heldKeys a)
    else s
def State.takeWords (s : State) : List (Nat × BitVec 256) → State
  | [] => s
  | (a, v) :: t => (s.takeWord a v).takeWords t

/-- Counts that the module shows of tables which COPY brings, with their own high-water marks (Table PTM-9). -/
def State.showCount (s : State) (pg o n : Nat) : State :=
  let s := s.setReg pg o (word n)
  if (s.reg pg (o + 4)).toNat < n then s.setReg pg (o + 4) (word n) else s
def State.showMaps (s : State) : List Nat → State
  | [] => s
  | ch :: t => (s.showCount (busPage ch) 0x070 (s.maps ch false ++ s.maps ch true).length).showMaps t

/-- Sessions of the copied entries: CLOSED where enabled (R401). -/
def State.showSessions (s : State) : List Nat → State
  | [] => s
  | n :: t =>
    (s.setSesWord n 0x08 (setFld (s.sesWord n 0x08) 0 2 (if s.sesEn n then sesClosed else sesDisabled))).showSessions t

/-- Pulse outputs and channels show what follows from their copied words. -/
def State.showDrained (s : State) : List Nat → State
  | [] => s
  | n :: t =>
    (s.setRegBit pgPLS (plsOfs n 0x10) 1 (s.plsOwed n = 0 && s.plsBacklog n = 0 && !s.plsEn n)).showDrained t
def State.showLocked (s : State) : List Nat → State
  | [] => s
  | c :: t =>
    (if s.chEn c && !s.chLocked c then s.setChWord c 0x18 (setBit (s.chWord c 0x18) 2 true) else s).showLocked t

/-- What the module shows after an applied COPY. -/
def State.showCopied (s : State) : State :=
  let n := fun base stride cnt (p : Word → Bool) => (s.listed pgPTM base stride cnt p).length
  let pts := n 0 32 8192 fun w => fld w 0 4 ≠ 0
  let ctx := (List.range (ctxLimit s.small)).countP fun c => s.ctxState c ≠ 0
  let gr := n 0x050000 8 2048 fun w => bit w 31
  let cr := n 0x080018 32 12288 fun w => fld w 12 2 ≠ 0
  let s := (((s.showCount pgPTM 0x040 pts).showCount pgPTM 0x04C ctx).showCount pgPTM 0x058 gr).showCount pgPTM 0x064 cr
  let s := s.setReg pgPTM 0x074 (word s.forcedPts.length)
  let ls := s.confLoops
  let s := (s.showCount pgLPE 0x04C (ls.filter (! isPid ·)).length).showCount pgLPE 0x058 ((ls.map fun l => (s.loopSects l).length).sum)
  let s := s.showCount pgLPE 0x064 (ls.filter (isPid ·)).length
  let s := s.setReg pgLPE 0x074 (word (ls.filter fun l => s.lpState l = lpRunning).length)
  let s := s.setReg pgLPE 0x078 (word (ls.filter fun l => s.lpState l = lpFaulted).length)
  let s := s.setLdr 0x024 (word (s.slots.filter fun e => e.2.state ≠ 0).length)
  let s := ((s.showMaps (List.range 10)).showSessions sessionNumbers).showDrained (List.range 8)
  s.showLocked (List.range 52)

end Sys2Proof.Machine
end

