-- ==== Sys2Proof/Machine/Pair.lean ====
section
/-! DEFINITION. The redundant pair (R503 to R529): the Col link, health and time frames, roles and pair states, COPY, heartbeat
decisions and takeovers, archive and mirror answers. Mirror requests of the partner stand in Access.lean, base anchors in Turn.lean. -/

namespace Sys2Proof.Machine

set_option cleanup.letToHave false

open Sys2Proof.Config

/-! ### What the module tells its partner (Table PAR-3, R525, R527) -/

abbrev State.pairOn (s : State) : Bool := s.regBit pgPAR 0x040 0

/-- A bit of the partner's last health word. -/
abbrev State.peerBit (s : State) (k : Nat) : Bool := s.regBit pgPAR 0x060 k
abbrev hwLocked : Nat := 6
abbrev hwRan : Nat := 7
abbrev hwFault : Nat := 8
abbrev hwRide : Nat := 9
abbrev hwLeaving : Nat := 10
abbrev hwHandover : Nat := 11
abbrev hwTrial : Nat := 12
abbrev hwPref : Nat := 13
abbrev hwStf : Nat := 14

/-- The own health word. -/
def State.healthWord (s : State) : Word :=
  word (s.role + 4 * s.pairState + 64 * b2n (s.phtState = stLock) + 128 * b2n s.sys.firstDone + 256 * b2n s.faulted +
    512 * b2n (s.pwrState = pwRide || s.pwrState = pwSave) + 1024 * b2n (s.pair.flagged && s.pair.wish = 2) +
    2048 * b2n (s.pair.flagged && s.pair.wish = 1) + 4096 * b2n s.onTrial + 8192 * b2n (s.regBit pgPAR 0x040 1) +
    16384 * b2n (s.reg pgPAR 0x0B8 ≠ 0))

/-- CFG_SUM (R527). -/
def State.cfgSum (s : State) : Word :=
  let ws := [s.reg pgPAR 0x040 &&& 8, s.reg pgPAR 0x048, s.reg pgPAR 0x04C, s.reg pgPAR 0x0A0, s.reg pgPAR 0x0A4, s.reg pgPAR 0x0A8,
    s.reg pgPAR 0x0AC, s.reg pgPAR 0x0B0, s.reg pgPAR 0x0B4]
  word (crc32 (ws.flatMap fun (w : Word) => leBytes 4 w.toNat))

/-- PAIR_PROTO, and CFG_SUM, differ from the partner's. -/
def State.protoDiffers (s : State) : Bool := s.pair.heard && s.regFld pgPAR 0x068 0 16 ≠ s.activeImage.proto
def State.cfgDiffers (s : State) : Bool := s.pair.heard && s.reg pgPAR 0x070 ≠ s.cfgSum

/-- |SKEW| exceeds SKEW_MAX, in µs. -/
def State.skewLarge (s : State) : Bool :=
  decide (400 * s.regFld pgPAR 0x04C 0 8 < (sext 32 (s.reg pgPAR 0x058).toNat).natAbs)

/-- COND_OK (R525). -/
def State.condOk (s : State) : Bool :=
  s.pair.up && s.pairState = psSync && !([hwFault, hwRide, hwTrial, hwStf].any fun k => s.peerBit k || bit s.healthWord k)

/-- PAR.STAT as read (Table PAR-9). -/
def State.parStat (s : State) : Word :=
  word (s.role + 4 * s.pairState + 256 * b2n s.pair.up + 512 * b2n s.pair.accepted + 1024 * b2n (s.pairState = psSync) +
    2048 * b2n s.pair.heard + 4096 * b2n (s.pair.up && s.pair.accepted && s.pair.far) + 8192 * b2n s.protoDiffers +
    16384 * b2n s.cfgDiffers + 32768 * b2n s.skewLarge + 65536 * b2n s.condOk)

/-- DEV_ID as a 128-bit number. -/
def State.devId (s : State) : Nat :=
  (s.reg pgCAP 0x830).toNat + 2 ^ 32 * (s.reg pgCAP 0x834).toNat + 2 ^ 64 * (s.reg pgCAP 0x838).toNat + 2 ^ 96 * (s.reg pgCAP 0x83C).toNat

/-- The HEALTH frame that the module sends (Table PAR-3): twice at every half-cycle anchor as a standby, at every base anchor as a primary
(R517). -/
def State.healthFrame (s : State) : HealthFrame :=
  { word := s.healthWord, fw := s.activeImage.fw, proto := BitVec.ofNat 16 s.activeImage.proto, cfgSum := s.cfgSum,
    copySeq := BitVec.ofNat 64 (s.reg64 pgPAR 0x07C), stf := BitVec.ofNat 8 (s.reg pgPAR 0x0B8).toNat, devId := BitVec.ofNat 128 s.devId }

/-- The TIME frame of a turn (R507, Table PAR-2), whose SOF leaves `lag` ft after PHT.ANGLE has reached 0x8000_0000. -/
def State.timeFrame (s : State) (lag : Nat) : TimeFrame :=
  { cycle := s.reg pgPHT 0x050, epoch := BitVec.ofNat 16 (s.regFld pgPHT 0x054 0 16), turn := word ((s.theta + s.reg64 pgPAR 0x074) / turn),
    lag := word lag, arrival := 0 }

/-! ### The link (R505, R56) -/

/-- A pair state that holds no applied state is entered. -/
def State.toPairState (s : State) (st : Nat) : State :=
  let s := { s with pair := { s.pair with applied := s.pair.applied && (st = psSync || st = psLag || st = psOrphan || st = psFaulted) } }
  s.setPairState st

/-- COL_LINK_TRAINED (R505): eight round trips give LINK_DELAY. -/
def colLinkTrained (rounds : List Nat) (s : State) : State :=
  if !s.alive || !s.pair.accepted || s.pair.up then s
  else
    let n := (rounds.sum - 1600 + 8) / 16
    let far := s.freeWord.getLsbD 0
    let s := (s.draw).setReg pgPAR 0x054 (word n)
    let s := { s with pair := { s.pair with up := true, far := far } }
    if s.pairState = psOrphan then s.toPairState psJoin else s
def execColLinkTrained (rounds : List Nat) (s : State) : Out := event (fun s => colLinkTrained rounds s) s

/-- The partner is gone for a primary, and for a module without a role (R510): SOLO. A standby decides at its next base anchor (R518);
a COPY that comes in fails. -/
def State.peerGone (s : State) : State :=
  let s := { s with pair := { s.pair with rx := none, archOut := [] } }
  if s.isStandby then s else s.toPairState psSolo

/-- COL_LINK_DOWN (R505). -/
def colLinkDown (s : State) : State :=
  if s.pair.up then
    let s := { s with pair := { s.pair with up := false } }
    ((s.bump pgPAR 0x118).setPend pgPAR 2).peerGone
  else s
def execColLinkDown (s : State) : Out := event (fun s => colLinkDown s) s

/-- CABLE_PRESENCE_CHANGE (R56): the cable's identity is accepted or refused. Without an accepted cable the link is down. -/
def cablePresenceChange (metres : Nat) (present clc : Bool) (s : State) : State :=
  let ok := present && clc
  let s := { s with pair := { s.pair with accepted := ok } }
  let s := s.setReg pgPAR 0x050 (word ((if ok then metres % 4 else 0) + 256 * b2n (!present) + 512 * b2n (present && !clc)))
  let s := if ok then s else colLinkDown s
  if present && !clc then s.setPend pgPAR 5 else s
def execCablePresenceChange (metres : Nat) (present clc : Bool) (s : State) : Out :=
  event (fun s => cablePresenceChange metres present clc s) s

/-- ECHO (R505): the frame is turned round; nothing of the module changes. -/
def execEcho (s : State) : Out := event id s

/-- The struck payload words of a received frame are read, and the frame is gone (R421, R506): answers whether one is poisoned. The master
is a free value (log entry 56). -/
def State.frameWords (s : State) : List (EccWord × Nat) → State × Bool
  | [] => (s, false)
  | (.col i, _) :: t =>
    if s.struckBits (.col i) = 0 then s.frameWords t
    else
      let r := s.draw.checkWord dmCol (s.freeWord.toNat % 16) i (.col i)
      let u := (r.1.heal (.col i)).frameWords t
      (u.1, r.2 || u.2)
  | _ :: t => s.frameWords t

/-- Errors have struck the frame that the Col link brings. -/
def isColWord : EccWord → Bool
  | .col _ => true
  | _ => false
def State.frameStruck (s : State) : Bool := s.fabric.struck.any fun x => isColWord x.1 && decide (0 < x.2)

/-- COL_FRAME_ERROR (R506, R516). One and two bits of a payload word are corrected and counted, and the frame is good: its own command
follows. A frame with an uncorrectable word, or, with no word struck, of a bad check or an unknown TYPE, is discarded: the COPY that comes
in fails, and more than 16 in one turn fail the self-test. -/
def colFrameError (s : State) : State :=
  if s.pair.up && s.alive then
    let hit := s.frameStruck
    let r := s.frameWords s.fabric.struck
    let s := r.1
    if hit && !r.2 then s
    else
    let q := s.pair
    let s := ({ s with pair := { q with discards := q.discards + 1,
                                        rx := q.rx.map fun (r : CopyIn) => ({ r with bad := true } : CopyIn) } }).bump pgPAR 0x11C
    if 16 < s.pair.discards then s.selfTestFail 0x40 else s
  else s
def execColFrameError (s : State) : Out := event (fun s => colFrameError s) s

/-! ### Roles (R511, R512) -/

/-- Rules 2 and 3 of R511: this module becomes PRIMARY. -/
def State.prefers (s : State) : Bool :=
  let mine := s.regBit pgPAR 0x040 1
  if mine ≠ s.peerBit hwPref then mine else decide (s.devId < s.pair.devId.toNat)

/-- ROLE_DECISION (R511) at entry into JOIN. Modules that already hold the two roles keep them: no event makes a standby primary
except a takeover (R524). -/
def State.decideRole (s : State) : State :=
  let peer := s.regFld pgPAR 0x060 0 2
  if (s.role = rolePrimary && peer = roleStandby) || (s.role = roleStandby && peer = rolePrimary) then s
  else if s.sys.firstDone && s.peerBit hwRan then
    if s.prefers then s.setRole rolePrimary else { s with pair := { s.pair with demote := true } }
  else if s.sys.firstDone then s.setRole rolePrimary
  else if s.peerBit hwRan then s.setRole roleStandby
  else s.setRole (if s.prefers then rolePrimary else roleStandby)

/-- The alignment that JOIN checks and MISMATCH awaits (Table PAR-4). -/
def State.pairDiffers (s : State) : Bool := s.protoDiffers || s.cfgDiffers || s.skewLarge

/-- A valid HEALTH frame (R506, R510, R517): partner status; SOLO becomes JOIN with its decision; a standby follows the primary into
RESYNC, and a primary notes a standby that has lost its applied state. -/
def health (h : HealthFrame) (s : State) : State :=
  if !s.alive || !s.pair.up || !s.pairOn then s
  else
    let s := { s with pair := { s.pair with heard := true, healthAt := s.tick, devId := h.devId, silent := 0 } }
    let s := ((s.setReg pgPAR 0x060 h.word).setReg pgPAR 0x064 h.fw).setReg pgPAR 0x070 h.cfgSum
    let s := s.setReg pgPAR 0x068 (word (h.proto.toNat + 65536 * s.activeImage.proto))
    let peer := fld h.word 2 4
    if s.pairState = psSolo then
      let s := (s.toPairState psJoin).decideRole
      if s.protoDiffers || s.cfgDiffers then (s.toPairState psMismatch).setPend pgPAR 5 else s
    else if s.isStandby && s.pairState = psArchive && peer = psResync then s.toPairState psResync
    else if s.role = rolePrimary && (s.pairState = psSync || s.pairState = psLag) && peer = psResync then s.toPairState psResync
    else s
def execHealth (h : HealthFrame) (s : State) : Out := event (fun s => health h s) s

/-- JOIN_WAIT_EXPIRY (R512): JOIN_WAIT after the first LOCK the module runs as SOLO. A HEALTH frame of that ft wins (R148). -/
def joinWaitExpiry (s : State) : State :=
  if s.pairOn && s.ridge.locked && s.role = roleNone && !s.pair.heard then
    let s := s.expire (s.ridge.lockAt + s.regFld pgPAR 0x048 24 8 * 10 * ftPerMs)
    { s with pair := { s.pair with solo := true } }
  else s
def execJoinWaitExpiry (s : State) : Out := event (fun s => joinWaitExpiry s) s

/-- A half-cycle anchor (R517, R18): a primary counts half-cycles without a HEALTH frame. -/
def State.countSilent (s : State) : State := { s with pair := { s.pair with silent := s.pair.silent + 1 } }

def State.clearSilent (s : State) : State := { s with pair := { s.pair with silent := 0 } }

/-- PEER_LOST (R517): LOST_N half-cycles in a row have brought no HEALTH frame. -/
def peerLost (s : State) : State :=
  if s.alive && s.role = rolePrimary && s.pairState ≠ psSolo && s.regFld pgPAR 0x048 16 8 ≤ s.pair.silent then
    (((s.bump pgPAR 0x114).setPend pgPAR 3).peerGone).clearSilent
  else s
def execPeerLost (s : State) : Out := event (fun s => peerLost s) s

/-! ### Time (R507, R508) -/

/-- The ft of the own 0x8000_0000 instant next to a TIME frame: the last one in the second half of a turn, else the one to come, which the
rate in force gives (R507; log entry 56). -/
def State.ownHalf (s : State) : Int :=
  let a : Nat := s.ridge.acc % 2 ^ 64
  let back : Nat := (a - 2 ^ 63) / max s.rate 1
  if 2 ^ 63 ≤ a then (match s.ridge.halfAt with | some t => (t : Int) | none => (s.tick : Int) - (back : Int))
  else ((s.tick + ceilDiv (2 ^ 63 - a) (max s.rate 1) : Nat) : Int)

/-- A standby adopts the primary's counters at its next turn boundary, and its origin. -/
def State.adoptTime (s : State) (t : TimeFrame) (same : Bool) : State :=
  if !s.isStandby then s
  else
    let s := { s with pair := { s.pair with turn := some t.turn } }
    if same then s
    else
      let n := (t.epoch.toNat * turn + t.cycle.toNat + 1) % 2 ^ 48
      let s := { s with ridge := { s.ridge with ann := some n } }
      (s.setReg pgPHT 0x090 (setBit (setBit (s.reg pgPHT 0x090) 0 true) 3 false)).bump pgPAR 0x124

/-- A TIME frame: SKEW, the counters, and the alignment of JOIN and MISMATCH. -/
def time (t : TimeFrame) (s : State) : State :=
  if !s.alive || !s.pair.up || !s.pairOn then s
  else
    let s :=
      if s.phtState = stLock then
        s.setReg pgPAR 0x058 (word (wrapInt 32 ((t.arrival : Int) - s.ownHalf - t.lag.toNat - (s.reg pgPAR 0x054).toNat)))
      else s
    let same := t.cycle = s.reg pgPHT 0x050 && t.epoch.toNat = s.regFld pgPHT 0x054 0 16
    let s := s.adoptTime t same
    if s.pairState = psMismatch then (if s.pairDiffers then s else s.toPairState psJoin)
    else if s.pairState = psJoin then
      if s.pairDiffers then (s.toPairState psMismatch).setPend pgPAR 5
      else if same && s.phtState = stLock && s.peerBit hwLocked && !s.pair.demote then s.toPairState psArchive
      else s
    else s
def execTime (t : TimeFrame) (s : State) : Out := event (fun s => time t s) s

/-! ### COPY on the primary (R514, R515) -/

/-- The words of running timers, whose elapsed times the copied cycle carries (R249). -/
def State.runningTimers (s : State) : List Nat :=
  s.slots.flatMap fun e => (e.2.timers.filter fun t => t.2.run).map fun t => 0x02000000 + 4096 * e.1 + t.1 / 2

/-- COPY_START (step 8 of Table SCN-2). -/
def copyStart (s : State) : State :=
  match s.scan.cycle with
  | none => s
  | some y =>
    if y.phase = 4 && s.copyRuns && s.pair.out.isNone then
      let s := s.until (y.x + 2 + y.tOut)
      let s := { s with dirty := markAll s.dirty 0 s.runningTimers }
      let all := s.dirtyWords
      let now := all.take 13312
      let rest := all.drop 13312
      let words := now.map fun a => (a, s.copyWord a)
      let s := match now.getLast? with | some a => s.clearDirty a rest | none => s
      let q := s.pair
      ({ s with pair := { q with seq := q.seq + 1, out := some ⟨s.tick, q.seq + 1, words, rest.isEmpty⟩ } }).bump pgPAR 0x104
    else s
def execCopyStart (s : State) : Out := event (fun s => copyStart s) s

/-- The COPY ends (R515, R199): LAST_COPY, and the cycle with it. -/
def State.copyEnds (s : State) (c : CopyOut) (nak : Bool) : State :=
  let s := s.setReg pgPAR 0x084 (word (c.words.length + 65536 * b2n c.final + 131072 * b2n nak))
  let s := (s.setReg pgPAR 0x088 (word (s.tick - c.at_))).endCycle
  { s with pair := { s.pair with out := none } }

/-- A NAK (R515). -/
def State.copyNak (s : State) (c : CopyOut) : State :=
  let s := ((s.copyEnds c true).bump pgPAR 0x10C).setPend pgPAR 4
  let s := { s with pair := { s.pair with dirtyFrom := some 0 } }
  if s.pairState = psResync || s.regFld pgPAR 0x060 2 4 = psResync then
    (if s.pairState = psSync || s.pairState = psLag then s.toPairState psResync else s)
  else if s.pairState = psSync then s.toPairState psLag
  else s

/-- A COPY that was partial (R515). -/
def State.copyPartial (s : State) : State :=
  let s := (s.bump pgPAR 0x108).setPend pgPAR 4
  if s.pairState = psSync then s.toPairState psLag else s

/-- COPY_ACK (R515, R519, R497). A FINAL COPY that is acknowledged brings SYNC, and with it a deferred fallback and the flag of a
hand-over. -/
def copyAck (seq : Word) (nak : Bool) (s : State) : State :=
  match s.pair.out with
  | none => s
  | some c =>
    if word c.seq ≠ seq then s
    else if nak then (if c.final then s.copyNak c else (s.copyNak c).copyPartial)
    else
      let s := s.copyEnds c false
      if !c.final then s.copyPartial
      else if s.pairState = psResync || s.pairState = psSync || s.pairState = psLag then
        let s := (s.setReg64 pgPAR 0x07C c.seq).toPairState psSync
        let s := if s.pair.wish ≠ 0 then { s with pair := { s.pair with flagged := true } } else s
        s.deferredFallback
      else s
def execCopyAck (seq : Word) (nak : Bool) (s : State) : Out := event (fun s => copyAck seq nak s) s

/-- COPY_ACK_TIMEOUT (R515): 440,000 ft after its start the COPY ends as at a NAK. -/
def copyAckTimeout (s : State) : State :=
  match s.pair.out with
  | none => s
  | some c =>
    let s := s.expire (c.at_ + 440000)
    if c.final then s.copyNak c else (s.copyNak c).copyPartial
def execCopyAckTimeout (s : State) : Out := event (fun s => copyAckTimeout s) s

/-! ### COPY on the standby (R516) -/

/-- The standby takes COPY frames. -/
def State.copyTaken (s : State) : Bool :=
  s.alive && s.pair.up && s.isStandby && (s.pairState = psResync || s.pairState = psSync || s.pairState = psLag)

/-- The COPY that a frame belongs to: that in reception, or a new one. -/
def State.rxOf (s : State) (seq : Word) : CopyIn :=
  match s.pair.rx with
  | some r => if r.seq = seq then r else ⟨seq, 0, 0, false, s.stamp⟩
  | none => ⟨seq, 0, 0, false, s.stamp⟩

/-- A log overflow drops the applied state (R516). -/
def State.logOverflow (s : State) : State :=
  let s := { s with pair := { s.pair with log := [] } }
  (s.toPairState psResync).record 0x2F01 [s.stamp]

/-- COPY_DATA (R516). -/
def copyData (seq : Word) (index : Nat) (words : List (Nat × BitVec 256)) (s : State) : State :=
  if !s.copyTaken then s
  else
    let r := s.rxOf seq
    let r' : CopyIn := { r with next := index + 1, count := r.count + words.length, bad := r.bad || decide (index ≠ r.next) }
    let s := { s with pair := { s.pair with rx := some r' } }
    if s.pairState = psResync then s.takeWords words
    else if 61440 < s.pair.log.length + words.length then
      ({ s with pair := { s.pair with rx := some { r' with bad := true } } }).logOverflow
    else { s with pair := { s.pair with log := s.pair.log ++ words } }
def execCopyData (seq : Word) (index : Nat) (words : List (Nat × BitVec 256)) (s : State) : Out :=
  event (fun s => copyData seq index words s) s

/-- The applied FINAL COPY is the last completed one. -/
def State.copyApplied (s : State) : State :=
  let s := (s.noteGens (s.slots.map (·.1))).recountPtm
  let s := { s with pair := { s.pair with applied := true }, upd := { s.upd with copies := s.upd.copies + 1 } }
  s.showCopied.toPairState psSync

/-- A 64-bit sequence from its low word: the first one from `old` on. -/
def extendSeq (old : Nat) (low : Word) : Nat :=
  let v := old / turn * turn + low.toNat
  if v < old then v + turn else v

/-- COPY_END (R516): checked whole, answered, and a FINAL one is applied. -/
def copyEnd (seq : Word) (sent : Nat) (final : Bool) (s : State) : State :=
  if !s.copyTaken then s
  else
    let r := s.rxOf seq
    let nak := r.bad || decide (r.count ≠ sent)
    let s := { s with pair := { s.pair with rx := none, acked := some (seq, nak) } }
    if nak then
      let s := { s with upd := { s.upd with copies := 0 } }
      if s.pairState = psSync then s.toPairState psLag else s
    else if !final then (if s.pairState = psSync then s.toPairState psLag else s)
    else
      let s := { s with pair := { s.pair with stamp := r.stamp } }
      let s := s.setReg64 pgPAR 0x07C (extendSeq (s.reg64 pgPAR 0x07C) seq)
      if s.pairState = psResync then s.copyApplied else { s with pair := { s.pair with applying := true } }
def execCopyEnd (seq : Word) (sent : Nat) (final : Bool) (s : State) : Out := event (fun s => copyEnd seq sent final s) s

/-- LOG_APPLY_COMPLETE (R516). Words of one address apply in the order of their arrival, so the last one stands. -/
def logApplyComplete (s : State) : State :=
  if s.pair.applying then
    let l := s.pair.log
    (({ s with pair := { s.pair with applying := false, log := [] } }).takeWords l).copyApplied
  else s
def execLogApplyComplete (s : State) : Out := event (fun s => logApplyComplete s) s

/-! ### The archive (R523) -/

/-- The archive's entries: slot, generation, CRC. -/
def State.archiveItems (s : State) : List (Nat × Nat × Word) := s.loader.archive.map fun e => (e.1, e.2.gen, e.2.crc)

/-- ARCHIVE_LIST (R523): the primary sends every container that the standby lacks; when the lists agree, RESYNC. -/
def archiveList (items : List (Nat × Nat × Word)) (s : State) : State :=
  if s.alive && s.pair.up && s.role = rolePrimary && s.pairState = psArchive then
    let lack := s.archiveItems.filter fun e => !items.contains e
    let s := { s with pair := { s.pair with archOut := lack.map fun e => (e.1, e.2.1) } }
    if lack.isEmpty then s.toPairState psResync else s
  else s
def execArchiveList (items : List (Nat × Nat × Word)) (s : State) : Out := event (fun s => archiveList items s) s

/-- Bytes in blocks of 32. -/
def blocksOf : Nat → Nat → List Byte → List (Nat × List Byte)
  | 0, _, _ => []
  | n + 1, k, b => if b.isEmpty then [] else (k, b.take 32) :: blocksOf n (k + 1) (b.drop 32)

/-- The whole container under a base key, once every block of its length is there (Table LDR-2: its length at byte 8). -/
def wholeContainer (t : Tbl (List Byte)) (base : Nat) : Option (List Byte) :=
  let get := fun i => Tbl.get (fun _ => []) t (base + i)
  let total := cw (get 0) 8 4
  let n := ceilDiv total 32
  if total < 64 ∨ 1048576 < total ∨ (List.range n).any (fun i => (get i).isEmpty) then none
  else some (((List.range n).flatMap get).take total)

/-- ARCHIVE_DATA (R523): the standby stores container bytes; a whole container enters its archive (R281). -/
def archiveData (slot gen ofs : Nat) (bytes : List Byte) (s : State) : State :=
  if s.alive && s.pair.up && s.isStandby then
    let base := (slot * 65536 + gen) * 65536
    let t := (blocksOf 64 (ofs / 32) bytes).foldl (fun t e => Tbl.set (fun _ => []) t (base + e.1) e.2) s.pair.arch
    match wholeContainer t base with
    | none => { s with pair := { s.pair with arch := t } }
    | some raw =>
      let g := parseProg (s.charges (cw raw 0x0C 4 / 2 ^ 12 % 8)) raw
      { s with pair := { s.pair with arch := Tbl.clear (fun k => decide (k / 65536 = slot * 65536 + gen)) t },
               loader := { s.loader with archive := archiveAdd slot g s.loader.archive } }
  else s
def execArchiveData (slot gen ofs : Nat) (bytes : List Byte) (s : State) : Out :=
  event (fun s => archiveData slot gen ofs bytes s) s

/-! ### Becoming a standby (Table PAR-6, R511, R519) -/

/-- A channel stops: its messages are discarded. -/
def State.silenceBus (s : State) : List Nat → State
  | [] => s
  | ch :: t =>
    let s := (s.goDown ch).discardMsgs ch crFlight ((s.busCh ch).arriving.map (·.2))
    let s := (s.discardQueues ch [8, 9, 10, 11, 12, 13, 14, 15]).setBus ch { s.busCh ch with
      queue := [], arriving := [], built := [], lastSent := [], flight := none, second := none, ref := none, open_ := false, reply := none,
      retries := 0, target := none, osdpSeq := [] }
    (if isRsb ch then s.clearPolls ch else s).silenceBus t

/-- Outputs and transmitters fall silent and the module is the standby. -/
def State.becomeStandby (s : State) : State :=
  let s := (s.endWork.closeSessions 5 sessionNumbers).silenceBus (List.range 14)
  let s := { s with locks := [], pair := { s.pair with demote := false, wish := 0, flagged := false, applied := false, out := none, log := [],
                                                       rx := none, applying := false, anchorAt := none } }
  (s.setRole roleStandby).toPairState psJoin

/-- The demotion of R511. -/
def State.demoteNow (s : State) : State := (s.becomeStandby.record 0x2F00 [s.stamp]).bump pgPAR 0x120

/-! ### Takeover (R518 to R521) -/

/-- Changes after a takeover (Table LDR-9): a beside slot stays READY without its arm; an UNMIRRORED one is FREE. -/
def State.keepReady (s : State) : List (Nat × Slot) → State
  | [] => s
  | (n, x) :: t =>
    let s := if x.unload.isSome then s.setSlot n { s.slot n with unload := none } else s
    (match x.change with
     | some ⟨b, _, unm⟩ => if unm then s.freeBeside n b else s.setSlot n { s.slot n with change := some { beside := b } }
     | none => s).keepReady t

/-- Sessions at a takeover (R401): CLOSED, and 2^32 on every reply sequence. -/
def State.takeSessions (s : State) : List Nat → State
  | [] => s
  | n :: t =>
    let s := if s.sesState n = sesDisabled then s
      else
        let q := s.sesReply n + turn
        ((s.setInd64 pgTUN (32 * n + 0x14) q).setSession n { reserved := q }).sesShow n
    s.takeSessions t

/-- Channels of the meter start empty windows. -/
def Chan.empty (x : Chan) : Chan := { x with e := [], r := [] }

/-- A floating address is in use on an interface (R521): 0 disables an address. -/
def State.floats (s : State) : Bool :=
  s.regFld pgPAR 0x0A0 0 4 ≠ 0 && ([0x0A4, 0x0A8, 0x0AC, 0x0B0, 0x0B4].any fun o => s.reg pgPAR o ≠ 0)

/-- The module answers ARP and NDP for a floating address on interface `i` (R521): the IPv4 address, and the IPv6 address, most significant
word first. A standby never does. -/
def State.answersV4 (s : State) (i : Nat) (ip : Word) : Bool :=
  s.alive && s.role = rolePrimary && s.regBit pgPAR 0x0A0 i && ip ≠ 0 && ip = s.reg pgPAR 0x0A4
def State.answersV6 (s : State) (i : Nat) (ip : List Word) : Bool :=
  let own := [s.reg pgPAR 0x0A8, s.reg pgPAR 0x0AC, s.reg pgPAR 0x0B0, s.reg pgPAR 0x0B4]
  s.alive && s.role = rolePrimary && s.regBit pgPAR 0x0A0 i && own.any (· ≠ 0) && ip = own

/-- Without an applied state the new primary decides warm or cold on its own MRAM (R520); what its boot code would find is free. -/
def State.takeWithout (s : State) : State :=
  let f := s.freeWord
  let b : BootFacts := ⟨f.getLsbD 0, f.getLsbD 1, []⟩
  let s := s.draw
  let valid := s.sys.draft.isNone && b.crcOk && b.readable && (match s.sys.save with | some r => r.complete && !r.consumed | none => false)
  match s.startsWarm b, s.sys.save with
  | true, some r => s.warmStart r
  | _, _ => s.coldStart valid b.readable s.crdTerms

/-- The working copies of retained sections start as the committed ones (R220). -/
def State.discardAll (s : State) : List Nat → State
  | [] => s
  | n :: t => (s.discardCopies n).discardAll t

def State.slotNumbers (s : State) : List Nat := s.slots.map fun e => e.1

/-- The takeover ft (R520, Table PAR-6). -/
def State.takeOver (s : State) (cause : Nat) : State :=
  let with_ := s.pair.applied
  let stamp := s.pair.stamp
  let s := s.setRole rolePrimary
  let q := s.pair
  let s := { s with pair := { q with log := [], rx := none, applying := false, anchorAt := none, heard := false, applied := false,
                                     silent := 0, advAt := s.tick, advs := if s.floats then 2 else 0 } }
  let s := s.setPairState psSolo
  let s : State := if with_ then s.discardAll s.slotNumbers else s.takeWithout
  let s := (s.setReg pgPAR 0x094 (word (cause + 256 * b2n (!with_)))).bump pgPAR 0x100
  let s := (s.setReg pgPAR 0x098 (word stamp)).setReg pgPAR 0x09C (word (stamp / turn))
  let s := s.record 0x0122 [stamp % turn, stamp / turn]
  let s := s.clearRegs fun k => decide (k / 4096 = pgINT) && decide (0x040 ≤ k % 4096) && decide (k % 4096 < 0x060)
  let s := ((s.keepReady s.slots).takeSessions sessionNumbers).setReg pgTUN 0x04C 0
  let hwm := s.reg pgPool 0x318
  let s := (s.silenceBus (List.range 14)).resetPool
  let s := if s.reg pgPool 0x318 < hwm then s.setReg pgPool 0x318 hwm else s
  let s := { s with
    locks := [], lanes := [], points := { s.points with tun := [], tunNew := [], tunWas := [], lookups := [] },
    scan := { s.scan with cycle := none, skip := [] },
    loops := { s.loops with running := [], loop := Tbl.mapVals (fun _ => {}) (fun (x : Loop) => { x with pend := none, cap := none }) s.loops.loop },
    meter := { s.meter with chan := Tbl.mapVals (fun _ => {}) Chan.empty s.meter.chan } }
  let s := s.doOutputs (fun _ => true) 8
  s.start 0

/-- The window HB_WIN in ft, and whether a HEALTH frame has arrived in it after anchor `a` (R518, R148). -/
def State.hbWindow (s : State) : Nat := 400 * s.regFld pgPAR 0x048 0 12
def State.healthIn (s : State) (a : Nat) : Bool := s.pair.heard && decide (a ≤ s.pair.healthAt) && decide (s.pair.healthAt ≤ a + s.hbWindow)

/-- The guard sees the primary (R518): a reference message with the count of the anchor's occurrence or of a later one. Without an
earlier message to count from, any one heard since the anchor serves (log entry 43). -/
def State.guardSees (s : State) : Bool :=
  s.pair.anchorDue.any fun e =>
    match e.2, Tbl.get (fun _ => none) s.pair.lastRef e.1 with
    | some want, some k => decide ((k + 64 - want) % 64 < 32)
    | none, some _ => true
    | _, none => false

/-- A missed heartbeat (R518): the takeover, after the guard's time where a time master's class is due at the anchor. -/
def State.missedHeartbeat (s : State) (a : Nat) : State :=
  let s := ((s.until (a + s.hbWindow + 1)).bump pgPAR 0x110).setPend pgPAR 3
  let cause := if s.pair.up then 1 else 5
  if s.regBit pgPAR 0x040 3 && !s.pair.anchorDue.isEmpty then
    let s := s.until (a + 800000)
    if s.guardSees then (s.toPairState psOrphan).bump pgPAR 0x128
    else s.takeOver cause
  else s.takeOver cause

/-- HEARTBEAT_DECISION (R518): for the last base anchor of the copied configuration. A FAULTED standby never takes over, and a decision
waits for the apply of a COPY. -/
def heartbeatDecision (s : State) : State :=
  match s.pair.anchorAt with
  | none => s
  | some a =>
    if !s.alive || !s.isStandby || s.pair.applying then s
    else
      let s := { s with pair := { s.pair with anchorAt := none } }
      if s.pairState = psFaulted then s
      else if s.healthIn a && s.pair.up then
        if s.peerBit hwFault then s.takeOver 2
        else if s.peerBit hwHandover then s.takeOver 3
        else if s.peerBit hwLeaving then s.takeOver 4
        else s
      else s.missedHeartbeat a
def execHeartbeatDecision (s : State) : Out := event (fun s => heartbeatDecision s) s

/-- GRATUITOUS_ARP_REPEAT (R521): 1 s after the last one. -/
def gratuitousArpRepeat (s : State) : State :=
  if s.pair.advs = 0 then s
  else
    let s := s.until (s.pair.advAt + ftPerS)
    { s with pair := { s.pair with advs := s.pair.advs - 1, advAt := s.tick } }
def execGratuitousArpRepeat (s : State) : Out := event (fun s => gratuitousArpRepeat s) s

/-! ### Mirror accesses of this module (R522) -/

abbrev mirAddr : Nat := rkey pgPAR 0x0C0
abbrev mirData : Nat := rkey pgPAR 0x0C4
abbrev mirResult : Nat := rkey pgPAR 0x0CC
abbrev mirRdata : Nat := rkey pgPAR 0x0D0

/-- MIR_RESULT shows a status, DONE. -/
def State.mirDone (s : State) (p st : Nat) : State := s.setBank p mirResult (word (st + 256))

/-- A pulse of MIR_CMD. A closed mirror ends the access with ABSENT; a pulse while the path's access waits is ignored. -/
def mirEffect (p : Path) (write : Bool) (s : State) : State × Nat :=
  let i := pathIdx p
  if bit (s.getBank i mirResult) 9 then (s, stOk)
  else if !(s.pair.up && s.pair.accepted && s.regBit pgPAR 0x040 2) then (s.mirDone i stAbsent, stOk)
  else ((s.setBank i mirResult 512).mirrorSend (some i) write (s.getBank i mirAddr) (s.getBank i mirData), stOk)
def mirCmdEffect (p : Path) (w : Word) (s : State) : State × Nat :=
  if bit w 0 then mirEffect p false s else if bit w 1 then mirEffect p true s else (s, stOk)

def execMirRead (p : Path) (s : State) : Out := access (fun s => s.port p pgPAR false (mirEffect p false)) s
def execMirWrite (p : Path) (s : State) : Out := access (fun s => s.port p pgPAR false (mirEffect p true)) s

/-- A request ends with a status: of a path in its registers, of a relay in RELAY_STAT (R499). -/
def State.mirrorEnd (s : State) (r : MirReq) (st : Nat) (data : Word) : State :=
  match r.path with
  | some p => (if r.write then s else s.setBank p mirRdata data).mirDone p st
  | none =>
    let s := s.setReg pgUPD 0x090 (word st)
    if st = stOk then s else s.bump pgUPD 0x114

/-- MIRROR_RSP (R522, R499). -/
def mirrorRsp (req : Word) (data : Word) (status : BitVec 8) (s : State) : State :=
  match s.pair.mirror.find? fun r => r.req = req with
  | none => s
  | some r =>
    let q := s.pair
    let s := { s with pair := { q with mirror := q.mirror.filter fun x => x.req ≠ req, far := decide (status.toNat ≠ stAbsent) || q.far } }
    s.mirrorEnd r status.toNat data
def execMirrorRsp (req : Word) (data : Word) (status : BitVec 8) (s : State) : Out := event (fun s => mirrorRsp req data status s) s

/-- MIRROR_TIMEOUT (R522): 2 ms without a response end the oldest request. -/
def mirrorTimeout (s : State) : State :=
  match s.pair.mirror with
  | [] => s
  | r :: t =>
    let s := s.expire (r.at_ + 2 * ftPerMs)
    ({ s with pair := { s.pair with mirror := t } }).mirrorEnd r stTimeout 0
def execMirrorTimeout (s : State) : Out := event (fun s => mirrorTimeout s) s

end Sys2Proof.Machine
end

