-- ==== Sys2Proof/Machine/Turn.lean ====
section
/-! DEFINITION. Turn boundaries and anchor occurrences (R90, R106, R115, R137, R197, R286, R315, R369, R371, R375, R508, R511,
R518, R519): what the phase angle starts. -/

namespace Sys2Proof.Machine

set_option cleanup.letToHave false

open Sys2Proof.Config

/-! ### Turn boundaries -/

/-- CYCLE and EPOCH take a 48-bit number. -/
def State.setStamp (s : State) (n : Nat) : State :=
  (s.setReg pgPHT 0x050 (word (n % turn))).setReg pgPHT 0x054 (word (n / turn % 65536))

/-- The counters at a turn boundary (R90, R115): one more, or the pending announcement's number. An applied announcement that raises EPOCH is
no epoch increment of R118 (log entry 58). -/
def State.countTurn (s : State) : State :=
  let old := s.stamp
  match s.ridge.ann with
  | some n =>
    let s := ({ s with ridge := { s.ridge with ann := none } }).setStamp n
    let s := (s.setRegBit pgPHT 0x040 4 true).setRegBit pgPHT 0x090 0 false
    ((s.bump pgPHT 0x0B4).crnMark markAnnounce).event pgPHT 3 [old, n]
  | none =>
    let n := (old + 1) % 2 ^ 48
    let s := s.setStamp n
    if n % turn = 0 then (s.setPend pgPHT 2).crnMark markEpoch else s

/-- A standby's origin follows the primary's TURN (R508): its own TURN becomes that TURN plus 1. -/
def State.takeTurn (s : State) : State :=
  match s.pair.turn with
  | some t =>
    let o := (t.toNat + 1 + turn - s.theta / turn % turn) % turn
    ({ s with pair := { s.pair with turn := none } }).setReg64 pgPAR 0x074 (o * turn)
  | none => s

/-- TURN_BOUNDARY (R90). There is none before the first LOCK. -/
def turnBoundary (s : State) : State :=
  if s.ridge.locked then
    let s := s.reach genTurn 0 turn
    let s := (s.countTurn.setPend pgPHT 1).takeTurn
    let s := { s with pair := { s.pair with discards := 0 } }
    (s.fabSync.ledgerTurn (s.theta / 2 ^ 23)).periodicSnaps allPages
  else s
def execTurnBoundary (s : State) : Out := event (fun s => turnBoundary s) s

/-! ### Anchor occurrences -/

/-- Output frames of class `c` that are built and not sent (R365). -/
def State.unsent (s : State) (ch c : Nat) : Nat :=
  ((s.busCh ch).built.filter fun e => fld (s.ind (busPage ch) (0x030008 + 16 * e.1)) 0 3 = c).length

/-- A time master's occurrence (R369, R365): late frames are counted, and the reference message is offered, or missed while the
channel is down or on a standby. -/
def State.refOffer (s : State) (c occ : Nat) (skipped : Bool) : List Nat → State
  | [] => s
  | ch :: t =>
    (if !s.masterOf ch c then s
     else if s.busDown ch || s.isStandby then s.refMiss ch
     else
       let n := s.unsent ch c
       let s := if n = 0 then s else (s.busCount ch 10 n).setPend (busPage ch) 3
       s.setBus ch { s.busCh ch with sched := true, ref := some (.ref occ s.tick skipped s.stampThen) }).refOffer c occ skipped t

/-- The occurrence of class `c` at the present anchor is skipped (R203), whether its base anchor has been `taken` or not. -/
def State.occSkipped (s : State) (c : Nat) (taken : Bool) : Bool :=
  s.canCycle &&
  (match s.scan.cycle with
   | some y => !(taken && y.at_ = s.tick && inMask y.due c)
   | none => if taken then true else s.scan.skip.contains c)

/-- An occurrence of class `c` as its time masters see it. -/
def classRef (c : Nat) (s : State) : State :=
  if s.owes (genRef c) || (s.ridge.locked && s.clsEn c) then
    let taken := !s.scan.owed.contains c && (s.owes (genRef c) || decide (s.reachedOf (genClass c) = s.nextOcc (genRef c) (s.clsAnchor c) (s.clsLen c)))
    let s := s.occur (genRef c) (s.clsAnchor c) (s.clsLen c)
    let occ := Tbl.get (fun _ => 0) s.scan.occ c + 1
    let s := { s with scan := { s.scan with occ := Tbl.set (fun _ => 0) s.scan.occ c occ } }
    s.refOffer c occ (s.occSkipped c taken) [0, 1, 2, 3, 4, 5]
  else s

/-- A slot anchor of a DALI channel or RS-485 port (R371, R375). -/
def slotOccurrence (ch cfg id : Nat) (s : State) : State :=
  if s.owes id || (s.ridge.locked && s.regBit (busPage ch) cfg 31) then
    let l := s.regFld (busPage ch) cfg 0 8 * halfCycle
    (s.occur id (s.reg (busPage ch) (cfg + 4)).toNat l).slotAnchor ch
  else s

/-- A sample anchor (R315): the converters take their samples, and the sense links send their down frames (R333). -/
def meterAnchor (s : State) : State :=
  if s.ridge.locked then
    let v := s.nextOcc genSample 0 (2 ^ 23)
    let s := (s.reach genSample 0 (2 ^ 23)).strobe (v / 2 ^ 23) s.allLinks
    if s.meterRuns then { s with meter := { s.meter with await := some (v / 2 ^ 23, s.tick) } } else s
  else s

/-- An occurrence of a generator whose activity leaves the module's state as it is: a HEALTH frame of a standby, a TIME frame. -/
def plainAnchor (id a l : Nat) (s : State) : State := if s.ridge.locked then s.reach id a l else s

/-- One ft passes with no command waiting: the credit check of every ft (R34). -/
def State.idle (s : State) : State := s.tickOnce.crdCheck

def anchorOccurrence (g : Anchor) (s : State) : State :=
  match g with
  | .loopGroup g => loopAnchor g s
  | .meterSample => meterAnchor s
  | .halfCycle =>
    let t := plainAnchor genHalf 0 halfCycle s
    if s.ridge.locked && s.role = rolePrimary then t.countSilent else t
  | .turnHalf => plainAnchor genTurnHalf halfCycle turn s
  | .classRef c => classRef c s
  | .daliSlot ch => slotOccurrence (6 + ch) 0x050 (genDali ch) s
  | .osdpSlot p => slotOccurrence (10 + p) 0x04C (genOsdp p) s
def execAnchorOccurrence (g : Anchor) (s : State) : Out := event (fun s => anchorOccurrence g s) s

/-! ### Base anchors -/

/-- The standby notes a base anchor of the copied configuration, with the count that each due CAN-mastered class expects (R518). -/
def State.noteAnchor (s : State) (due : List Nat) : State :=
  let mastered := due.filter fun c => [0, 1, 2, 3, 4, 5].any fun ch => s.masterOf ch c
  let want := mastered.map fun c => (c, (Tbl.get (fun _ => none) s.pair.lastRef c).map fun k => (k + 1) % 64)
  { s with pair := { s.pair with anchorAt := some s.tick, anchorDue := want } }

/-- A flagged hand-over at its base anchor (R519): the module becomes STANDBY, or saves and restarts. -/
def State.handOver (s : State) : State :=
  if s.pair.wish = 1 then s.becomeStandby
  else ({ s with pair := { s.pair with wish := 0, flagged := false } }).startSave false s.sys.restartCause

/-- BASE_ANCHOR (R197): also where a demotion (R511) and a hand-over take place, and where a standby's heartbeat decision starts. -/
def pairAnchor (s : State) : State :=
  match s.nextBase with
  | none => s
  | some (v, due) =>
    if s.pair.demote && s.role = rolePrimary then (s.reachBase v due).demoteNow
    else if s.pair.flagged && s.pair.wish ≠ 0 then (s.reachBase v due).handOver
    else
      let s := baseAnchor s
      if s.isStandby then s.noteAnchor due else s
def execBaseAnchor (s : State) : Out := event (fun s => pairAnchor s) s

end Sys2Proof.Machine
end

