-- ==== Sys2Proof/Machine/AccessRead.lean ====
section
/-! DEFINITION. What a path reads: the registers of every page as their blocks show them, the entries of the on-die
indirect spaces with their ownership, the header, and the windows (R120 to R139, Tables of the block chapters). -/

namespace Sys2Proof.Machine

set_option cleanup.letToHave false

open Sys2Proof.Config

/-! ### Registers that show something other than a stored word -/

/-- The field-bus channel of a page. -/
def busOf (pg : Nat) : Nat := if pg < 0x20 then pg - 0x18 else pg - 0x20 + 6

/-- CAP (Tables REG-13 and REG-15): the order code follows the variant and the coating. -/
def State.viewCap (s : State) (ofs : Nat) : Word :=
  if 0x040 ≤ ofs ∧ ofs < 0x800 then RegMap.capWord s.small ofs
  else if ofs = 0x810 then (if s.small then 0x3032464D else 0x3138464D)
  else if ofs = 0x814 then (if s.small then 0x412D3834 else 0x412D3239)
  else if ofs = 0x818 then (if bit (s.fuseReg 0x048) 1 then 0x0043532D else 0x0000532D)
  else if ofs = 0x820 then word (0x4100 + fld (s.fuseReg 0x048) 0 2)
  else if ofs = 0x840 then s.activeImage.fw
  else s.reg pgCAP ofs

/-- PWR (Table PWR-6). -/
def State.viewPwr (s : State) (ofs : Nat) : Word :=
  if ofs = 0x050 then s.settle.reg pgPWR ofs
  else if ofs = 0x060 then word (s.budgetWith s.daliCurrent)
  else if ofs = 0x064 then word (inputLimit s.small)
  else s.reg pgPWR ofs

/-- PHT (Table PHT-5): the live angle, a qualification that a gap restarts, and HOLD_TIME of a HOLD in progress. -/
def State.viewPht (s : State) (ofs : Nat) : Word :=
  if ofs = 0x040 then s.gapRestart.reg pgPHT 0x040
  else if ofs = 0x044 then word s.angle
  else if ofs = 0x058 then loWord s.theta
  else if ofs = 0x05C then hiWord s.theta
  else if ofs = 0x09C ∧ s.phtState = stHold then word (min ((s.tick - s.ridge.holdAt) / ftPerMs) 0xFFFFFFFF)
  else s.reg pgPHT ofs

/-- FAB (Table FAB-5). The background test is absent on the MF2048-A (R151). -/
def State.viewFab (s : State) (ofs : Nat) : Word :=
  if ofs = 0x040 then s.fabStat
  else if ofs = 0x04C then (if s.small then s.reg pgFAB 0x04C ||| 0x8F00 else s.reg pgFAB 0x04C)
  else if ofs = 0x050 then s.fabPaths
  else if 0x0A0 ≤ ofs ∧ ofs < 0x0E0 then s.fabHint ((ofs - 0x0A0) / 4)
  else if ofs = 0x0F0 then s.bankAllocWord
  else if s.small ∧ (0x120 ≤ ofs ∧ ofs ≤ 0x128) then 0
  else s.reg pgFAB ofs

/-- IRQ_N is driven low while a source of route PIN is delivered (R433), outside reset (Table ELE-19). -/
def State.pinLow (s : State) : Bool := s.power.powered && s.sys.released && s.intc.pin

/-- INT (Table INT-3). -/
def State.viewInt (s : State) (p : Path) (ofs : Nat) : Word :=
  if ofs = 0x078 then s.getBank (pathIdx p) (rkey pgINT 0x078)
  else if ofs = 0x080 then word (b2n s.pinLow)
  else if 0x100 ≤ ofs ∧ ofs < 0x200 then word (s.routeOf ((ofs - 0x100) / 4))
  else if 0x800 ≤ ofs ∧ ofs < 0xC00 then 0
  else s.reg pgINT ofs

/-- PTM (Table PTM-12): the limits of the variant. -/
def State.viewPtm (s : State) (ofs : Nat) : Word :=
  if ofs = 0x048 then word (pointLimit s.small)
  else if ofs = 0x054 then word (ctxLimit s.small)
  else if ofs = 0x060 then word (grantLimit s.small)
  else if ofs = 0x06C then word (credLimit s.small)
  else s.reg pgPTM ofs

/-- SCN.STAT (Table SCN-7). -/
def State.scnStat (s : State) : Word :=
  match s.scan.cycle with
  | some y => word (y.phase + 8 * y.due + 2048 * b2n y.late + 4096 * b2n s.freqHigh)
  | none => word (4096 * b2n s.freqHigh)

/-- SCN.BASE (Table SCN-6). -/
def State.scnBase (s : State) : Word :=
  match s.baseClass with
  | some c => word (c + 256 + 65536 * s.clsPeriod c)
  | none => 0

/-- SCN (Table SCN-6). -/
def State.viewScn (s : State) (ofs : Nat) : Word :=
  let c := s.regFld pgSCN 0x040 4 3
  let v := Tbl.get (fun _ => {}) s.scan.views c
  if ofs = 0x044 then s.scnStat
  else if ofs = 0x04C then word s.designTurn
  else if ofs = 0x050 then s.scnBase
  else if ofs = 0x054 then word s.baseBudget
  else if ofs = 0x058 then word s.worstLoad
  else if ofs = 0x0A0 then loWord v.start
  else if ofs = 0x0A4 then hiWord v.start
  else if ofs = 0x0A8 then word v.exec
  else if ofs = 0x0AC then word v.out
  else if ofs = 0x0B0 then word v.copy
  else if ofs = 0x0B4 then word v.max
  else if ofs = 0x0B8 then word (s.viewBound c)
  else if ofs = 0x0BC then v.cycle
  else s.reg pgSCN ofs

/-- SCL.LANE_STAT (Table SCL-1). -/
def State.laneStat (s : State) (l : Nat) : Word :=
  let ln := s.lane l
  let st := if s.isStandby then 4 else if ln.wait.isSome then 2 else if s.regBit (pgSCL l) 0x044 0 then 3
    else if ln.running then 1 else 0
  word (st + (if ln.running then 16 * ln.slot else 0) + 32768 * b2n ln.evb.isSome)

/-- SCL (Table SCL-1). -/
def State.viewScl (s : State) (l ofs : Nat) : Word :=
  if ofs = 0x040 then s.laneStat l
  else if ofs = 0x048 then word ((s.slot (s.lane l).slot).codeAt + (s.lane l).nextPc)
  else if ofs = 0x054 then s.laneLocks l
  else if ofs = 0x058 then s.laneWait l
  else if 0x060 ≤ ofs ∧ ofs < 0x080 then word (s.laneLoad l ((ofs - 0x060) / 4))
  else s.reg (pgSCL l) ofs

/-- LCK (Table LCK-2); locks beyond the variant's read 0. -/
def State.viewLck (s : State) (p : Path) (ofs : Nat) : Word :=
  let n := ofs % 0x400 / 4
  if ofs = 0x040 then word (lockLimit s.small)
  else if ofs = 0x044 then s.heldCount
  else if ofs = 0x050 then s.getBank (pathIdx p) (dkey pgLCK 0x050)
  else if 0x400 ≤ ofs ∧ ofs < 0xC00 ∧ lockLimit s.small ≤ n then 0
  else if 0x400 ≤ ofs ∧ ofs < 0x800 then s.lockStateWord n
  else s.reg pgLCK ofs

/-- LPE (Table LPE-8). -/
def State.viewLpe (s : State) (ofs : Nat) : Word :=
  if ofs = 0x054 then word (cascadeLimit s.small)
  else if ofs = 0x060 then word (sosLimit s.small)
  else if ofs = 0x06C then word (pidLimit s.small)
  else s.reg pgLPE ofs

/-- The field-bus pages (Tables BUS-8, CAN-3, DAL-1, RSB-1). -/
def State.viewBus (s : State) (pg ofs : Nat) : Word :=
  let ch := busOf pg
  if isCan ch then
    if ofs = 0x054 then s.canStatWord ch
    else if pg = pgPool ∧ ofs = 0x300 then word (creditTotal s.small)
    else s.reg pg ofs
  else if isDali ch then
    if ofs = 0x048 then s.daliStat ch
    else if ofs = 0x058 then (busVoltage ch s.tick).setWidth 32
    else s.reg pg ofs
  else if ofs = 0x058 then s.rsbStat ch
  else s.reg pg ofs

/-- The Ethernet pages (Tables NET-2, T1S-1, UPL-1). A static IPv4 address is in use while DHCP4 is 0 (R382); no command
brings an address from a server (NOTES.md, Scope). -/
def State.viewNet (s : State) (pg ofs : Nat) : Word :=
  if ofs = 0x090 ∧ s.regBit pg 0x080 0 ∧ !s.regBit pg 0x080 1 then s.reg pg 0x084
  else if pg ≤ 0x29 then (if ofs = 0x04C then s.t1sStat (pg - 0x28) else s.reg pg ofs)
  else if ofs = 0x040 then portCtlOf (pg - 0x2A) (s.reg pg 0x040)
  else if pg = 0x2A ∧ ofs = 0x050 then s.sfpAge
  else s.reg pg ofs

/-- KEY (Table KEY-7): KUM_STAT and ATT_SIG are of the path. -/
def State.viewKey (s : State) (p : Path) (ofs : Nat) : Word :=
  if ofs = 0x040 then s.lcState
  else if ofs = 0x050 then word (keyLimit s.small)
  else if ofs = 0x064 ∨ (0x100 ≤ ofs ∧ ofs < 0x140) then s.getBank (pathIdx p) (dkey pgKEY ofs)
  else s.reg pgKEY ofs

/-- PAR (Table PAR-9): the mirror registers are of the path. -/
def State.viewPar (s : State) (p : Path) (ofs : Nat) : Word :=
  if ofs = 0x044 then s.parStat
  else if ofs = 0x05C then s.healthWord
  else if ofs = 0x068 then word (s.regFld pgPAR 0x068 0 16 + 65536 * s.activeImage.proto)
  else if ofs = 0x06C then s.cfgSum
  else if ofs = 0x08C then word s.dirtyWords.length
  else if ofs = 0x090 then word s.pair.log.length
  else if ofs = 0x0C0 ∨ ofs = 0x0C4 ∨ ofs = 0x0CC ∨ ofs = 0x0D0 then s.getBank (pathIdx p) (rkey pgPAR ofs)
  else s.reg pgPAR ofs

/-- The loader registers (Table LDR-11): SLOT_SEL is of the path. -/
def State.viewLdr (s : State) (p : Path) (ofs : Nat) : Word :=
  let sel := (s.getBank (pathIdx p) (lkey 0x014)).toNat
  if ofs = 0x004 then setFld (s.ldr 0x004) 0 3 s.ldrState
  else if ofs = 0x014 then s.getBank (pathIdx p) (lkey 0x014)
  else if ofs = 0x018 then s.slotInfo sel
  else if ofs = 0x01C then s.slotGen sel
  else if ofs = 0x020 then s.slotPid sel
  else if ofs = 0x02C then word (slotLimit s.small)
  else if ofs = 0x034 then s.slotCode sel
  else s.ldr ofs

/-- The value of a block register that a read returns. -/
def State.shown (s : State) (p : Path) (pg ofs : Nat) : Word :=
  if pg = pgCAP then s.viewCap ofs
  else if pg = pgSYS then (if ofs = 0x058 then setFld (s.reg pgSYS 0x058) 12 4 (min s.recentFaults.length 15) else s.reg pgSYS ofs)
  else if pg = pgPWR then s.viewPwr ofs
  else if pg = pgPHT then s.viewPht ofs
  else if pg = pgFAB then s.viewFab ofs
  else if pg = pgINT then s.viewInt p ofs
  else if pg = pgPTM then s.viewPtm ofs
  else if pg = pgSCN then s.viewScn ofs
  else if 0x08 ≤ pg ∧ pg ≤ 0x0F then s.viewScl (pg - 0x08) ofs
  else if pg = pgLCK then s.viewLck p ofs
  else if pg = pgLPE then s.viewLpe ofs
  else if pg = pgMTR then (if ofs = 0x044 then s.mtrStat else s.reg pg ofs)
  else if pg = pgPLS then (if 0x040 ≤ ofs ∧ ofs < 0x140 ∧ ofs % 32 = 16 then s.plsStat ((ofs - 0x040) / 32) else s.reg pg ofs)
  else if 0x18 ≤ pg ∧ pg ≤ 0x27 then s.viewBus pg ofs
  else if 0x28 ≤ pg ∧ pg ≤ 0x2B then s.viewNet pg ofs
  else if pg = pgKEY then s.viewKey p ofs
  else if pg = pgPAR then s.viewPar p ofs
  else if pg = pgRTC then (if ofs = 0x064 then s.rtcStat else s.reg pg ofs)
  else if pg = pgCRN then (if ofs = 0x048 then word (cairnBytes s.small) else s.reg pg ofs)
  else if pg = pgFUS then (if ofs < 0x064 then s.fuseReg ofs else s.reg pg ofs)
  else if pg = pgDIO then (if ofs = 0x064 then s.doState else s.reg pg ofs)
  else s.reg pg ofs

/-! ### Reading by access code (Table DOC-4, R124) -/

/-- A read of a register whose row is `r`, whose key is `k` and whose value is `v`; `hi` is the value of its HI word where it
is the LO word of a pair. -/
def State.readBy (s : State) (p : Path) (k : Nat) (r : Option Row) (v hi : Word) : State × Nat × Word :=
  match r with
  | none => (s, stOk, v)
  | some r =>
    match r.acc with
    | .rc => (s.setKey k 0, stOk, v)
    | .wo => (s, stOk, 0)
    | .w1p => (s, stOk, 0)
    | _ => if r.pair then (s.latchRead p k hi, stOk, v) else (s, stOk, v)

/-- The register is the HI word of a pair. -/
def isHi (pg ofs : Nat) : Bool := match RegMap.rowOf pg (ofs - 4) with | some r => r.pair | none => false

/-- A read of a block register of a page, direct or (on a page of method Indirect) at its indirect address. -/
def readBlock (p : Path) (pg ofs : Nat) (s : State) : State × Nat × Word :=
  let s := if pg = pgFAB then s.fabPast else s
  if pg = pgRTC ∧ 0x040 ≤ ofs ∧ ofs ≤ 0x060 then timeReadEffect ofs s
  else if pg = pgDIO ∧ 0x084 ≤ ofs ∧ ofs < 0x100 ∧ ofs % 8 = 4 then diStampRead p ((ofs - 0x084) / 8) s
  else if pg = pgPHT ∧ ofs = 0x044 then
    ((s.setReg pgPHT 0x048 (s.reg pgPHT 0x050)).setReg pgPHT 0x04C (s.reg pgPHT 0x054), stOk, s.shown p pg ofs)
  else if pg = pgFAB ∧ s.small ∧ 0x314 ≤ ofs ∧ ofs ≤ 0x31C then (s, stOk, 0)
  else if isHi pg ofs then (s, stOk, s.latchedHi p (rkey pg (ofs - 4)))
  else s.readBy p (rkey pg ofs) (RegMap.rowOf pg ofs) (s.shown p pg ofs) (s.shown p pg (ofs + 4))

/-! ### Entries of the on-die indirect spaces -/

/-- How many entries of a space the variant has. -/
def spaceCount (small : Bool) (sp : RegMap.Space) : Nat := if small then sp.small else sp.large

/-- The entry that an indirect address names: its space, its number, and the byte offset in it. Quotas lie on CAN0 alone, and
session 0 is no session. -/
def State.entryAt (s : State) (pg ia : Nat) : Option (RegMap.Space × Nat × Nat) :=
  match RegMap.spaceOf pg ia with
  | none => none
  | some sp =>
    let n := (ia - sp.base) / sp.size
    if spaceCount s.small sp ≤ n then none
    else if 0x19 ≤ pg ∧ pg ≤ 0x1D ∧ 0x100000 ≤ ia then none
    else if pg = pgTUN ∧ n = 0 then none
    else some (sp, n, (ia - sp.base) % sp.size)

/-- The loop that an LPE entry belongs to. -/
def lpeLoop (sp : RegMap.Space) (n : Nat) : Nat := if sp.base = 0x060000 then 1024 + n else n

/-- A context other than 0 may read an entry: what it owns (R178, R307, R457, R548, and the pages of MTR and KEY). -/
def State.mayRead (s : State) (p : Path) (pg : Nat) (sp : RegMap.Space) (n : Nat) : Bool :=
  let c := s.ctxOf p
  if pg = pgPTM then
    if sp.base = 0 then s.ptType n ≠ 0 && s.ptOwner n = c
    else if sp.base = 0x040000 then n = c
    else if sp.base = 0x050000 then
      s.ptType (fld (s.grSrc n) 0 13) ≠ 0 && s.ptOwner (fld (s.grSrc n) 0 13) = c
    else s.crOwner n = c && bit (s.ctxDef c) 5
  else if pg = pgLPE then (if sp.base = 0x020000 then s.maySect p n else s.mayLoop p (lpeLoop sp n))
  else if pg = pgMTR then s.mayChannel c n
  else if pg = pgKEY then s.keyOwner n = c
  else if pg = pgCRN then n = c
  else false

/-- A word of an entry as read: the window of context 0 spans every point (R157), CH_STAT shows the channel's state. -/
def State.entryWord (s : State) (pg ia : Nat) : Word :=
  if pg = pgPTM ∧ ia = 0x040000 then word (65536 * pointLimit s.small)
  else if pg = pgMTR ∧ ia % 256 = 0x18 then setFld (s.ind pg ia) 0 2 (s.chanState (ia / 256))
  else s.ind pg ia

/-- A read of the on-die indirect space of a page (R139, R179). -/
def readEntry (p : Path) (pg ia : Nat) (s : State) : State × Nat × Word :=
  let c := s.ctxOf p
  if pg = pgUPD then updRead p ia s
  else if pg = 0x2A then (s, stOk, if ia < 512 then s.sfpWord ia else 0)
  else if 0x18 ≤ pg ∧ pg ≤ 0x23 ∧ 0x010000 ≤ ia ∧ ia < 0x010000 + 128 * imgSlots (busOf pg) then
    let img := Tbl.get (fun _ => []) (s.busCh (busOf pg)).img ((ia - 0x010000) / 128)
    if ia % 128 / 4 = 2 then (s.latchRead p (ikey pg ia) (word (imgWord img 3)), stOk, word (imgWord img 2))
    else if ia % 128 / 4 = 3 then (s, stOk, s.latchedHi p (ikey pg (ia - 4)))
    else (s, stOk, word (imgWord img (ia % 128 / 4)))
  else
    match s.entryAt pg ia with
    | none => (s, s.undefAt p, 0)
    | some (sp, n, o) =>
      if pg = pgMTR && !s.chExists n then (s, s.undefAt p, 0)
      else if c ≠ 0 && !s.mayRead p pg sp n then (s, stDenied, 0)
      else if (match sp.rows.find? (RegMap.holds (o - 4)) with | some r => r.pair | none => false) then
        (s, stOk, s.latchedHi p (ikey pg (ia - 4)))
      else s.readBy p (ikey pg ia) (sp.rows.find? (RegMap.holds o)) (s.entryWord pg ia) (s.entryWord pg (ia + 4))

/-! ### The header (Table REG-3) -/

/-- PAGE_STAT as read (Table REG-6). -/
def State.pageStat (s : State) (pg : Nat) : Word :=
  setBit (setBit (s.reg pg 0x00C) 0 (Tbl.get (fun _ => none) s.busy pg : Option IndOp).isSome) 2 (s.shadowDirty pg)

/-- IND_ADDR of a path (R139). -/
def State.indAddr (s : State) (p : Path) (pg : Nat) : Word := s.getBank (pathIdx p) (dkey pg 0x020)

/-- The address after an IND_DATA access (R139). -/
def State.indNext (s : State) (p : Path) (pg : Nat) : State :=
  let w := s.indAddr p pg
  if bit w 31 then s.setBank (pathIdx p) (dkey pg 0x020) (setFld w 0 24 (fld w 0 24 + 4)) else s

/-! ### Slow pages -/

/-- SNS reports the head absent: its link is in none of the states in which frames run (R140, R335). -/
def State.headAbsent (s : State) (ia : Nat) : Bool :=
  match headOf ia with
  | none => false
  | some (l, _) => !(s.linkState l = lkRun || s.linkState l = lkGap)

/-- What a head register reads when its head sends `w` (Table SNS-5): the bits it implements, and the order suffix. -/
def headWord (o : Nat) (w : Word) : Word :=
  if o ≤ 0x0C then w
  else if o = 0x10 then (w &&& 0xFF) ||| 0x4100
  else if o = 0x14 ∨ o = 0x18 then w &&& 0xFFFF
  else 0

/-- A read of the indirect space of a slow page. A head register gives what its head has sent in reply (R335). -/
def readSlow (p : Path) (pg ia : Nat) (s : State) : State × Nat × Word :=
  match (if pg = pgSNS then headOf ia else none) with
  | some (l, o) => (s, stOk, headWord o ((s.link l).reply.getD 0))
  | none => if ia < 0x40 ∨ 0x1000 ≤ ia then (s, stOk, 0) else readBlock p pg ia s

end Sys2Proof.Machine
end

