-- ==== Sys2Proof/Machine/AccessWrite.lean ====
section
/-! DEFINITION. What a path's write does: block registers by page, the entries of the on-die indirect spaces with their
latches and effect words (R180), the header, commits of shadows (R133 to R135), and the registers of the slow pages. -/

namespace Sys2Proof.Machine

set_option cleanup.letToHave false

open Sys2Proof.Config

/-! ### Writes by a row -/

/-- A write whose settled value the block's own rule takes; a clamped one is noted where it is applied (R130, R132). -/
def settleInto (pg ofs : Nat) (r : Row) (al : Alias) (data : Word) (f : Word → State → State × Nat) (s : State) :
    State × Nat :=
  let old := s.reg pg ofs
  let x := f (settled pg ofs r al old data) s
  (x.1.noteClamp pg ofs (wasClamped pg ofs r al old data && decide (x.2 = stOk)), x.2)

/-- The same with the register's row of the map. -/
def settleRow (pg ofs : Nat) (al : Alias) (data : Word) (f : Word → State → State × Nat) (s : State) : State × Nat :=
  match RegMap.rowOf pg ofs with
  | some r => settleInto pg ofs r al data f s
  | none => (s, stOk)

/-- A write-only or pulsed register acts through the plain and the set alias (Table REG-8). -/
def pulse (al : Alias) (f : State → State × Nat) (s : State) : State × Nat := if aliasActs al then f s else (s, stOk)

/-- A register with no further rule (R128, R131). -/
def writePlain (pg ofs : Nat) (al : Alias) (data : Word) (s : State) : State × Nat :=
  match rowAt pg ofs with
  | some r => (s.writeRow pg ofs (rkey pg ofs) r al data, stOk)
  | none => (s, stOk)

/-- A register of the path's own bank: RW of the bits of `mask`. -/
def writeBank (p : Path) (k : Nat) (mask : Word) (al : Alias) (data : Word) (s : State) : State × Nat :=
  (s.setBank (pathIdx p) k (aliasValue al (s.getBank (pathIdx p) k) data &&& mask), stOk)

/-! ### Block registers -/

def writeInt (p : Path) (ofs : Nat) (al : Alias) (data : Word) (s : State) : State × Nat :=
  if 0x060 ≤ ofs ∧ ofs < 0x070 then enEffectWrite ((ofs - 0x060) / 4) (aliasValue al (s.reg pgINT ofs) data) s
  else if ofs = 0x070 then pulse al (takeEffect p data) s
  else if ofs = 0x074 then pulse al (doneEffect p data) s
  else if ofs = 0x07C then pulse al (swsetEffect data) s
  else if 0x100 ≤ ofs ∧ ofs < 0x300 then
    routeEffect ((ofs - 0x100) / 4) (aliasValue al (word (s.routeOf ((ofs - 0x100) / 4))) data &&& 3) s
  else if 0x800 ≤ ofs then (s, stOk)
  else writePlain pgINT ofs al data s

/-- LANE_CTL (R225): HALT, then a STEP pulse of a halted lane. -/
def laneCtlEffect (l : Nat) (al : Alias) (data : Word) (s : State) : State × Nat :=
  let r := haltEffect l (bit (aliasValue al (s.reg (pgSCL l) 0x044) data) 0) s
  let s := r.1
  let step := aliasActs al && bit data 1 && s.debugEnabled && s.regBit (pgSCL l) 0x044 0
  (if step then s.setLane l { s.lane l with step := true } else s, r.2)

def writePls (ofs : Nat) (al : Alias) (data : Word) (s : State) : State × Nat :=
  let n := (ofs - 0x040) / 32
  if 0x040 ≤ ofs ∧ ofs < 0x140 then
    match ofs % 32 with
    | 0 => settleRow pgPLS ofs al data (plsSrcEffect n false) s
    | 4 => settleRow pgPLS ofs al data (plsSrcEffect n true) s
    | 12 => settleRow pgPLS ofs al data (plsCtlEffect n) s
    | _ => writePlain pgPLS ofs al data s
  else writePlain pgPLS ofs al data s

def writeBus (pg ofs : Nat) (al : Alias) (data : Word) (s : State) : State × Nat :=
  let ch := busOf pg
  if ofs = 0x040 then settleRow pg ofs al data (busCtlEffect ch) s
  else if isCan ch ∧ ofs = 0x044 then pulse al (canCmdEffect ch data) s
  else if isCan ch ∧ (ofs = 0x048 ∨ ofs = 0x04C ∨ ofs = 0x050) then bitTimingEffect ch ((ofs - 0x048) / 4) al data s
  else if isDali ch ∧ ofs = 0x044 then settleRow pg ofs al data (daliPwrEffect (ch - 6)) s
  else if ofs = 0x078 then pulse al (fun s => (s.hwmOne pg 0x070 0x074 (bit data 0), stOk)) s
  else if 0x200 ≤ ofs ∧ ofs < 0x240 then
    settleInto pg ofs (qcfgRow ch ((ofs - 0x200) / 4)) al data (qcfgEffect ch ((ofs - 0x200) / 4)) s
  else writePlain pg ofs al data s

def writeNet (pg ofs : Nat) (al : Alias) (data : Word) (s : State) : State × Nat :=
  if pg ≤ 0x29 ∧ ofs = 0x040 then settleRow pg ofs al data (t1sCtlEffect (pg - 0x28)) s
  else if pg ≤ 0x29 ∧ (ofs = 0x044 ∨ ofs = 0x048) then settleRow pg ofs al data (plcaEffect (pg - 0x28) ofs) s
  else if 0x2A ≤ pg ∧ ofs = 0x040 then settleRow pg ofs al data (portCtlEffect (pg - 0x2A)) s
  else if pg = 0x2B ∧ ofs = 0x048 then
    let r := writePlain pg ofs al data s
    (r.1.eeeResolve r.1.net.partnerTw, r.2)
  else writePlain pg ofs al data s

def writeKey (p : Path) (ofs : Nat) (al : Alias) (data : Word) (s : State) : State × Nat :=
  if ofs = 0x044 then pulse al (lcAdvEffect p data) s
  else if ofs = 0x054 then pulse al (fun s => (s.hwmOne pgKEY 0x048 0x04C (bit data 0), stOk)) s
  else if ofs = 0x060 then pulse al (kumCmdEffect p data) s
  else if 0x300 ≤ ofs ∧ ofs < 0x320 then pulse al (plainKeyEffect p ((ofs - 0x300) / 4) data) s
  else if ofs = 0x320 then pulse al (plainCtlEffect p data) s
  else if 0x400 ≤ ofs ∧ ofs < 0x478 then pulse al (fun s => (s.setBank (pathIdx p) (dkey pgKEY ofs) data, stOk)) s
  else writePlain pgKEY ofs al data s

def writePar (p : Path) (ofs : Nat) (al : Alias) (data : Word) (s : State) : State × Nat :=
  if ofs = 0x0C0 ∨ ofs = 0x0C4 then writeBank p (rkey pgPAR ofs) 0xFFFFFFFF al data s
  else if ofs = 0x0C8 then pulse al (mirCmdEffect p data) s
  else writePlain pgPAR ofs al data s

/-- CRN.FILL_TH is held at CAPACITY of the variant (Table CRN-4). -/
def writeCrn (ofs : Nat) (al : Alias) (data : Word) (s : State) : State × Nat :=
  let old := s.reg pgCRN 0x040
  if ofs = 0x040 then
    crnCtlEffect (settled pgCRN 0x040 crnCtlRow al old data) (wasClamped pgCRN 0x040 crnCtlRow al old data) s
  else if ofs = 0x058 then pulse al (crnReleaseEffect data) s
  else if ofs = 0x05C then
    let w := aliasValue al (s.reg pgCRN 0x05C) data
    let v := word (min w.toNat (cairnBytes s.small))
    ((s.setReg pgCRN 0x05C v).noteClamp pgCRN 0x05C (decide (v ≠ w)), stOk)
  else writePlain pgCRN ofs al data s

/-- A write of a block register of a page, at its direct offset, or at its indirect address on a page of method Indirect. -/
def writeBlock (p : Path) (pg ofs : Nat) (al : Alias) (data : Word) (s : State) : State × Nat :=
  let s := if pg = pgFAB then s.fabPast else s
  if pg = pgSYS ∧ ofs = 0x04C then pulse al (restartEffect data) s
  else if pg = pgPHT ∧ ofs = 0x08C then pulse al (annCycleEffect data) s
  else if pg = pgFAB ∧ (ofs = 0x0E0 ∨ ofs = 0x0E4) then
    bankPwrEffect ((ofs - 0x0E0) / 4) (aliasValue al (s.reg pgFAB ofs) data) s
  else if pg = pgFAB ∧ s.small ∧ ofs = 0x120 then (s, stOk)
  else if pg = pgINT then writeInt p ofs al data s
  else if pg = pgPTM ∧ ofs = 0x070 then pulse al (ptmHwmEffect data) s
  else if pg = pgSCN ∧ 0x400 ≤ ofs ∧ ofs < 0x500 then settleInto pgSCN ofs evbRow al data (evbEffect ((ofs - 0x400) / 4)) s
  else if 0x08 ≤ pg ∧ pg ≤ 0x0F ∧ ofs = 0x044 then laneCtlEffect (pg - 0x08) al data s
  else if pg = pgLCK ∧ ofs = 0x048 then pulse al (pathAcqEffect p data) s
  else if pg = pgLCK ∧ ofs = 0x04C then pulse al (pathRelEffect p data) s
  else if pg = pgLCK ∧ 0x800 ≤ ofs ∧ ofs < 0xC00 then
    settleInto pgLCK ofs lockCfgRow al data (lockCfgEffect ((ofs - 0x800) / 4)) s
  else if pg = pgLPE ∧ ofs = 0x070 then pulse al (lpeHwmEffect data) s
  else if pg = pgPLS then writePls ofs al data s
  else if pg = pgPQE ∧ ofs = 0x048 then settleRow pgPQE ofs al data vchCfgEffect s
  else if 0x18 ≤ pg ∧ pg ≤ 0x27 then writeBus pg ofs al data s
  else if 0x28 ≤ pg ∧ pg ≤ 0x2B then writeNet pg ofs al data s
  else if pg = pgKEY then writeKey p ofs al data s
  else if pg = pgUPD ∧ ofs = 0x044 then pulse al (updCmdEffect p data) s
  else if pg = pgPAR then writePar p ofs al data s
  else if pg = pgCRN then writeCrn ofs al data s
  else if pg = pgDIO ∧ ofs = 0x060 then doCmdEffect (aliasValue al (s.reg pgDIO 0x060) data) s
  else if pg = pgDIO ∧ 0x180 ≤ ofs ∧ ofs < 0x1C0 then settleRow pgDIO ofs al data (diMapEffect ((ofs - 0x180) / 4)) s
  else if pg = pgDIO ∧ 0x1C0 ≤ ofs ∧ ofs < 0x1E0 then settleRow pgDIO ofs al data (doMapEffect ((ofs - 0x1C0) / 4)) s
  else writePlain pg ofs al data s

/-- A write of a register of a slow page (R140, R439 to R445, R479, R331). Head registers are RO. -/
def writeSlow (p : Path) (pg ia : Nat) (al : Alias) (data : Word) (s : State) : State × Nat :=
  if ia < 0x40 ∨ 0x1000 ≤ ia then (s, stOk)
  else if pg = pgRTC ∧ 0x044 ≤ ia ∧ ia ≤ 0x060 then timeWriteEffect ia al data s
  else if pg = pgRTC ∧ (ia = 0x148 ∨ ia = 0x158) then alarmCtlEffect ((ia - 0x148) / 16) al data s
  else if pg = pgFUS then (if (RegMap.rowOf pgFUS ia).isSome then fuseEffect ia data s else (s, stOk))
  else if pg = pgSNS ∧ (ia = 0x080 ∨ ia = 0x0C0 ∨ ia = 0x100) then
    settleRow pgSNS ia al data (linkCtlEffect ((ia - 0x080) / 64)) s
  else writeBlock p pg ia al data s

/-! ### Entries (R180) -/

/-- A latched word of an entry is held: the alias acts on the word held for the path, else on the word in force. -/
def latchEntry (p : Path) (pg sp base o : Nat) (rows : List Row) (al : Alias) (data : Word) (s : State) : State × Nat :=
  let old := s.latchedWord p sp base o (s.ind pg (base + o))
  (s.latchWord p sp base o (entRaw rows o al old data), stOk)

/-- An effect word, or a word that is its own effect, with its settled value. -/
def effectWord (pg ia o : Nat) (rows : List Row) (al : Alias) (data : Word) (f : Word → State → State × Nat) (s : State) :
    State × Nat :=
  let old := s.ind pg ia
  let x := f (entSettle pg rows o al old data) s
  (x.1.noteClamp pg ia (entClamped pg rows o al old data && decide (x.2 = stOk)), x.2)

/-- A write that the path's context may make, else DENIED. -/
def allowed (ok : Bool) (f : State → State × Nat) (s : State) : State × Nat := if ok then f s else (s, stDenied)

/-- The PTM tables (R169, R178, R182, R548). -/
def writePtm (p : Path) (base n o ia : Nat) (rows : List Row) (al : Alias) (data : Word) (s : State) : State × Nat :=
  let c := s.ctxOf p
  let all := decide (c = 0)
  if base = 0 then
    if o = 0x00 then effectWord pgPTM ia o rows al data (withEntry p spPoint (ptAddr n) ∘ ptDefEffect p n) s
    else if o = 0x08 ∨ o = 0x0C then allowed (s.mayForce c n) (latchEntry p pgPTM spPoint (ptAddr n) o rows al data) s
    else if o = 0x10 then effectWord pgPTM ia o rows al data (ptForceEffect p n) s
    else if o = 0x1C then effectWord pgPTM ia o rows al data (withEntry p spPoint (ptAddr n) ∘ ptTunEffect p n) s
    else allowed all (fun s => (s, stOk)) s
  else if base = 0x040000 then
    if o = 0x0 then
      allowed all (latchEntry p pgPTM spCtx (ctxAddr n) o rows al data) s
    else if o = 0x4 then effectWord pgPTM ia o rows al data (ctxDefEffect p n) s
    else allowed all (fun s => (s, stOk)) s
  else if base = 0x050000 then
    let owns := fun (w : Word) => s.ptType (fld w 0 13) ≠ 0 && s.ptOwner (fld w 0 13) = c
    if o = 0x0 then
      allowed (all || owns (s.grSrc n)) (latchEntry p pgPTM spGrant (grAddr n) o rows al data) s
    else effectWord pgPTM ia o rows al data (grantEffect p n) s
  else
    let may := all || (s.crOwner n = c && bit (s.ctxDef c) 5)
    if o = 0x18 then effectWord pgPTM ia o rows al data (crDefEffect p n) s
    else if o < 0x18 then allowed may (latchEntry p pgPTM spCred (crAddr n) o rows al data) s
    else allowed may (fun s => (s, stOk)) s

/-- The loop and section entries (R180, R292, R295, R297, R307, R308). -/
def writeLpe (p : Path) (base n o ia : Nat) (rows : List Row) (al : Alias) (data : Word) (s : State) : State × Nat :=
  let all := decide (s.ctxOf p = 0)
  if base = 0x020000 then
    if o < 0x14 then allowed (s.maySect p n) (latchEntry p pgLPE spSos (sosAddr n) o rows al data) s
    else if o = 0x14 then effectWord pgLPE ia o rows al data (sosCtlEffect p n) s
    else allowed (s.maySect p n) (fun s => (s, stOk)) s
  else
    let k := if base = 0x060000 then 1024 + n else n
    let old := s.ind pgLPE ia
    if o = 0x30 then allowed all (effectWord pgLPE ia o rows al data (lpDefEffect p k)) s
    else if o = 0x00 ∨ o = 0x04 ∨ o = 0x0C ∨ (o = 0x40 ∧ k < 1024) then
      allowed all (latchEntry p pgLPE (spLoop k) (loopAddr k) o rows al data) s
    else if o = 0x2C then
      loopWrite p k (lpCtlEffect k (bit (aliasValue al old data) 0) (aliasActs al && bit data 1)) s
    else if o = 0x14 ∨ o = 0x18 then loopWrite p k (outLimitEffect k (o = 0x18) (aliasValue al old data)) s
    else if 1024 ≤ k ∧ 0x40 ≤ o ∧ o ≤ 0x50 then loopWrite p k (pidTuneEffect k o (aliasValue al old data)) s
    else if (rows.filter (fun r => r.acc = .rw)).any (RegMap.holds o) then
      loopWrite p k (effectWord pgLPE ia o rows al data (loopWordEffect k o)) s
    else loopGate p k (fun s => (s, stOk)) s

/-- The channel entries of MTR (R324, R326, R348): CH_SCALE is clamped as binary32. -/
def writeMtr (p : Path) (n o ia : Nat) (rows : List Row) (al : Alias) (data : Word) (s : State) : State × Nat :=
  if !s.chExists n then (s, s.undefAt p)
  else if o = 0x1C then chWrapEffect p n al data s
  else if o = 0x04 then
    let w := aliasValue al (s.ind pgMTR ia) data
    allowed (s.ctxOf p = 0) (fun s =>
      let x := chWordEffect n 4 w s
      (x.1.noteClamp pgMTR ia (decide (isCurrent n ∧ x.1.ind pgMTR ia ≠ w)), x.2)) s
  else allowed (s.ctxOf p = 0) (effectWord pgMTR ia o rows al data (chWordEffect n o)) s

/-- The entries of a field-bus page (R356, R361, R363, R379). -/
def writeBusEntry (p : Path) (pg base n o ia : Nat) (rows : List Row) (al : Alias) (data : Word) (s : State) : State × Nat :=
  let ch := busOf pg
  if base = 0 then
    if o < 8 then latchEntry p pg (spBus pg 0) (16 * n) o rows al data s
    else if o = 8 then
      effectWord pg ia o rows al data (fun raw s =>
        let w := clampAct ch raw
        let x := fltActEffect p ch n w s
        (x.1.noteClamp pg ia (decide (w ≠ raw)), x.2)) s
    else (s, stOk)
  else if base = 0x020000 then effectWord pg ia o rows al data (imgCfgEffect ch n) s
  else if base = 0x030000 then
    if o < 8 then latchEntry p pg (spBus pg 1) (0x030000 + 16 * n) o rows al data s
    else if o = 8 then effectWord pg ia o rows al data (ofCfgEffect p ch n) s
    else (s, stOk)
  else if base = 0x040000 then
    if o = 0 then latchEntry p pg (spBus pg 2) (0x040000 + 8 * n) o rows al data s
    else effectWord pg ia o rows al data (mapDefEffect p ch n) s
  else if base = 0x050000 then
    if o < 8 then latchEntry p pg (spBus pg 3) (0x050000 + 16 * n) o rows al data s
    else if o = 8 then effectWord pg ia o rows al data (pollDefEffect p ch n) s
    else (s, stOk)
  else if o = 0 then effectWord pg ia o rows al data (crdAllocEffect n) s
  else (s, stOk)

/-- A write to the on-die indirect space of a page (R139, R179, R180). -/
def writeEntry (p : Path) (pg ia : Nat) (al : Alias) (data : Word) (s : State) : State × Nat :=
  let all := decide (s.ctxOf p = 0)
  if pg = pgUPD then (if ia < 0x1000 then bufferEffect p (ia / 4) al data s else (s, stOk))
  else
    match s.entryAt pg ia with
    | none => allowed all (fun s => (s, stOk)) s
    | some (sp, n, o) =>
      if pg = pgPTM then writePtm p sp.base n o ia sp.rows al data s
      else if pg = pgLPE then writeLpe p sp.base n o ia sp.rows al data s
      else if pg = pgMTR then writeMtr p n o ia sp.rows al data s
      else if 0x18 ≤ pg ∧ pg ≤ 0x27 then writeBusEntry p pg sp.base n o ia sp.rows al data s
      else if pg = pgTUN then
        if o = 0x00 then latchEntry p pg spSession (32 * n) o sp.rows al data s
        else if o = 0x04 then effectWord pg ia o sp.rows al data (sesDefEffect p n) s
        else if o = 0x1C then pulse al (sesCtlEffect n data) s
        else (s, stOk)
      else if pg = pgCRN ∧ o = 0 then allowed all (effectWord pg ia o sp.rows al data (crnQuotaEffect n)) s
      else allowed all (fun s => (s, stOk)) s

/-! ### Shadows (R133 to R135) -/

/-- Generators whose configuration changed count their occurrences from now (R106, R192). -/
def State.gensFrom (s : State) : List Nat → State
  | [] => s
  | g :: t => (s.genFrom g).gensFrom t

/-- Occurrences of the commit ft that have yet to come do so under the old configuration of `s` (R192): the base anchor with its due set,
and the reference anchors of the moved classes. -/
def State.oweRefs (t s : State) : List Nat → State
  | [] => t
  | c :: r => (t.setOwes (genRef c) (s.owes (genRef c) || (s.clsEn c && s.genDue (genRef c) (s.clsAnchor c) (s.clsLen c)))).oweRefs s r
def State.oweAnchors (t s : State) (moved : List Nat) : State :=
  let t := t.oweRefs s moved
  match s.nextBase with
  | some (some v, due) =>
    if v ≤ s.theta && due.any moved.contains then
      let t := t.reachAll v due
      { t with scan := { t.scan with owed := due } }
    else t
  | _ => t

/-- SHADOW_COMMIT of SCN (R191, R192, R194). -/
def scnCommit (s : State) : State × Nat :=
  let t := s.applyShadows pgSCN (shadowOfs pgSCN)
  if !t.classesOk || !t.budgetOk then s.commitErr pgSCN
  else
    let moved := (List.range 8).filter fun c =>
      t.reg pgSCN (0x060 + 8 * c) ≠ s.reg pgSCN (0x060 + 8 * c) || t.reg pgSCN (0x064 + 8 * c) ≠ s.reg pgSCN (0x064 + 8 * c)
    (((t.oweAnchors s moved).gensFrom (moved.map genClass ++ moved.map genRef)).noteFreq s.freqHigh, stOk)

/-- SHADOW_COMMIT of LPE (R284). -/
def lpeCommit (s : State) : State × Nat :=
  if s.lpeCommitOk then ((s.applyShadows pgLPE (shadowOfs pgLPE)).lpeCommitted s.grpCfg ((List.range 16).filter s.grpDue), stOk) else s.commitErr pgLPE

/-- SHADOW_COMMIT of a DALI or RS-485 page (R371, R375). A slot anchor of the commit ft comes under the old configuration, as R192 has it
for classes (DEDUCED, log entry 55). -/
def slotCommit (pg : Nat) (s : State) : State × Nat :=
  let t := s.applyShadows pg (shadowOfs pg)
  let moved := (shadowOfs pg).any fun o => t.reg pg o ≠ s.reg pg o
  let gen := if pg < 0x24 then genDali (pg - 0x20) else genOsdp (pg - 0x24)
  let cfg := if pg < 0x24 then 0x050 else 0x04C
  let due := s.regBit pg cfg 31 && s.genDue gen (s.reg pg (cfg + 4)).toNat (s.regFld pg cfg 0 8 * halfCycle)
  (if moved then (t.setOwes gen (s.owes gen || due)).genFrom gen else t, stOk)

/-- SHADOW_COMMIT of PHT (R110 to R112). -/
def phtShadowCommit (s : State) : State × Nat :=
  let t := s.applyShadows pgPHT (shadowOfs pgPHT)
  (t.phtCommit (s.regFld pgPHT 0x078 0 2) (t.regFld pgPHT 0x078 0 2), stOk)

/-- A commit of a page (R134). -/
def commitEffect (pg : Nat) (s : State) : State × Nat :=
  if pg = pgPHT then phtShadowCommit s
  else if pg = pgFAB then fabCommit s
  else if pg = pgSCN then scnCommit s
  else if pg = pgLPE then lpeCommit s
  else if pg = pgMLG then mlgCommit s
  else if 0x20 ≤ pg ∧ pg ≤ 0x27 then slotCommit pg s
  else if pg = pgRTC then rtcCommit s
  else (s, stOk)

/-- A discard (R135). -/
def discardEffect (pg : Nat) (s : State) : State × Nat :=
  let s := s.reloadShadows pg (shadowOfs pg)
  (if pg = pgRTC then { s with rtc := { s.rtc with touched := false } } else s, stOk)

/-! ### The header (Table REG-3) -/

/-- A write of a header register other than IND_DATA. -/
def writeHeader (p : Path) (pg ofs : Nat) (al : Alias) (data : Word) (s : State) : State × Nat :=
  if ofs = 0x010 ∨ ofs = 0x014 then
    match headerRow pg ofs with
    | some r => (s.writeIrq pg ofs r al data, stOk)
    | none => (s, stOk)
  else if ofs = 0x018 then
    let r := writePlain pg ofs al data s
    if aliasActs al && bit data 0 then ((if pg = pgFAB then r.1.fabPast else r.1).snapNow pg, stOk) else r
  else if ofs = 0x020 then writeBank p (dkey pg 0x020) 0x80FFFFFF al data s
  else if ofs = 0x028 then
    pulse al (fun s => if bit data 0 then commitEffect pg s else if bit data 1 then discardEffect pg s else (s, stOk)) s
  else writePlain pg ofs al data s

end Sys2Proof.Machine
end

