-- ==== Sys2Proof/Machine/Access.lean ====
section
/-! DEFINITION. Accesses of the paths: the address map (R120 to R123), what a context other than 0 may reach (R142), reads and
writes of any address, indirect accesses to the slow pages (R139, R140), fences (R146), and the commands that name one kind of
access. -/

namespace Sys2Proof.Machine

set_option cleanup.letToHave false

open Sys2Proof.Config

/-! ### The address map (Table REG-1, R121) -/

/-- What an address names: a register, a word of the point value window, of the Cairn read window, of the program load window, or
nothing. -/
inductive Target where
  | page (pg : Nat) (al : Alias) (ofs : Nat)
  | point (j : Nat) (hi : Bool)
  | cairn (ofs : Nat)
  | load (ofs : Nat)
  | none
deriving DecidableEq, Repr

/-- Address bits [13:12]. -/
def aliasOf (n : Nat) : Alias := match n with | 0 => .plain | 1 => .set | 2 => .clear | _ => .toggle

/-- The target of an address; bits [1:0] are ignored (R121, R122). -/
def targetOf (addr : Word) : Target :=
  let a := addr.toNat / 4 * 4
  if a < 0x01000000 then .page (a / 0x4000) (aliasOf (a / 0x1000 % 4)) (a % 0x1000)
  else if a < 0x01010000 then .point ((a - 0x01000000) / 8) (decide (a % 8 = 4))
  else if 0x02000000 ≤ a ∧ a < 0x02200000 then .cairn (a - 0x02000000)
  else if 0x04000000 ≤ a ∧ a < 0x04800000 then .load (a - 0x04000000)
  else .none

/-- The page whose port and class serve the target; an unassigned page for none (R123, R125). -/
def targetPage : Target → Nat
  | .page pg _ _ => pg
  | .point _ _ => pgPTM
  | .cairn _ => pgCRN
  | .load _ => pgSCN
  | .none => 0x16

/-- Registers owned per context (R142, R146, R227, R307, R457, R470, R477, R548, and the pages of MTR, KEY and CRN). -/
def ownedReg (pg ofs : Nat) (wr : Bool) : Bool :=
  (pg = pgSYS && ofs = 0x050 && wr) ||
  ((ofs = 0x020 || ofs = 0x024) && (pg = pgPTM || pg = pgLPE || pg = pgMTR || pg = pgKEY || pg = pgCRN)) ||
  (pg = pgLCK && (ofs = 0x048 || ofs = 0x04C || ofs = 0x050)) ||
  (pg = pgKEY && (ofs = 0x060 || ofs = 0x064 || (0x080 ≤ ofs && ofs < 0x0C0) || (0x100 ≤ ofs && ofs < 0x140) ||
    (0x400 ≤ ofs && ofs < 0x478))) ||
  (pg = pgCRN && !wr && (ofs = 0x04C || ofs = 0x050 || ofs = 0x060 || ofs = 0x064))

/-- The gate's mark for a target. -/
def targetOwned (t : Target) (wr : Bool) : Bool :=
  match t with
  | .page pg _ ofs => ownedReg pg ofs wr
  | .point _ _ => true
  | .cairn _ => true
  | _ => false

/-! ### Registers of a page -/

/-- The byte address of an IND_DATA access of the path (R139). -/
def State.indAt (s : State) (p : Path) (pg : Nat) : Nat := fld (s.indAddr p pg) 0 24 / 4 * 4

/-- An IND_DATA access that is done, with the increment of IND_ADDR. -/
def readInd (p : Path) (pg : Nat) (s : State) : State × Nat × Word :=
  let ia := s.indAt p pg
  let r :=
    if pg = pgSNS && s.headAbsent ia then (s, stAbsent, 0)
    else if pageIndirect pg then readSlow p pg ia s else readEntry p pg ia s
  (r.1.indNext p pg, r.2)
def writeInd (p : Path) (pg : Nat) (al : Alias) (data : Word) (s : State) : State × Nat :=
  let ia := s.indAt p pg
  let r :=
    if pg = pgSNS && s.headAbsent ia then (s, stAbsent)
    else if pageIndirect pg then writeSlow p pg ia al data s else writeEntry p pg ia al data s
  (r.1.indNext p pg, r.2)

/-- A read of a register of a page. A page of method Indirect exposes only its header (R125). -/
def readReg (p : Path) (pg ofs : Nat) (s : State) : State × Nat × Word :=
  if ofs = 0x00C then (s, stOk, s.pageStat pg)
  else if ofs = 0x020 then (s, stOk, s.indAddr p pg)
  else if ofs = 0x024 then readInd p pg s
  else if ofs < 0x40 then (s, stOk, s.reg pg ofs)
  else if pageIndirect pg then (s, stOk, 0)
  else readBlock p pg ofs s

/-- A write of a register of a page. -/
def writeReg (p : Path) (pg ofs : Nat) (al : Alias) (data : Word) (s : State) : State × Nat :=
  if ofs = 0x024 then writeInd p pg al data s
  else if ofs < 0x40 then writeHeader p pg ofs al data s
  else if pageIndirect pg then (s, stOk)
  else writeBlock p pg ofs al data s

/-! ### Windows -/

/-- The record that holds ring offset `o`, walking from `a` with `left` unreleased bytes. -/
def State.crnFind (s : State) (o : Nat) : Nat → Nat → Nat → Option Nat
  | 0, _, _ => none
  | k + 1, a, left =>
    let n := 16 * (fld (s.crnHead a) 0 4 + 1)
    if left < n then none
    else if a ≤ o ∧ o < a + n then some a
    else s.crnFind o k ((a + n) % cairnBytes s.small) (left - n)

/-- A word of the Cairn read window (R457): context 0 reads every record; another reads its own and MARK records, and every other
as a PAD of the same length. -/
def crnRead (p : Path) (o : Nat) (s : State) : State × Nat × Word :=
  let c := s.ctxOf p
  let used := (s.reg pgCRN 0x054).toNat
  if cairnBytes s.small ≤ o then (s, stAbsent, 0)
  else if c = 0 then (s, stOk, s.crnHead o)
  else
    match s.crnFind o (used / 16 + 1) (s.reg pgCRN 0x04C).toNat used with
    | none => (s, stOk, 0)
    | some a =>
      let h := s.crnHead a
      if fld h 5 2 = 2 ∨ (fld h 5 2 < 2 ∧ fld h 7 9 = c) then (s, stOk, s.crnHead o)
      else (s, stOk, if o = a then word (fld h 0 4 + 96) else 0)

/-- The program load window (R267): the buffer, then the loader registers. -/
def loadRead (p : Path) (o : Nat) (s : State) : State × Nat × Word :=
  if o < 0x100000 then (s, stOk, word (s.load (bufferBase + o) 4))
  else if o < 0x7FF000 then (s, stAbsent, 0)
  else s.readBy p (lkey (o - 0x7FF000)) (RegMap.rowsLDR.find? (RegMap.holds (o - 0x7FF000))) (s.viewLdr p (o - 0x7FF000)) 0
def loadWrite (p : Path) (o : Nat) (data : Word) (s : State) : State × Nat :=
  if o < 0x7FF000 then loadBufferEffect o data s
  else if o = 0x7FF000 then ldrCmdEffect data s
  else if o = 0x7FF014 then writeBank p (lkey 0x014) 0x3FF .plain data s
  else if o = 0x7FF030 then ldrHwmEffect data s
  else (s, stOk)

/-! ### Accesses -/

/-- An access to a target, done as a whole. -/
def readTarget (p : Path) (t : Target) (s : State) : State × Nat × Word :=
  match t with
  | .page pg _ ofs => readReg p pg ofs s
  | .point j hi => windowRead p j hi s
  | .cairn o => crnRead p o s
  | .load o => loadRead p o s
  | .none => (s, stAbsent, 0)
def writeTarget (p : Path) (t : Target) (data : Word) (s : State) : State × Nat :=
  match t with
  | .page pg al ofs => writeReg p pg ofs al data s
  | .point j hi => windowWriteEffect p j hi data s
  | .cairn o => (s, if o < cairnBytes s.small then stOk else stAbsent)
  | .load o => loadWrite p o data s
  | .none => (s, stAbsent)

/-- The port can grant an access to a target now, or make it wait. -/
def State.presents (s : State) (p : Path) (t : Target) (wr : Bool) : Bool :=
  (s.gate p (targetPage t) wr (targetOwned t wr)).isSome || (s.portBusy (targetPage t) && s.pathLive p)

/-- A read and a write of a target. -/
def State.readAt (s : State) (p : Path) (t : Target) : State :=
  s.portRead p (targetPage t) (targetOwned t false) (readTarget p t)
def State.writeAt (s : State) (p : Path) (t : Target) (data : Word) : State :=
  s.port p (targetPage t) (targetOwned t true) (writeTarget p t data)

/-! ### Slow pages (R139, R140) -/

/-- The bound of Table REG-9 in ft. -/
def indBound (pg : Nat) : Nat := if pg = pgSNS then 40000 else 8000

def State.setBusy (s : State) (pg : Nat) (op : Option IndOp) : State :=
  { s with busy := Tbl.set (fun _ => none) s.busy pg op }

/-- An IND_DATA access is granted: it holds the port of a slow page until it ends; on an absent sense head it ends at once. The flag
says that it has ended. -/
def State.indStart (s : State) (p : Path) (pg : Nat) (al : Alias) (wr : Bool) (data : Word) (c : Cont := .told) : State × Bool :=
  match s.gate p pg wr (ownedReg pg 0x024 wr) with
  | none => (s, false)
  | some 0 =>
    let s := s.turnAt pg
    if pg = pgSNS && s.headAbsent (s.indAt p pg) then ((s.indNext p pg).answer p stAbsent 0, true)
    else (s.setBusy pg (some ⟨p, al, wr, data, s.tick, c⟩), false)
  | some st => ((s.turnAt pg).answer p st 0, true)

/-- What an access of a path names: a program reaches the register pages only (R252). -/
def progTarget (addr : Word) : Target := if addr.toNat < 0x01000000 then targetOf addr else .none
def PortReq.target (r : PortReq) : Target := match r.path with | .lane _ => progTarget r.addr | _ => targetOf r.addr

/-- The access is an IND_DATA access of a slow page. -/
def slowTarget (t : Target) : Option (Nat × Alias) :=
  match t with
  | .page pg al ofs => if pageIndirect pg && ofs = 0x024 then some (pg, al) else none
  | _ => none

/-- An access is granted. The flag says that it has ended, its status and data told to the path. -/
def State.startReq (s : State) (r : PortReq) : State × Bool :=
  let t := r.target
  let pg := targetPage t
  match r.ia with
  | some ia =>
    (if r.write then s.port r.path pg (ownedReg pg 0x024 true) (writeSlow r.path pg ia .plain r.data)
     else s.portRead r.path pg (ownedReg pg 0x024 false) (readSlow r.path pg ia), true)
  | none =>
    match slowTarget t with
    | some (pg, al) => s.indStart r.path pg al r.write r.data r.cont
    | none => (if r.write then s.writeAt r.path t r.data else s.readAt r.path t, true)

/-- An access is presented: it waits while an indirect access holds the port (R141), otherwise it is granted. -/
def State.request (s : State) (r : PortReq) : State × Bool :=
  if s.portBusy (targetPage r.target) && s.pathLive r.path then (s.park r, false) else s.startReq r

/-- The address of IND_DATA, or of another register, of a page through an alias (R121). -/
def pageAddr (pg : Nat) (al : Alias) (ofs : Nat) : Word :=
  word (0x4000 * pg + 0x1000 * (match al with | .plain => 0 | .set => 1 | .clear => 2 | .toggle => 3) + ofs)

/-- INDIRECT_ACCESS (R139): on a page with an on-die space it applies at once (R179), on a slow page it begins or waits. -/
def indirectAccess (p : Path) (pg : Nat) (al : Alias) (wr : Bool) (data : Word) (s : State) : State :=
  if pageIndirect pg then (s.request ⟨p, wr, pageAddr pg al 0x024, data, none, .told⟩).1
  else if wr then s.port p pg (ownedReg pg 0x024 true) (writeInd p pg al data)
  else s.portRead p pg (ownedReg pg 0x024 false) (readInd p pg)
def execIndirectAccess (p : Path) (page : Nat) (al : Alias) (write : Bool) (data : Word) (s : State) : Out :=
  access (fun s => indirectAccess p page al write data s) s

/-! ### Fences (R146) -/

/-- An earlier access of the path has not ended: an indirect one, one that waits for its port, or a posted write of a lane. -/
def State.pathPending (s : State) (p : Path) : Bool :=
  (s.busy.any fun e => match e.2 with | some op => op.path = p | none => false) || s.waiting.any (fun r => r.path = p) ||
  (match p with | .lane n => !(s.lane n).posts.isEmpty | _ => false)

/-- The fences of paths with no earlier access left end, and the paths go on (R146). -/
def State.endFences (s : State) : List Path → State
  | [] => s
  | p :: t =>
    let s := s.endFences t
    if s.pathPending p then s else { s with fences := s.fences.filter (· ≠ p) }.answer p stOk 0

/-- The target is SYS.FENCE. -/
def isFence (t : Target) : Bool := match t with | .page pg _ ofs => pg = pgSYS && ofs = 0x050 | _ => false

/-- FENCE_WRITE: the fence ends at once where no earlier access of the path is left; otherwise it stalls the path until they have
ended (`endFences`). -/
def fenceWrite (p : Path) (s : State) : State :=
  if s.pathPending p then (if s.pathLive p then { s with fences := p :: s.fences } else s)
  else s.port p pgSYS true fun s => (s, stOk)
def execFenceWrite (p : Path) (s : State) : Out := access (fun s => fenceWrite p s) s

/-! ### The commands of one access -/

/-- A write of any address: IND_DATA of a slow page begins its access, SYS.FENCE waits, every other is done. -/
def pathWrite (p : Path) (addr data : Word) (s : State) : State :=
  if isFence (targetOf addr) then fenceWrite p s else (s.request ⟨p, true, addr, data, none, .told⟩).1

/-- A read of any address. -/
def pathRead (p : Path) (addr : Word) (s : State) : State := (s.request ⟨p, false, addr, 0, none, .told⟩).1

/-- REGISTER_WRITE (R128). -/
def execRegisterWrite (p : Path) (addr data : Word) (s : State) : Out := access (fun s => pathWrite p addr data s) s
/-- READ_CLEAR (R136, Table DOC-4). -/
def execReadClear (p : Path) (addr : Word) (s : State) : Out := access (fun s => pathRead p addr s) s
/-- LO_READ_LATCH (R124). -/
def execLoReadLatch (p : Path) (addr : Word) (s : State) : Out := access (fun s => pathRead p addr s) s
/-- HI_WRITE_APPLY (R124). -/
def execHiWriteApply (p : Path) (addr data : Word) (s : State) : Out := access (fun s => pathWrite p addr data s) s

/-- SHADOW_COMMIT (R134), SHADOW_DISCARD (R135) and SNAP (R137): the pulses of a page's header. -/
def execShadowCommit (p : Path) (page : Nat) (s : State) : Out :=
  access (fun s => pathWrite p (pageAddr page .plain 0x028) 1 s) s
def execShadowDiscard (p : Path) (page : Nat) (s : State) : Out :=
  access (fun s => pathWrite p (pageAddr page .plain 0x028) 2 s) s
def execSnap (p : Path) (page : Nat) (s : State) : Out :=
  access (fun s => pathWrite p (pageAddr page .set 0x018) 1 s) s

/-- ENTRY_LATCH_WRITE (R180): a write of an entry word at indirect address `ia`. -/
def execEntryLatchWrite (p : Path) (page : Nat) (al : Alias) (ia : Nat) (data : Word) (s : State) : Out :=
  access (fun s => if pageIndirect page then s
    else s.port p page (ownedReg page 0x024 true) (writeEntry p page (ia / 4 * 4) al data)) s

/-- The offset of a page's HWM_CLR. -/
def hwmOfs (pg : Nat) : Option Nat :=
  if pg = pgPTM ∨ pg = pgLPE then some 0x070
  else if (0x18 ≤ pg ∧ pg ≤ 0x1D) ∨ (0x20 ≤ pg ∧ pg ≤ 0x27) then some 0x078
  else if pg = pgKEY then some 0x054
  else none

/-- HWM_CLR (R186). -/
def execHwmClr (p : Path) (page : Nat) (data : Word) (s : State) : Out :=
  access (fun s => match hwmOfs page with
    | some o => s.port p page false (writeReg p page o .plain data)
    | none => s) s

/-! ### The mirror path (R522) -/

/-- A request that names the mirror's own registers is DENIED. -/
def mirrorOwn (addr : Word) : Bool :=
  match targetOf addr with
  | .page pg _ ofs => pg = pgPAR && 0x0C0 ≤ ofs && ofs < 0x0D4
  | _ => false

/-- MIRROR_REQ: executed as the mirror path of context 0, which answers its partner. -/
def mirrorReq (write : Bool) (addr data : Word) (s : State) : State :=
  if !s.alive || !s.mirrorOpen then s
  else if mirrorOwn addr then s.answer .mirror stDenied 0
  else if write then pathWrite .mirror addr data s else pathRead .mirror addr s
def execMirrorReq (_req : Word) (write : Bool) (addr data : Word) (s : State) : Out :=
  access (fun s => mirrorReq write addr data s) s

/-! ### The service SPI port (R58, R144) -/

/-- The status word (Table REG-12). -/
def State.spiStatusWord (s : State) : Word :=
  let x := s.spi
  word (b2n x.rdDone + 2 * b2n (x.queue.any fun o => !o.write) + 4 * b2n x.ovf + 8 * b2n x.early + 16 * b2n x.frameErr +
    256 * (16 - x.queue.length) + 65536 * x.lastStatus)

/-- SPI_MISO as a frame shifts it out: none at high impedance (R58, R69). -/
def State.misoPin (s : State) : Option Word := if s.alive && s.spiEnabled then some s.spi.miso else none
/-- The test access port runs; while it is held in reset TDO is at high impedance (R58). -/
def State.tapRuns (s : State) : Bool := s.alive && s.debugEnabled

/-- A frame reaches the port: enabled by its fuse, in a module with power and out of reset. -/
def State.spiFrame (s : State) (f : Spi → Spi) : State :=
  if s.alive && s.spiEnabled then { s with spi := f s.spi } else s

/-- A WRITE or READ frame is queued, or discarded at a full queue. -/
def spiQueue (s : State) (op : SpiOp) : State :=
  s.spiFrame fun x =>
    let x : Spi := { x with miso := s.spiStatusWord }
    if 16 ≤ x.queue.length then { x with ovf := true } else { x with queue := x.queue ++ [op] }
def execSpiWrite (addr data : Word) (s : State) : Out := event (fun s => spiQueue s ⟨true, addr, data⟩) s
def execSpiRead (addr : Word) (s : State) : Out := event (fun s => spiQueue s ⟨false, addr, 0⟩) s

/-- A FETCH frame returns the result of the last READ; it returns 0 where none has completed since the last FETCH. -/
def execSpiFetch (s : State) : Out :=
  event (fun s => s.spiFrame fun x =>
    if x.rdDone then { x with miso := x.rdata, rdDone := false } else { x with miso := 0, early := true }) s

/-- A STATUS frame. -/
def execSpiStatus (s : State) : Out :=
  event (fun s => s.spiFrame fun x =>
    { x with miso := s.spiStatusWord, ovf := false, early := false, frameErr := false }) s

/-- A frame of wrong length or with another command. -/
def execSpiBadFrame (s : State) : Out := event (fun s => s.spiFrame fun x => { x with frameErr := true }) s

/-- The oldest queued access has ended with what the port was told. -/
def State.spiDone (s : State) : State :=
  match s.spi.queue with
  | [] => s
  | op :: rest =>
    let a := s.answered .spi
    { s with spi := { s.spi with queue := rest, going := false, lastStatus := a.status, rdDone := s.spi.rdDone || !op.write,
                                 rdata := if op.write then s.spi.rdata else a.data } }

/-- SPI_ACCESS_COMPLETE: the oldest queued access is granted and completes; an IND_DATA access of a slow page begins, or waits for its
page, and completes with INDIRECT_COMPLETE. A fence finds every earlier access of the port ended (R146). -/
def spiAccessComplete (s : State) : State :=
  match s.spi.queue with
  | [] => s
  | op :: _ =>
    if s.spi.going || !s.presents .spi (targetOf op.addr) op.write then s
    else
      let r := s.request ⟨.spi, op.write, op.addr, op.data, none, .spi⟩
      if r.2 then r.1.spiDone else { r.1 with spi := { r.1.spi with going := true } }
def execSpiAccessComplete (s : State) : Out := access (fun s => spiAccessComplete s) s

end Sys2Proof.Machine
end

