-- ==== Sys2Proof/Machine/RegInsn.lean ====
section
/-! DEFINITION. The scan instructions on registers: REGR, REGW and its post buffer, FENCE (R251, R252); and LANE_STEP, which
executes one instruction of a halted lane (R225). -/

namespace Sys2Proof.Machine

set_option cleanup.letToHave false

open Sys2Proof.Config

/-! ### Register accesses (R252) -/

/-- The address of REGR and REGW. -/
def Lane.regAddr (ln : Lane) (f : Fields) : Word := (ln.getG f.a).setWidth 32 + f.imm

/-- An earlier posted write to the page of the target is still in the buffer (R145, R251). -/
def Lane.postedTo (ln : Lane) (t : Target) : Bool := ln.posts.any fun x => targetPage (progTarget x.addr) = targetPage t

/-- A fence stands among the posted writes: no later access of the lane comes before it (R146). -/
def Lane.fencePosted (ln : Lane) : Bool := ln.posts.any fun x => isFence (progTarget x.addr)

/-- A lane's access ends: DENIED faults, every other status goes on with the result (R252). -/
def State.endRegAccess (s : State) (l : Nat) (d : BitVec 5) (withValue : Bool) : State :=
  let s := s.setLane l { s.lane l with reg := false }
  let a := s.answered (.lane l)
  if a.status = stDenied then s.insnFault l cfReg 0
  else s.setLane l ((s.lane l).setG d (BitVec.ofNat 64 ((if withValue then a.data.toNat else 0) + 2 ^ 32 * a.status))).next

/-- A lane presents an access and goes on with its end; until then it is stalled. -/
def State.regAccess (s : State) (l : Nat) (d : BitVec 5) (withValue : Bool) (r : PortReq) : State :=
  s.insn l fun s =>
    let x := s.request r
    if x.2 then x.1.endRegAccess l d withValue else x.1.setLane l { x.1.lane l with reg := true }

/-- REGR. It waits for earlier posted writes to its page and for the port. -/
def insnRegr (l : Nat) (f : Fields) (s : State) : State :=
  let a := (s.lane l).regAddr f
  let t := progTarget a
  if (s.lane l).postedTo t || (s.lane l).fencePosted || !s.presents (.lane l) t false then s
  else s.regAccess l f.d true ⟨.lane l, false, a, 0, none, .regr f.d⟩

/-- REGW: posted with D = G0, where a full buffer stalls the lane; else it waits as REGR does. A write of SYS.FENCE waits for every
earlier access of the lane (R146). -/
def insnRegw (l : Nat) (f : Fields) (s : State) : State :=
  let ln := s.lane l
  let a := ln.regAddr f
  let t := progTarget a
  let data : Word := (ln.getG f.b).setWidth 32
  if f.d = 0 then
    if 4 ≤ ln.posts.length then s
    else s.laneInsn l fun ln =>
      ({ ln with posts := ln.posts ++ [⟨ln.slot, ln.runNo, (s.slot ln.slot).codeAt + ln.pc, ln.regAddr f, data⟩] } : Lane).next
  else if ln.postedTo t || ln.fencePosted || (isFence t && s.pathPending (.lane l)) || !s.presents (.lane l) t true then s
  else s.regAccess l f.d false ⟨.lane l, true, a, data, none, .regw f.d⟩

/-- FENCE: stalls until every earlier access of the lane has ended (R146, R251). -/
def insnFence (l : Nat) (_f : Fields) (s : State) : State :=
  if s.pathPending (.lane l) then s else s.laneInsn l Lane.next

def execRegr (l : Nat) (f : Fields) (s : State) : Out := access (fun s => insnRegr l f s) s
def execRegw (l : Nat) (f : Fields) (s : State) : Out := access (fun s => insnRegw l f s) s
def execFence (l : Nat) (f : Fields) (s : State) : Out := access (fun s => insnFence l f s) s

/-! ### Posted writes (R251, R252) -/

/-- A posted write ended DENIED: a context fault of its run where that goes on; where it has ended, the run's held stores
and working copies go, and the fault is recorded and the slot's fault action applies. Both record the address of the REGW. -/
def State.postDenied (s : State) (l : Nat) (x : Post) : State :=
  let ln := s.lane l
  if ln.running && ln.slot = x.slot && ln.runNo = x.run then s.contextFaultAt l x.pc cfReg 0
  else
    let s := s.setLane l { ln with held := ln.held.filter (fun h => h.slot ≠ x.slot), ended := ln.ended.filter (· ≠ x.slot) }
    (s.discardCopies x.slot).recordFault l x.slot x.pc cfReg 0

/-- The oldest posted write has ended: it leaves the buffer. The write that empties the buffer of a lane without a run ends the lane's
due work, for the ft of the OUTPUT commit (R251). -/
def State.postDone (s : State) (l : Nat) : State :=
  match (s.lane l).posts with
  | [] => s
  | x :: rest =>
    let ln := s.lane l
    let s := s.setLane l { ln with posts := rest, posting := false,
                                   endAt := if rest.isEmpty && !ln.running then max ln.endAt s.tick else ln.endAt }
    if (s.answered (.lane l)).status = stDenied then s.postDenied l x else s

/-- POSTED_WRITE_END: the oldest posted write applies and ends; to IND_DATA of a slow page it begins, or waits, and ends with
INDIRECT_COMPLETE. A fence in front finds every earlier access ended. -/
def postedWriteEnd (l : Nat) (s : State) : State :=
  match (s.lane l).posts with
  | [] => s
  | x :: _ =>
    let t := progTarget x.addr
    if (s.lane l).posting || !s.presents (.lane l) t true then s
    else
      let own := (s.lane l).slot
      let r := (s.setLane l { s.lane l with slot := x.slot }).request ⟨.lane l, true, x.addr, x.data, none, .post⟩
      let s := r.1.setLane l { r.1.lane l with slot := own }
      if r.2 then (let s := s.postDone l; s.endFences s.fences) else s.setLane l { s.lane l with posting := true }
def execPostedWriteEnd (l : Nat) (s : State) : Out := event (fun s => postedWriteEnd l s) s

/-! ### Single steps (R225) -/

/-- An instruction word is executed (Tables ISA-3 to ISA-7). -/
def runWord (l : Nat) (w : BitVec 64) (s : State) : State :=
  let f := fieldsOf w
  match opOf w with
  | 0x00 => insnNop l f s
  | 0x01 => insnAdd l f s
  | 0x02 => insnSub l f s
  | 0x03 => insnMul l f s
  | 0x04 => insnMulhs l f s
  | 0x05 => insnDivs l f s
  | 0x06 => insnDivu l f s
  | 0x07 => insnRems l f s
  | 0x08 => insnRemu l f s
  | 0x09 => insnAnd l f s
  | 0x0A => insnOr l f s
  | 0x0B => insnXor l f s
  | 0x0C => insnShl l f s
  | 0x0D => insnShr l f s
  | 0x0E => insnSar l f s
  | 0x0F => insnMins l f s
  | 0x10 => insnMaxs l f s
  | 0x11 => insnAddsat l f s
  | 0x12 => insnSubsat l f s
  | 0x13 => insnLdi l f s
  | 0x14 => insnLdhi l f s
  | 0x18 => insnCeq l f s
  | 0x19 => insnCne l f s
  | 0x1A => insnClts l f s
  | 0x1B => insnCles l f s
  | 0x1C => insnCltu l f s
  | 0x1D => insnCleu l f s
  | 0x20 => insnFadd l f s
  | 0x21 => insnFsub l f s
  | 0x22 => insnFmul l f s
  | 0x23 => insnFdiv l f s
  | 0x24 => insnFmin l f s
  | 0x25 => insnFmax l f s
  | 0x26 => insnFsqrt l f s
  | 0x27 => insnFabs l f s
  | 0x28 => insnFneg l f s
  | 0x29 => insnFceq l f s
  | 0x2A => insnFclt l f s
  | 0x2B => insnFcle l f s
  | 0x2C => insnCvtif l f s
  | 0x2D => insnCvtfi l f s
  | 0x2E => insnCvtsd l f s
  | 0x2F => insnCvtds l f s
  | 0x40 => insnBr l f s
  | 0x41 => insnBz l f s
  | 0x42 => insnBnz l f s
  | 0x43 => insnLoop l f s
  | 0x44 => insnLexit l f s
  | 0x45 => insnCall l f s
  | 0x46 => insnRet l f s
  | 0x47 => insnEnd l f s
  | 0x50 => insnLd l f s
  | 0x51 => insnSt l f s
  | 0x52 => insnSts l f s
  | 0x53 => insnStc l f s
  | 0x54 => insnLdq l f s
  | 0x55 => insnStq l f s
  | 0x60 => insnPld l f s
  | 0x61 => insnPldx l f s
  | 0x62 => insnPst l f s
  | 0x63 => insnPstx l f s
  | 0x68 =>
    match f.x.toNat with
    | 0 => insnTon l f s
    | 1 => insnTof l f s
    | 2 => insnTp l f s
    | 3 => insnTrd l f s
    | _ => insnTrst l f s
  | 0x69 =>
    match f.x.toNat with
    | 0 => insnRise l f s
    | 1 => insnFall l f s
    | _ => insnBoth l f s
  | 0x70 => if f.x = 0 then insnAcquire l f s else insnRelease l f s
  | 0x71 => insnFence l f s
  | 0x72 => insnRegr l f s
  | 0x73 => insnRegw l f s
  | 0x74 => insnMsg l f s
  | 0x75 => insnMsgr l f s
  | 0x76 => insnEvt l f s
  | 0x77 => insnCred l f s
  | 0x78 =>
    match f.x.toNat with
    | 0 => insnNowCapture l f s
    | 1 => insnNowTick l f s
    | _ => insnNowCycle l f s
  | _ => s

/-- The instruction at the lane's pc. -/
def State.wordAt (s : State) (l : Nat) : BitVec 64 :=
  let ln := s.lane l
  match (s.slot ln.slot).prog with
  | some g => (g.code[ln.pc / 8]?).getD 0
  | none => 0

/-- LANE_STEP: a STEP pulse, and on a halted lane with a run in progress its next instruction (R225). -/
def laneStep (p : Path) (l : Nat) (s : State) : State :=
  let t := s.port p (pgSCL l) false (laneCtlEffect l .set 2)
  if (t.lane l).step && (t.lane l).running && t.regBit (pgSCL l) 0x044 0 then runWord l (t.wordAt l) t else t
def execLaneStep (p : Path) (l : Nat) (s : State) : Out := access (fun s => laneStep p l s) s

end Sys2Proof.Machine
end

