-- ==== Sys2Proof/Machine/TunnelRun.lean ====
section
/-! DEFINITION. The execution of tunnel requests (R394 to R398): sequence, holding, the reply cache, and the operations. -/

namespace Sys2Proof.Machine

set_option cleanup.letToHave false

open Sys2Proof.Config

/-- Table TUN-4. -/
abbrev tsSkipped : Nat := 0x80
abbrev tsWindow : Nat := 0x81
abbrev tsStale : Nat := 0x82
abbrev tsBadOp : Nat := 0x83

/-- The operations of a request in order (R398, Table TUN-3); OPS counts those that are executed. `stop` is STOP_ON_ERR, `skip` that
an operation has ended with another status than OK under it, `acc` holds the replies so far, newest first. An operation that does not
end at once suspends the request: answers the request as it then stands. A fence finds every earlier access of the session ended,
since they run one at a time (R141, R146). -/
def tunOps (n : Nat) (stop : Bool) : List TunOp → Bool → List (Nat × Word) → State → State × Option (List TunOp × Bool) × List (Nat × Word)
  | [], _, acc, s => (s, none, acc)
  | o :: t, skip, acc, s =>
    if skip then tunOps n stop t true ((tsSkipped, 0) :: acc) s
    else if o.opcode = 1 ∨ o.opcode = 2 then
      let wr := decide (o.opcode = 2)
      let x := (s.bump pgTUN 0x128).request ⟨.tunnel n, wr, o.addr, o.data, none, .tunnel⟩
      if x.2 then
        let a := x.1.answered (.tunnel n)
        tunOps n stop t (stop && a.status ≠ stOk) ((a.status, if wr then 0 else a.data) :: acc) x.1
      else (x.1, some (t, skip), acc)
    else tunOps n stop t stop ((tsBadOp, 0) :: acc) s

/-- A request has executed: the reply with its place in the cache, and a close that the request asks for (R400). A module that an
operation has stopped sends no reply. -/
def finishRequest (d : Datagram) (replies : List (Nat × Word)) (s : State) : State :=
  let n := d.session
  if !s.tunnelRuns then s
  else
    let q := s.freshReply d 0 replies
    let x := q.1.session n
    let s := (q.1.setSession n { x with cache := ((d.seq, q.2) :: x.cache).take 4 }).sesShow n
    if d.flags % 2 = 1 then s.closeSession n 1 else s

/-- The operations from one on; a request that does not end stays in progress. -/
def runRequest (d : Datagram) (ops : List TunOp) (skip : Bool) (acc : List (Nat × Word)) (s : State) : State :=
  let r := tunOps d.session (decide (d.flags / 2 % 2 = 1)) ops skip acc s
  match r.2.1 with
  | some (left, skip) => { r.1 with tun := { r.1.tun with run := some ⟨d, r.2.2, left, skip⟩ } }
  | none => finishRequest d r.2.2.reverse r.1

/-- A request executes (R397, R398): N first, then the operations. -/
def executeRequest (d : Datagram) (s : State) : State :=
  runRequest d d.ops false [] (s.setInd64 pgTUN (32 * d.session + 0x0C) (s.sesNext d.session + 1))

/-- Held requests whose sequence is the new N execute in turn; at most three are held. -/
def executeHeld (n : Nat) : Nat → State → State
  | 0, s => s
  | k + 1, s =>
    let x := s.session n
    match (if s.tun.run.isSome then none else x.held.find? (fun e => e.1.seq = s.sesNext n)) with
    | none => s
    | some e =>
      let s := (s.setSession n { x with held := x.held.filter (fun y => y.1.seq ≠ e.1.seq) }).sesShow n
      executeHeld n k (executeRequest e.1 s)

/-- The operation of the request in progress has ended: its reply, the operations behind it, and the requests that were held for it. -/
def resumeTunnel (s : State) : State :=
  match s.tun.run with
  | none => s
  | some r =>
    let n := r.d.session
    let a := s.answered (.tunnel n)
    let s := { s with tun := { s.tun with run := none } }
    let stop := decide (r.d.flags / 2 % 2 = 1)
    executeHeld n 3 (runRequest r.d r.left (stop && a.status ≠ stOk) ((a.status, a.data) :: r.replies) s)

/-- Table TUN-5. -/
def handleRequest (d : Datagram) (s : State) : State :=
  let n := d.session
  let x := s.session n
  let next := s.sesNext n
  if d.seq = next then executeHeld n 3 (executeRequest d s)
  else if next < d.seq then
    if next + 3 < d.seq then ((s.freshReply d tsWindow []).1).bump pgTUN 0x120
    else if x.held.any (fun e => e.1.seq = d.seq) then s.bump pgTUN 0x114
    else (s.setSession n { x with held := x.held ++ [(d, s.tick)] }).sesShow n
  else
    match x.cache.find? (fun r => r.1 = d.seq) with
    | some r => (s.sendReply r.2).bump pgTUN 0x118
    | none => ((s.freshReply d tsStale []).1).bump pgTUN 0x11C

/-- TUNNEL_REQUEST (R394, R395): the engine takes the oldest datagram, once the request before it has ended. -/
def tunnelRequest (s : State) : State :=
  match s.tun.ingress with
  | [] => s
  | d :: rest =>
    if !s.tunnelRuns || s.tun.run.isSome then s
    else
      let s := { s with tun := { s.tun with ingress := rest } }
      handleRequest d (s.setReg pgTUN 0x050 (word rest.length))
def execTunnelRequest (s : State) : Out := access (fun s => tunnelRequest s) s

end Sys2Proof.Machine
end

