-- ==== Sys2Proof/Machine/Ports.lean ====
section
/-! DEFINITION. The end of an indirect access to a slow page (R140), the accesses that waited for its port (R141), and the fences that
waited for it (R146). -/

namespace Sys2Proof.Machine

set_option cleanup.letToHave false

open Sys2Proof.Config

/-- An access of a path has ended: what goes on (Cont). -/
def State.goOn (s : State) (p : Path) : Cont → State
  | .told => s
  | .regr d => match p with | .lane l => (if (s.lane l).reg then s.endRegAccess l d true else s) | _ => s
  | .regw d => match p with | .lane l => (if (s.lane l).reg then s.endRegAccess l d false else s) | _ => s
  | .post => match p with | .lane l => s.postDone l | _ => s
  | .spi => s.spiDone
  | .tunnel => resumeTunnel s

/-- The twelve requesters of a port (R141), lanes first. -/
def requester : Path → Nat
  | .lane n => n % 8
  | .supervisor => 8
  | .tunnel _ => 9
  | .mirror => 10
  | .spi => 11

/-- Of the accesses that wait for the port of a page, the one that round-robin grants after requester `last`: of one requester the
oldest. -/
def nextWaiting (pg last : Nat) (l : List PortReq) : Option PortReq :=
  (List.range 12).findSome? fun k => l.find? fun r => targetPage r.target = pg && requester r.path = (last + 1 + k) % 12

/-- The port of a page is free: the accesses that wait for it are granted one per ft, until one of them holds it again. -/
def State.servePort (s : State) (pg last : Nat) : Nat → State
  | 0 => s
  | n + 1 =>
    match (if s.portBusy pg then none else nextWaiting pg last s.waiting) with
    | none => s
    | some r =>
      let s := { s with waiting := s.waiting.erase r }.elapse 1
      let x := s.startReq r
      (if x.2 then x.1.goOn r.path r.cont else x.1).servePort pg (requester r.path) n

/-- The reply of a head ends with its access. -/
def State.dropReplies (s : State) : List Nat → State
  | [] => s
  | k :: t => (s.setLink k { s.link k with reply := none }).dropReplies t

/-- An indirect access has ended with a status and a read value. -/
def State.indEnd (s : State) (pg : Nat) (op : IndOp) (st : Nat) (data : Word) : State :=
  let s := ((if pg = pgSNS then s.dropReplies s.allLinks else s).setBusy pg none).answer op.path st data
  let s := (s.goOn op.path op.cont).servePort pg (requester op.path) (s.waiting.length + 1)
  s.endFences s.fences

/-- An access to a head register whose reply no up frame has brought yet (R335). -/
def State.headWaits (s : State) (pg ia : Nat) : Bool :=
  match (if pg = pgSNS then headOf ia else none) with
  | some (l, _) => (s.link l).reply.isNone
  | none => false

/-- INDIRECT_COMPLETE (R140): within the bound; a completion in its last ft has arrived (R148). An access to a head completes with its
reply, and ends ABSENT when the head has become absent meanwhile. -/
def indirectComplete (pg : Nat) (s : State) : State :=
  match (Tbl.get (fun _ => none) s.busy pg : Option IndOp) with
  | none => s
  | some op =>
    if op.since + indBound pg < s.tick then s
    else
      let ia := s.indAt op.path pg
      if pg = pgSNS && s.headAbsent ia then (s.indNext op.path pg).indEnd pg op stAbsent 0
      else if s.headWaits pg ia then s
      else if op.write then
        let r := writeSlow op.path pg ia op.al op.data s
        (r.1.indNext op.path pg).indEnd pg op r.2 0
      else
        let r := readSlow op.path pg ia s
        (r.1.indNext op.path pg).indEnd pg op r.2.1 r.2.2
def execIndirectComplete (page : Nat) (s : State) : Out := event (fun s => indirectComplete page s) s

/-- INDIRECT_TIMEOUT (R140): TIMEOUT, IND_ERR, and a read returns 0. It comes at the end of the last ft in which the completion could
have arrived (R148; log entry 52). Whether a write has reached its register is a free bit, since software must read it back (log
entry 5). -/
def indirectTimeout (pg : Nat) (s : State) : State :=
  match (Tbl.get (fun _ => none) s.busy pg : Option IndOp) with
  | none => s
  | some op =>
    let s := s.expire (op.since + indBound pg)
    let reached := op.write && s.freeWord.getLsbD 0
    let s := s.draw
    let s := if reached then (writeSlow op.path pg (s.indAt op.path pg) op.al op.data s).1 else s
    (s.setRegBit pg 0x00C 1 true).indEnd pg op stTimeout 0
def execIndirectTimeout (page : Nat) (s : State) : Out := event (fun s => indirectTimeout page s) s

end Sys2Proof.Machine
end

