-- ==== Sys2Proof/Machine/Sampling.lean ====
section
/-! DEFINITION. Sample processing (R315, R317): the set of a sample anchor passes through corrections, channels, pulses and, at the
half-cycles, power quality and the power-fail decision. -/

namespace Sys2Proof.Machine

set_option cleanup.letToHave false

open Sys2Proof.Config

/-- A half-cycle value: power quality and the supply RMS (R79, R344). -/
def State.halfValue (s : State) (n : Nat) : State :=
  let (s, vs) := s.phaseSquares [0, 1, 2]
  let h := s.stamp * 2 + b2n (decide (n % 512 = 256))
  let s := s.pqValues h vs
  match vs with
  | (_, ms, _) :: _ => s.supplyValue (fracSqrtRound (Frac.scale ms 100 1)) h
  | [] => s

/-- The sample set of anchor n, whose anchor fell at tick t, is processed. -/
def State.processSet (s : State) (n t : Nat) : State :=
  let s := if s.regBit pgMTR 0x044 0 then s else (s.setRegBit pgMTR 0x044 0 true).event pgMTR 5 [s.stamp]
  let (s, delta) := match s.meter.pipe.find? fun e => e.1 + 1 = n with
    | some e => (s, t - e.2.1)
    | none => (s.draw, s.freeWord.toNat)
  let s := { s with meter := { s.meter with deltas := delta :: s.meter.deltas.take 511 } }
  let s := s.suspects meterWords s.fabric.struck
  let s := if s.accumulates then s.releaseCopied s.meter.unrel else s
  let (s, gaps) := s.linkSamples n s.allLinks
  let s := (s.voltSamples n delta [48, 49, 50, 51]).chSamples n delta gaps (List.range 48)
  let s := (s.setReg64 pgMTR 0x048 ((s.reg64 pgMTR 0x048 + 1) % pw 64)).start 1
  let s := if s.accumulates then s.convert else s
  if n % 256 = 0 then s.halfValue n else s

/-- SAMPLE_PROCESSING (R315, R317): the converters deliver the codes of the latest sample anchor m (current channels 0 to 11,
then voltage channels 48 to 51), and the sample set of anchor m − 8 is processed. -/
def sampleProcessing (codes : List Int) (s : State) : State :=
  match s.meter.await with
  | none => s
  | some (m, tick) =>
    if !s.meterRuns then s
    else
      let s := { s with meter := { s.meter with await := none, done := m, pipe := (m, tick, codes) :: s.meter.pipe.take 11 } }
      let s := match s.meter.pipe.find? fun e => e.1 + 8 = m with
        | some e => s.processSet e.1 e.2.1
        | none => s
      s.closeDue
def execSampleProcessing (codes : List Int) (s : State) : Out := event (fun s => sampleProcessing codes s) s

end Sys2Proof.Machine
end

