-- ==== Sys2Proof/Machine/Dispatch.lean ====
section
/-! DEFINITION. The meaning of every command: one arm for each row of spec/opcode_table.json. -/

namespace Sys2Proof.Machine

def exec (i : Instr) (s : State) : Host.Outcome State Fault Refusal :=
  match i with
  | .mainsApplied b => Sys2Proof.Machine.execMainsApplied b s
  | .systemReset cause b => Sys2Proof.Machine.execSystemReset cause b s
  | .vStartReached => Sys2Proof.Machine.execVStartReached s
  | .railOutOfTolerance rails => Sys2Proof.Machine.execRailOutOfTolerance rails s
  | .clockFailure => Sys2Proof.Machine.execClockFailure s
  | .clockRecovered b => Sys2Proof.Machine.execClockRecovered b s
  | .powerFailDecision byRms by12V rms mV => Sys2Proof.Machine.execPowerFailDecision byRms by12V rms mV s
  | .shedStage stage => Sys2Proof.Machine.execShedStage stage s
  | .vSaveReached => Sys2Proof.Machine.execVSaveReached s
  | .saveComplete tenths b => Sys2Proof.Machine.execSaveComplete tenths b s
  | .vMinReached => Sys2Proof.Machine.execVMinReached s
  | .holdupCapMeasure mF => Sys2Proof.Machine.execHoldupCapMeasure mF s
  | .frontEndOvertemp temp => Sys2Proof.Machine.execFrontEndOvertemp temp s
  | .daliSupplySetting p ch data => Sys2Proof.Machine.execDaliSupplySetting p ch data s
  | .zeroCrossingEvaluation l1 l2 l3 n => Sys2Proof.Machine.execZeroCrossingEvaluation l1 l2 l3 n s
  | .crossingMiss => Sys2Proof.Machine.execCrossingMiss s
  | .holdLong => Sys2Proof.Machine.execHoldLong s
  | .seekLong => Sys2Proof.Machine.execSeekLong s
  | .turnBoundary => Sys2Proof.Machine.execTurnBoundary s
  | .anchorOccurrence g => Sys2Proof.Machine.execAnchorOccurrence g s
  | .annCycleWrite p data => Sys2Proof.Machine.execAnnCycleWrite p data s
  | .registerWrite p addr data => Sys2Proof.Machine.execRegisterWrite p addr data s
  | .readClear p addr => Sys2Proof.Machine.execReadClear p addr s
  | .loReadLatch p addr => Sys2Proof.Machine.execLoReadLatch p addr s
  | .hiWriteApply p addr data => Sys2Proof.Machine.execHiWriteApply p addr data s
  | .indirectAccess p page al write data => Sys2Proof.Machine.execIndirectAccess p page al write data s
  | .indirectComplete page => Sys2Proof.Machine.execIndirectComplete page s
  | .indirectTimeout page => Sys2Proof.Machine.execIndirectTimeout page s
  | .shadowCommit p page => Sys2Proof.Machine.execShadowCommit p page s
  | .shadowDiscard p page => Sys2Proof.Machine.execShadowDiscard p page s
  | .snap p page => Sys2Proof.Machine.execSnap p page s
  | .fenceWrite p => Sys2Proof.Machine.execFenceWrite p s
  | .spiWrite addr data => Sys2Proof.Machine.execSpiWrite addr data s
  | .spiRead addr => Sys2Proof.Machine.execSpiRead addr s
  | .spiFetch => Sys2Proof.Machine.execSpiFetch s
  | .spiStatus => Sys2Proof.Machine.execSpiStatus s
  | .spiBadFrame => Sys2Proof.Machine.execSpiBadFrame s
  | .spiAccessComplete => Sys2Proof.Machine.execSpiAccessComplete s
  | .pointWindowWrite p j hi data => Sys2Proof.Machine.execPointWindowWrite p j hi data s
  | .ptTunWrite p pt data => Sys2Proof.Machine.execPtTunWrite p pt data s
  | .ptDefWrite p pt data => Sys2Proof.Machine.execPtDefWrite p pt data s
  | .ptForceWrite p pt data => Sys2Proof.Machine.execPtForceWrite p pt data s
  | .ctxDefWrite p c data => Sys2Proof.Machine.execCtxDefWrite p c data s
  | .ctxWinWrite p c data => Sys2Proof.Machine.execCtxWinWrite p c data s
  | .grantWrite p g data => Sys2Proof.Machine.execGrantWrite p g data s
  | .crDefWrite p n data => Sys2Proof.Machine.execCrDefWrite p n data s
  | .entryLatchWrite p page al ia data => Sys2Proof.Machine.execEntryLatchWrite p page al ia data s
  | .hwmClr p page data => Sys2Proof.Machine.execHwmClr p page data s
  | .baseAnchor => Sys2Proof.Machine.execBaseAnchor s
  | .inputCommit => Sys2Proof.Machine.execInputCommit s
  | .programDispatch l => Sys2Proof.Machine.execProgramDispatch l s
  | .eventTaskDispatch l => Sys2Proof.Machine.execEventTaskDispatch l s
  | .outputCommit => Sys2Proof.Machine.execOutputCommit s
  | .outputPhaseEnd => Sys2Proof.Machine.execOutputPhaseEnd s
  | .evbWrite p e data => Sys2Proof.Machine.execEvbWrite p e data s
  | .laneHalt p l => Sys2Proof.Machine.execLaneHalt p l s
  | .laneStep p l => Sys2Proof.Machine.execLaneStep p l s
  | .pathAcq p data => Sys2Proof.Machine.execPathAcq p data s
  | .pathRel p data => Sys2Proof.Machine.execPathRel p data s
  | .lockQueueGrant n => Sys2Proof.Machine.execLockQueueGrant n s
  | .lockTimeout l => Sys2Proof.Machine.execLockTimeout l s
  | .lockHoldExpiry n => Sys2Proof.Machine.execLockHoldExpiry n s
  | .lockCfgWrite p n data => Sys2Proof.Machine.execLockCfgWrite p n data s
  | .nop l f => Sys2Proof.Machine.execNop l f s
  | .add l f => Sys2Proof.Machine.execAdd l f s
  | .sub l f => Sys2Proof.Machine.execSub l f s
  | .mul l f => Sys2Proof.Machine.execMul l f s
  | .mulhs l f => Sys2Proof.Machine.execMulhs l f s
  | .divs l f => Sys2Proof.Machine.execDivs l f s
  | .divu l f => Sys2Proof.Machine.execDivu l f s
  | .rems l f => Sys2Proof.Machine.execRems l f s
  | .remu l f => Sys2Proof.Machine.execRemu l f s
  | .and l f => Sys2Proof.Machine.execAnd l f s
  | .or l f => Sys2Proof.Machine.execOr l f s
  | .xor l f => Sys2Proof.Machine.execXor l f s
  | .shl l f => Sys2Proof.Machine.execShl l f s
  | .shr l f => Sys2Proof.Machine.execShr l f s
  | .sar l f => Sys2Proof.Machine.execSar l f s
  | .mins l f => Sys2Proof.Machine.execMins l f s
  | .maxs l f => Sys2Proof.Machine.execMaxs l f s
  | .addsat l f => Sys2Proof.Machine.execAddsat l f s
  | .subsat l f => Sys2Proof.Machine.execSubsat l f s
  | .ldi l f => Sys2Proof.Machine.execLdi l f s
  | .ldhi l f => Sys2Proof.Machine.execLdhi l f s
  | .ceq l f => Sys2Proof.Machine.execCeq l f s
  | .cne l f => Sys2Proof.Machine.execCne l f s
  | .clts l f => Sys2Proof.Machine.execClts l f s
  | .cles l f => Sys2Proof.Machine.execCles l f s
  | .cltu l f => Sys2Proof.Machine.execCltu l f s
  | .cleu l f => Sys2Proof.Machine.execCleu l f s
  | .fadd l f => Sys2Proof.Machine.execFadd l f s
  | .fsub l f => Sys2Proof.Machine.execFsub l f s
  | .fmul l f => Sys2Proof.Machine.execFmul l f s
  | .fdiv l f => Sys2Proof.Machine.execFdiv l f s
  | .fmin l f => Sys2Proof.Machine.execFmin l f s
  | .fmax l f => Sys2Proof.Machine.execFmax l f s
  | .fsqrt l f => Sys2Proof.Machine.execFsqrt l f s
  | .fabs l f => Sys2Proof.Machine.execFabs l f s
  | .fneg l f => Sys2Proof.Machine.execFneg l f s
  | .fceq l f => Sys2Proof.Machine.execFceq l f s
  | .fclt l f => Sys2Proof.Machine.execFclt l f s
  | .fcle l f => Sys2Proof.Machine.execFcle l f s
  | .cvtif l f => Sys2Proof.Machine.execCvtif l f s
  | .cvtfi l f => Sys2Proof.Machine.execCvtfi l f s
  | .cvtsd l f => Sys2Proof.Machine.execCvtsd l f s
  | .cvtds l f => Sys2Proof.Machine.execCvtds l f s
  | .br l f => Sys2Proof.Machine.execBr l f s
  | .bz l f => Sys2Proof.Machine.execBz l f s
  | .bnz l f => Sys2Proof.Machine.execBnz l f s
  | .loop l f => Sys2Proof.Machine.execLoop l f s
  | .lexit l f => Sys2Proof.Machine.execLexit l f s
  | .call l f => Sys2Proof.Machine.execCall l f s
  | .ret l f => Sys2Proof.Machine.execRet l f s
  | .endRun l f => Sys2Proof.Machine.execEndRun l f s
  | .ld l f => Sys2Proof.Machine.execLd l f s
  | .st l f => Sys2Proof.Machine.execSt l f s
  | .sts l f => Sys2Proof.Machine.execSts l f s
  | .stc l f => Sys2Proof.Machine.execStc l f s
  | .ldq l f => Sys2Proof.Machine.execLdq l f s
  | .stq l f => Sys2Proof.Machine.execStq l f s
  | .pld l f => Sys2Proof.Machine.execPld l f s
  | .pldx l f => Sys2Proof.Machine.execPldx l f s
  | .pst l f => Sys2Proof.Machine.execPst l f s
  | .pstx l f => Sys2Proof.Machine.execPstx l f s
  | .tmrTon l f => Sys2Proof.Machine.execTmrTon l f s
  | .tmrTof l f => Sys2Proof.Machine.execTmrTof l f s
  | .tmrTp l f => Sys2Proof.Machine.execTmrTp l f s
  | .tmrTrd l f => Sys2Proof.Machine.execTmrTrd l f s
  | .tmrTrst l f => Sys2Proof.Machine.execTmrTrst l f s
  | .edgRise l f => Sys2Proof.Machine.execEdgRise l f s
  | .edgFall l f => Sys2Proof.Machine.execEdgFall l f s
  | .edgBoth l f => Sys2Proof.Machine.execEdgBoth l f s
  | .lockAcquire l f => Sys2Proof.Machine.execLockAcquire l f s
  | .lockRelease l f => Sys2Proof.Machine.execLockRelease l f s
  | .fence l f => Sys2Proof.Machine.execFence l f s
  | .regr l f => Sys2Proof.Machine.execRegr l f s
  | .regw l f => Sys2Proof.Machine.execRegw l f s
  | .postedWriteEnd l => Sys2Proof.Machine.execPostedWriteEnd l s
  | .msg l f => Sys2Proof.Machine.execMsg l f s
  | .msgr l f => Sys2Proof.Machine.execMsgr l f s
  | .evt l f => Sys2Proof.Machine.execEvt l f s
  | .cred l f => Sys2Proof.Machine.execCred l f s
  | .credLookup l => Sys2Proof.Machine.execCredLookup l s
  | .nowCapture l f => Sys2Proof.Machine.execNowCapture l f s
  | .nowTick l f => Sys2Proof.Machine.execNowTick l f s
  | .nowCycle l f => Sys2Proof.Machine.execNowCycle l f s
  | .loadBufferWrite p ofs data => Sys2Proof.Machine.execLoadBufferWrite p ofs data s
  | .load p slot => Sys2Proof.Machine.execLoad p slot s
  | .change p slot auto => Sys2Proof.Machine.execChange p slot auto s
  | .switch p slot => Sys2Proof.Machine.execSwitch p slot s
  | .abort p slot => Sys2Proof.Machine.execAbort p slot s
  | .unload p slot => Sys2Proof.Machine.execUnload p slot s
  | .restart p slot => Sys2Proof.Machine.execRestart p slot s
  | .loaderCommandComplete => Sys2Proof.Machine.execLoaderCommandComplete s
  | .switchFt => Sys2Proof.Machine.execSwitchFt s
  | .loopSampleDone g => Sys2Proof.Machine.execLoopSampleDone g s
  | .loopEnable p n => Sys2Proof.Machine.execLoopEnable p n s
  | .loopDisable p n => Sys2Proof.Machine.execLoopDisable p n s
  | .recover p n => Sys2Proof.Machine.execRecover p n s
  | .lpDefConfigure p n data => Sys2Proof.Machine.execLpDefConfigure p n data s
  | .lpDefFree p n data => Sys2Proof.Machine.execLpDefFree p n data s
  | .pidTuningWrite p n which data => Sys2Proof.Machine.execPidTuningWrite p n which data s
  | .sosCtlWrite p k data => Sys2Proof.Machine.execSosCtlWrite p k data s
  | .outLimitWrite p n isMax data => Sys2Proof.Machine.execOutLimitWrite p n isMax data s
  | .sampleProcessing codes => Sys2Proof.Machine.execSampleProcessing codes s
  | .pulseEmit n => Sys2Proof.Machine.execPulseEmit n s
  | .pulseOff n => Sys2Proof.Machine.execPulseOff n s
  | .chDefWrite p c data => Sys2Proof.Machine.execChDefWrite p c data s
  | .chWrapClear p c data => Sys2Proof.Machine.execChWrapClear p c data s
  | .plsCtlWrite p n data => Sys2Proof.Machine.execPlsCtlWrite p n data s
  | .plsSrcWrite p n weight data => Sys2Proof.Machine.execPlsSrcWrite p n weight data s
  | .headDetected k => Sys2Proof.Machine.execHeadDetected k s
  | .linkTrained k rounds => Sys2Proof.Machine.execLinkTrained k rounds s
  | .linkTimeLimit k => Sys2Proof.Machine.execLinkTimeLimit k s
  | .upFrame k fr => Sys2Proof.Machine.execUpFrame k fr s
  | .senseSupplyTrip k => Sys2Proof.Machine.execSenseSupplyTrip k s
  | .senseLinkRetry k => Sys2Proof.Machine.execSenseLinkRetry k s
  | .canFrameValidated ch fr => Sys2Proof.Machine.execCanFrameValidated ch fr s
  | .rxQueueEntry ch k => Sys2Proof.Machine.execRxQueueEntry ch k s
  | .takeForTransmission ch => Sys2Proof.Machine.execTakeForTransmission ch s
  | .transmissionEnd ch sent => Sys2Proof.Machine.execTransmissionEnd ch sent s
  | .canRecover p ch => Sys2Proof.Machine.execCanRecover p ch s
  | .canRecovered ch => Sys2Proof.Machine.execCanRecovered ch s
  | .daliBackwardFrame ch r => Sys2Proof.Machine.execDaliBackwardFrame ch r s
  | .daliEventFrame ch frame => Sys2Proof.Machine.execDaliEventFrame ch frame s
  | .daliCollision ch => Sys2Proof.Machine.execDaliCollision ch s
  | .busFail ch => Sys2Proof.Machine.execBusFail ch s
  | .busFailClear ch => Sys2Proof.Machine.execBusFailClear ch s
  | .overvolt ch => Sys2Proof.Machine.execOvervolt ch s
  | .overvoltClear p ch => Sys2Proof.Machine.execOvervoltClear p ch s
  | .uartMessageEnd port bytes => Sys2Proof.Machine.execUartMessageEnd port bytes s
  | .osdpReply port addr bytes => Sys2Proof.Machine.execOsdpReply port addr bytes s
  | .osdpReplyTimeout port => Sys2Proof.Machine.execOsdpReplyTimeout port s
  | .qcfgWrite p ch k data => Sys2Proof.Machine.execQcfgWrite p ch k data s
  | .crdAllocWrite p c data => Sys2Proof.Machine.execCrdAllocWrite p c data s
  | .mapDefWrite p ch m data => Sys2Proof.Machine.execMapDefWrite p ch m data s
  | .fltActWrite p ch fl data => Sys2Proof.Machine.execFltActWrite p ch fl data s
  | .ofCfgWrite p ch o data => Sys2Proof.Machine.execOfCfgWrite p ch o data s
  | .pollDefWrite p port e data => Sys2Proof.Machine.execPollDefWrite p port e data s
  | .bitTimingWrite p ch which data => Sys2Proof.Machine.execBitTimingWrite p ch which data s
  | .ethLinkChange port up gigabit eee => Sys2Proof.Machine.execEthLinkChange port up gigabit eee s
  | .portCtlWrite p port data => Sys2Proof.Machine.execPortCtlWrite p port data s
  | .sfpPresenceChange present optical => Sys2Proof.Machine.execSfpPresenceChange present optical s
  | .sfpCacheRefresh bytes => Sys2Proof.Machine.execSfpCacheRefresh bytes s
  | .lpiEntry => Sys2Proof.Machine.execLpiEntry s
  | .lldpEeeTlv wake => Sys2Proof.Machine.execLldpEeeTlv wake s
  | .t1sCollision port late => Sys2Proof.Machine.execT1sCollision port late s
  | .plcaWrite p port burst data => Sys2Proof.Machine.execPlcaWrite p port burst data s
  | .tunnelDatagram g => Sys2Proof.Machine.execTunnelDatagram g s
  | .tunnelRequest => Sys2Proof.Machine.execTunnelRequest s
  | .reorderTimeout k => Sys2Proof.Machine.execReorderTimeout k s
  | .sessionIdle k => Sys2Proof.Machine.execSessionIdle k s
  | .sesDefWrite p k data => Sys2Proof.Machine.execSesDefWrite p k data s
  | .sesCtlClose p k => Sys2Proof.Machine.execSesCtlClose p k s
  | .fabricRequest m beats addr => Sys2Proof.Machine.execFabricRequest m beats addr s
  | .pathGrant => Sys2Proof.Machine.execPathGrant s
  | .starvation m => Sys2Proof.Machine.execStarvation m s
  | .sidebandAssert m on => Sys2Proof.Machine.execSidebandAssert m on s
  | .bankPwrWrite p which data => Sys2Proof.Machine.execBankPwrWrite p which data s
  | .bankStateReached b => Sys2Proof.Machine.execBankStateReached b s
  | .scrub e => Sys2Proof.Machine.execScrub e s
  | .btRegionStart => Sys2Proof.Machine.execBtRegionStart s
  | .btRegionEnd fail => Sys2Proof.Machine.execBtRegionEnd fail s
  | .swset p data => Sys2Proof.Machine.execSwset p data s
  | .take p data => Sys2Proof.Machine.execTake p data s
  | .done p data => Sys2Proof.Machine.execDone p data s
  | .routeWrite p n data => Sys2Proof.Machine.execRouteWrite p n data s
  | .enEffect => Sys2Proof.Machine.execEnEffect s
  | .secondRollover => Sys2Proof.Machine.execSecondRollover s
  | .timeRegisterWrite p ofs data => Sys2Proof.Machine.execTimeRegisterWrite p ofs data s
  | .rtcCommitInstant => Sys2Proof.Machine.execRtcCommitInstant s
  | .timeRead p ofs => Sys2Proof.Machine.execTimeRead p ofs s
  | .centRead p => Sys2Proof.Machine.execCentRead p s
  | .alarmCtlWrite p a data => Sys2Proof.Machine.execAlarmCtlWrite p a data s
  | .backupSupplyLost => Sys2Proof.Machine.execBackupSupplyLost s
  | .tempCompensation temp => Sys2Proof.Machine.execTempCompensation temp s
  | .vbakLow mV => Sys2Proof.Machine.execVbakLow mV s
  | .recordWritten => Sys2Proof.Machine.execRecordWritten s
  | .hourlyMark => Sys2Proof.Machine.execHourlyMark s
  | .cairnFreeze p data => Sys2Proof.Machine.execCairnFreeze p data s
  | .cairnUnfreeze p data => Sys2Proof.Machine.execCairnUnfreeze p data s
  | .freezeMaxExpiry => Sys2Proof.Machine.execFreezeMaxExpiry s
  | .cairnRelease p data => Sys2Proof.Machine.execCairnRelease p data s
  | .quotaWrite p c data => Sys2Proof.Machine.execQuotaWrite p c data s
  | .lcAdv p data => Sys2Proof.Machine.execLcAdv p data s
  | .lifecycleTransitionEnd trng => Sys2Proof.Machine.execLifecycleTransitionEnd trng s
  | .submit p => Sys2Proof.Machine.execSubmit p s
  | .keyUpdateComplete trng => Sys2Proof.Machine.execKeyUpdateComplete trng s
  | .attest p => Sys2Proof.Machine.execAttest p s
  | .plainKeyGo p data => Sys2Proof.Machine.execPlainKeyGo p data s
  | .fuseBlow p ofs data => Sys2Proof.Machine.execFuseBlow p ofs data s
  | .fuseBlowComplete => Sys2Proof.Machine.execFuseBlowComplete s
  | .claim p => Sys2Proof.Machine.execClaim p s
  | .release p => Sys2Proof.Machine.execRelease p s
  | .updBegin p => Sys2Proof.Machine.execUpdBegin p s
  | .manifestChunk p x readBackOk => Sys2Proof.Machine.execManifestChunk p x readBackOk s
  | .chunk p x readBackOk => Sys2Proof.Machine.execChunk p x readBackOk s
  | .imageDigestCheck unread bad => Sys2Proof.Machine.execImageDigestCheck unread bad s
  | .install p => Sys2Proof.Machine.execInstall p s
  | .updAbort p => Sys2Proof.Machine.execUpdAbort p s
  | .confirm p => Sys2Proof.Machine.execConfirm p s
  | .revert p => Sys2Proof.Machine.execRevert p s
  | .bufferOwnerTimeout => Sys2Proof.Machine.execBufferOwnerTimeout s
  | .healthLeftTick => Sys2Proof.Machine.execHealthLeftTick s
  | .trialConfirmation => Sys2Proof.Machine.execTrialConfirmation s
  | .colLinkTrained rounds => Sys2Proof.Machine.execColLinkTrained rounds s
  | .colLinkDown => Sys2Proof.Machine.execColLinkDown s
  | .health h => Sys2Proof.Machine.execHealth h s
  | .time t => Sys2Proof.Machine.execTime t s
  | .copyStart => Sys2Proof.Machine.execCopyStart s
  | .copyData seq index words => Sys2Proof.Machine.execCopyData seq index words s
  | .copyEnd seq sent final => Sys2Proof.Machine.execCopyEnd seq sent final s
  | .copyAck seq nak => Sys2Proof.Machine.execCopyAck seq nak s
  | .copyAckTimeout => Sys2Proof.Machine.execCopyAckTimeout s
  | .logApplyComplete => Sys2Proof.Machine.execLogApplyComplete s
  | .mirrorReq req write addr data => Sys2Proof.Machine.execMirrorReq req write addr data s
  | .mirrorRsp req data status => Sys2Proof.Machine.execMirrorRsp req data status s
  | .archiveList items => Sys2Proof.Machine.execArchiveList items s
  | .archiveData slot gen ofs bytes => Sys2Proof.Machine.execArchiveData slot gen ofs bytes s
  | .echo => Sys2Proof.Machine.execEcho s
  | .colFrameError => Sys2Proof.Machine.execColFrameError s
  | .mirRead p => Sys2Proof.Machine.execMirRead p s
  | .mirWrite p => Sys2Proof.Machine.execMirWrite p s
  | .mirrorTimeout => Sys2Proof.Machine.execMirrorTimeout s
  | .heartbeatDecision => Sys2Proof.Machine.execHeartbeatDecision s
  | .peerLost => Sys2Proof.Machine.execPeerLost s
  | .joinWaitExpiry => Sys2Proof.Machine.execJoinWaitExpiry s
  | .faultDelayExpiry b => Sys2Proof.Machine.execFaultDelayExpiry b s
  | .sysRestart p data => Sys2Proof.Machine.execSysRestart p data s
  | .supervisorWatchdogExpiry b => Sys2Proof.Machine.execSupervisorWatchdogExpiry b s
  | .diEdge n rising stamp => Sys2Proof.Machine.execDiEdge n rising stamp s
  | .diStampRead p n => Sys2Proof.Machine.execDiStampRead p n s
  | .diMapWrite p n data => Sys2Proof.Machine.execDiMapWrite p n data s
  | .doMapWrite p m data => Sys2Proof.Machine.execDoMapWrite p m data s
  | .doTrip m => Sys2Proof.Machine.execDoTrip m s
  | .doFaultClear p data => Sys2Proof.Machine.execDoFaultClear p data s
  | .openLoad m => Sys2Proof.Machine.execOpenLoad m s
  | .mainsGoodInDown b => Sys2Proof.Machine.execMainsGoodInDown b s
  | .vReadyCrossing mV => Sys2Proof.Machine.execVReadyCrossing mV s
  | .railRecovered b => Sys2Proof.Machine.execRailRecovered b s
  | .dioSupplyChange ext sns limit => Sys2Proof.Machine.execDioSupplyChange ext sns limit s
  | .cablePresenceChange metres present clc => Sys2Proof.Machine.execCablePresenceChange metres present clc s
  | .daliSupplyCutoff ch => Sys2Proof.Machine.execDaliSupplyCutoff ch s
  | .headIdleSymbols k => Sys2Proof.Machine.execHeadIdleSymbols k s
  | .canIntegrated ch => Sys2Proof.Machine.execCanIntegrated ch s
  | .canBusError ch tec rec => Sys2Proof.Machine.execCanBusError ch tec rec s
  | .plcaStatusChange port ok => Sys2Proof.Machine.execPlcaStatusChange port ok s
  | .ethFrameReceived port octets fcsOk => Sys2Proof.Machine.execEthFrameReceived port octets fcsOk s
  | .handoverTimeout => Sys2Proof.Machine.execHandoverTimeout s
  | .gratuitousArpRepeat => Sys2Proof.Machine.execGratuitousArpRepeat s
  | .updCommandComplete => Sys2Proof.Machine.execUpdCommandComplete s
  | .attestComplete k => Sys2Proof.Machine.execAttestComplete k s
  | .supervisorConsistencyFault => Sys2Proof.Machine.execSupervisorConsistencyFault s

end Sys2Proof.Machine
end

