-- ==== Sys2Proof/Safety.lean ====
section
/-! DEFINITION. The terms of the claims: which registers a change may reach, what an executed lane instruction leaves, and what
counts as a safe run: every command ends in a next state, and no blown fuse is ever unblown (R464, R479). -/

namespace Sys2Proof.Machine

open Sys2Proof.Config

/-- `t` is `s` but for registers of the pages `ps`, and for what goes with registers: which copied words are dirty (R513), the
sources delivered under old enables (R432) and the event recorder (R454). -/
def OnlyPages (ps : List Nat) (s t : State) : Prop :=
  t = { s with regs := t.regs, dirty := t.dirty, intc := t.intc, cairn := t.cairn } ∧
  ∀ k, keyPage k ∉ ps → t.getKey k = s.getKey k

/-- `t` is `s` but for the registers with the keys `ks`. -/
def OnlyKeys (ks : List Nat) (s t : State) : Prop :=
  t = { s with regs := t.regs, dirty := t.dirty } ∧ ∀ k, k ∉ ks → t.getKey k = s.getKey k

/-- The state after an instruction of lane `l` that left the lane as `ln`: its STEP pulse is used up and EXEC_FT has counted one ft
(R225, R236). -/
def State.ran (s : State) (l : Nat) (ln : Lane) : State := (s.setLane l { ln with step := false }).bump (pgSCL l) 0x100

/-- The word of the code store that the lane fetches holds no error (R259, R421). -/
def State.cleanFetch (s : State) (l : Nat) : Bool :=
  !(s.lane l).running || s.struckBits (.code (((s.slot (s.lane l).slot).codeAt + (s.lane l).pc) / 32)) = 0

/-- The lane can execute an instruction in this ft, which no hardware update has come before, and fetches it whole (R189, R225). -/
def State.executes (s : State) (l : Nat) : Prop := s.laneReady l = true ∧ s.cleanFetch l = true ∧ s.closed ≠ some s.tick

/-- The number of an alias in address bits [13:12], and the address of a register of a page through an alias (R121, R122). -/
def aliasNum : Alias → Nat
  | .plain => 0
  | .set => 1
  | .clear => 2
  | .toggle => 3
def regAddr (pg : Nat) (al : Alias) (ofs : Nat) : Word := word (pg * 0x4000 + aliasNum al * 0x1000 + ofs)

/-- Every bit that is blown in `f` is blown in `g`. -/
def Fuses.within (f g : Fuses) : Prop :=
  ∀ ofs k, bit (Tbl.get (fun _ => 0) f.blown ofs) k = true → bit (Tbl.get (fun _ => 0) g.blown ofs) k = true

/-- The service port is shut for good: the lifecycle is past its first state and the kill fuse of the port is blown (R58, R481). -/
def State.portKilled (s : State) : Prop := s.lifecycle ≠ 0 ∧ bit (s.fuseReg 0x04C) 1 = true

/-- No hardware update of the present ft has come yet, and no port has granted an access in it, so an access is granted in it (R138,
R141). -/
def State.early (s : State) : Prop := s.closed ≠ some s.tick ∧ s.ports = []

/-- The access, or the instruction of a lane, ends in a next state: `t`, of which `P` holds, with what the model notes of the ft (log entry
52). -/
def Ends (c : Instr) (s : State) (P : State → Prop) : Prop := ∃ t, exec c s = .next (s.commit t) ∧ P t

/-- The hardware event ends in a next state: `t`, of which `P` holds, with what the model notes of the ft. -/
def Lands (c : Instr) (s : State) (P : State → Prop) : Prop := ∃ t, exec c s = .next (s.land t) ∧ P t

/-- The path's write of a register of page `pg` is granted in this ft (R141, R142). -/
def State.mayWrite (s : State) (p : Path) (pg : Nat) (own : Bool := false) : Prop := s.early ∧ s.gate p pg true own = some stOk

/-- The path is answered with status `st` at the port of page `pg`, and nothing else changes. -/
def Answers (c : Instr) (p : Path) (pg : Nat) (s : State) (st : Nat) : Prop :=
  exec c s = .next (s.commit ((s.turnAt pg).answer p st 0))

/-- What a start leaves (R530 to R534): the I/O domains released, WAIT, the reset cause with the code of the module fault that preceded it, no
fault, no cycle, and RUN as AUTORUN has it. A power-on reset starts the ticks and Ridgeline anew, a system reset keeps both (R531). -/
def StartedAs (s t : State) (cause : Nat) : Prop :=
  t.sys.released = true ∧ t.sys.firstDone = false ∧ t.sys.held = 0 ∧ t.sys.fault = 0 ∧ t.sysState = ssWait ∧
  t.reg pgSYS 0x044 = word (cause + 256 * s.sys.fault) ∧ t.regBit pgSCN 0x040 0 = t.regBit pgSYS 0x048 0 ∧
  t.scan.cycle = none ∧ t.locks = [] ∧ t.busy = [] ∧ t.spi = {} ∧
  (cause ≤ 3 → t.tick = 0 ∧ t.ridge = {}) ∧ (4 ≤ cause → t.tick = s.tick ∧ t.ridge = { s.ridge with owed := [] })

/-- The point mapper refuses an entry write (R183): it notes status, context, table and entry, counts it and pends; no entry, value or
latch of another path changes. -/
def PtmRefuses (c : Instr) (p : Path) (s : State) (st tab idx : Nat) : Prop :=
  Ends c s fun t =>
    t.answered p = ⟨st, 0⟩ ∧ t.reg pgPTM 0x078 = word (st + 256 * s.ctxOf p + 16777216 * tab) ∧
    t.reg pgPTM 0x07C = word (idx % 16384) ∧ t.reg pgPTM 0x088 = s.reg pgPTM 0x088 + 1 ∧ t.regBit pgPTM 0x010 3 = true ∧
    t = { s with regs := t.regs, dirty := t.dirty, intc := t.intc, entry := t.entry, last := t.last, ports := [pgPTM] } ∧
    ∀ k, k ∉ [rkey pgPTM 0x078, rkey pgPTM 0x07C, rkey pgPTM 0x088, rkey pgPTM 0x010] → t.getKey k = s.getKey k

/-- Receive queue `k` of a channel takes an image of that length: it is enabled, its owner has the credits, and its depth has room for
them beside what it holds and what is on the way to it (R357). -/
def State.takes (s : State) (ch k n : Nat) : Bool :=
  !s.isStandby && bit (s.qcfg ch k) 15 && decide (imageCredits n ≤ s.crdAvail (fld (s.qcfg ch k) 0 9)) &&
  decide (creditsOf (s.busQueue ch k) + creditsOf (((s.busCh ch).arriving.filter (·.1 = k)).map (·.2)) + imageCredits n ≤
    fld (s.qcfg ch k) 16 8)

/-- An image that arrives for receive queue `k` is on its way to it, charged to the queue's owner, or is dropped and counted; the
channel is otherwise `b` (R357). -/
def Receives (s t : State) (ch k : Nat) (img : List Byte) (b : BusCh) : Prop :=
  let owner := fld (s.qcfg ch k) 0 9
  let n := imageCredits img.length
  (s.takes ch k img.length = true → t.busCh ch = { b with arriving := b.arriving ++ [(k, ⟨owner, n, img⟩)] }) ∧
  (s.takes ch k img.length = false →
    t.busCh ch = b ∧
    (s.isStandby = false → t.regBit (busPage ch) 0x010 2 = true ∧
      (bit (s.qcfg ch k) 15 = true ∧ s.crdAvail owner < n →
        t.reg (busPage ch) 0x10C = s.reg (busPage ch) 0x10C + 1 ∧ t.reg (busPage ch) 0x110 = s.reg (busPage ch) 0x110) ∧
      (¬ (bit (s.qcfg ch k) 15 = true ∧ s.crdAvail owner < n) →
        t.reg (busPage ch) 0x110 = s.reg (busPage ch) 0x110 + 1 ∧ t.reg (busPage ch) 0x10C = s.reg (busPage ch) 0x10C)))

/-- The four terms of the message-buffer credits add up to the total (R34, R355), and no context has more than the quota term. -/
def State.creditsOk (s : State) : Prop :=
  s.crd crFree + s.crd crQuota + s.crd crQueued + s.crd crFlight = creditTotal s.small ∧ ∀ c, c < 512 → s.crdAvail c ≤ s.crd crQuota

/-- The OSDP exchange of a channel is over. -/
def BusCh.idleLine (b : BusCh) : BusCh :=
  { b with flight := none, open_ := false, reply := none, retries := 0, target := none }

/-- A step is safe: it ends in a next state in which every blown fuse is still blown. -/
def SafeStep (s : State) : Prop := ∃ t, step s = .next t ∧ s.fuse.within t.fuse

end Sys2Proof.Machine
end

