-- ==== Sys2Proof/Certificates/Slice0/Obligations.lean ====
section
/-! DEFINITION. The statements for the provers. Each docstring names the rule of spec/ it formalises; a clause that rests on a choice of
the model names its log entry. -/

open Sys2Proof Sys2Proof.Machine Sys2Proof.Config

/-! ### The block as a whole -/

/-- O1. A step executes the command at the front of the queue on the rest of the queue (R18, R120). -/
def Obligations.StepTakesTheFrontCommand : Prop :=
  ∀ (c : Instr) (rest : List Instr) (s : State), step { s with pending := c :: rest } = exec c { s with pending := rest }

/-- O2. With no command waiting a step is one ft: the fabric tick counter counts, after the first LOCK the rate is added to the angle (R18,
R91), the summary lines and IRQ_N follow (R127, R433), and the credit check runs (R34). Where the credits add up and no error has struck a
word, nothing else changes: outside INT every register keeps its value. That a step on an empty queue is one ft is log entry 2, a DESIGN
CHOICE. -/
def Obligations.IdleStepIsOneFt : Prop :=
  ∀ s : State, s.pending = [] →
    step s = .next (s.elapse 1).crdCheck ∧
    (s.fabric.struck = [] → s.crd crFree + s.crd crQuota + s.crd crQueued + s.crd crFlight = creditTotal s.small →
      ∃ t, step s = .next t ∧
        t = { s with tick := s.tick + 1, ridge := t.ridge, intc := t.intc, regs := t.regs, dirty := t.dirty, ports := [] } ∧
        (s.ridge.locked = false → t.ridge = s.ridge) ∧
        (s.ridge.locked = true → t.ridge = { s.ridge with acc := (s.ridge.acc + s.rate) % 2 ^ 96, halfAt := s.halfAfter 1 }) ∧
        (∀ k, keyPage k ≠ pgINT → t.getKey k = s.getKey k) ∧
        t.intc.rise = [] ∧ t.intc.fell = [] ∧ t.intc.pin = s.pinSource)

/-- O3. Every command ends in a next state, from every state, and leaves the waiting commands alone. -/
def Obligations.EveryCommandCompletes : Prop :=
  ∀ (c : Instr) (s : State), ∃ t, exec c s = .next t ∧ t.pending = s.pending

/-- O4. No step unblows a fuse (R479: no access unblows a bit), from every state. -/
def Obligations.NoStepUnblowsAFuse : Prop :=
  ∀ s t : State, step s = .next t → s.fuse.within t.fuse

/-- O5. The lifecycle state is the highest lifecycle fuse blown, FACTORY when none is, and no step lowers it (R464). -/
def Obligations.LifecycleOnlyAdvances : Prop :=
  (∀ s : State, (s.lifecycle = 3 ↔ bit (s.fuseReg 0x040) 2 = true) ∧
    (s.lifecycle = 2 ↔ bit (s.fuseReg 0x040) 2 = false ∧ bit (s.fuseReg 0x040) 1 = true) ∧
    (s.lifecycle = 1 ↔ bit (s.fuseReg 0x040) 2 = false ∧ bit (s.fuseReg 0x040) 1 = false ∧ bit (s.fuseReg 0x040) 0 = true) ∧
    (s.lifecycle = 0 ↔ bit (s.fuseReg 0x040) 2 = false ∧ bit (s.fuseReg 0x040) 1 = false ∧ bit (s.fuseReg 0x040) 0 = false)) ∧
  ∀ s t : State, step s = .next t → s.lifecycle ≤ t.lifecycle

/-- O6. Once the service port's kill fuse is blown past FACTORY, every step keeps the port shut, and every SPI frame is ignored
(R58, R464, R479, R481). -/
def Obligations.KilledServicePortStaysShut : Prop :=
  (∀ s t : State, s.portKilled → step s = .next t → t.portKilled) ∧
  ∀ s : State, s.portKilled → ∀ a d : Word,
    exec (.spiWrite a d) s = .next (s.land s) ∧ exec (.spiRead a) s = .next (s.land s) ∧ exec .spiFetch s = .next (s.land s) ∧
    exec .spiStatus s = .next (s.land s) ∧ exec .spiBadFrame s = .next (s.land s)

/-! ### Scan instructions -/

/-- O7. Integer and compare instructions: on a lane that can execute, each ends with the result of Table ISA-3 in G[D] (R228 discards
it for G0), the lane at its next instruction (R240 at the end of a loop body), one ft counted, and nothing else changed (R233, R236). -/
def Obligations.IntegerResults : Prop :=
  ∀ (l : Nat) (f : Fields) (s : State), s.executes l →
    let ln := s.lane l
    let a := ln.getG f.a
    let b := ln.opB f
    let ends := fun (v : Dword) => Host.Outcome.next (s.commit (s.ran l (ln.setG f.d v).next))
    exec (.nop l f) s = .next (s.commit (s.ran l ln.next)) ∧
    exec (.add l f) s = ends (a + b) ∧
    exec (.sub l f) s = ends (a - b) ∧
    exec (.mul l f) s = ends (BitVec.ofNat 64 (a.toNat * b.toNat)) ∧
    exec (.mulhs l f) s = ends ((a.signExtend 128 * b.signExtend 128).extractLsb' 64 64) ∧
    exec (.and l f) s = ends (a &&& b) ∧
    exec (.or l f) s = ends (a ||| b) ∧
    exec (.xor l f) s = ends (a ^^^ b) ∧
    exec (.shl l f) s = ends (BitVec.ofNat 64 (a.toNat * 2 ^ (b.toNat % 64))) ∧
    exec (.shr l f) s = ends (BitVec.ofNat 64 (a.toNat / 2 ^ (b.toNat % 64))) ∧
    exec (.sar l f) s = ends (BitVec.ofInt 64 (a.toInt / 2 ^ (b.toNat % 64))) ∧
    exec (.mins l f) s = ends (BitVec.ofInt 64 (min a.toInt b.toInt)) ∧
    exec (.maxs l f) s = ends (BitVec.ofInt 64 (max a.toInt b.toInt)) ∧
    exec (.addsat l f) s = ends (BitVec.ofInt 64 (max (-2 ^ 63) (min (2 ^ 63 - 1) (a.toInt + b.toInt)))) ∧
    exec (.subsat l f) s = ends (BitVec.ofInt 64 (max (-2 ^ 63) (min (2 ^ 63 - 1) (a.toInt - b.toInt)))) ∧
    exec (.ldi l f) s = ends (f.imm.signExtend 64) ∧
    exec (.ldhi l f) s = ends (BitVec.ofNat 64 (a.toNat % 2 ^ 32 + f.imm.toNat * 2 ^ 32)) ∧
    exec (.ceq l f) s = ends (if a = b then 1 else 0) ∧
    exec (.cne l f) s = ends (if a = b then 0 else 1) ∧
    exec (.clts l f) s = ends (if a.toInt < b.toInt then 1 else 0) ∧
    exec (.cles l f) s = ends (if a.toInt ≤ b.toInt then 1 else 0) ∧
    exec (.cltu l f) s = ends (if a.toNat < b.toNat then 1 else 0) ∧
    exec (.cleu l f) s = ends (if a.toNat ≤ b.toNat then 1 else 0)

/-- O8. Divisions with b ≠ 0 give the quotient rounded toward zero and its remainder; DIVS of −2^63 by −1 gives −2^63 and REMS of
the same operands 0; with b = 0 each takes the context fault ARITH with sub-cause DIV_ZERO and G[D] is left unchanged (R237). -/
def Obligations.DivisionResults : Prop :=
  ∀ (l : Nat) (f : Fields) (s : State), s.executes l →
    let ln := s.lane l
    let a := ln.getG f.a
    let b := ln.opB f
    let ends := fun (v : Dword) => Host.Outcome.next (s.commit (s.ran l (ln.setG f.d v).next))
    (b ≠ 0 →
      exec (.divs l f) s = ends (BitVec.ofInt 64 (a.toInt.tdiv b.toInt)) ∧
      exec (.divu l f) s = ends (BitVec.ofNat 64 (a.toNat / b.toNat)) ∧
      exec (.rems l f) s = ends (a - b * BitVec.ofInt 64 (a.toInt.tdiv b.toInt)) ∧
      exec (.remu l f) s = ends (a - b * BitVec.ofNat 64 (a.toNat / b.toNat))) ∧
    (a = 0x8000000000000000 → b = -1 →
      exec (.divs l f) s = ends 0x8000000000000000 ∧ exec (.rems l f) s = ends 0) ∧
    (b = 0 → ∀ c ∈ [Instr.divs l f, .divu l f, .rems l f, .remu l f],
      ∃ t, exec c s = .next (s.commit t) ∧
        t = ((s.setLane l { ln with step := false }).contextFault l cfArith subDiv).bump (pgSCL l) 0x100 ∧
        (t.lane l).g = ln.g)

/-- O9. Floating-point instructions: on a lane that can execute, each ends with its result in G[D] and nothing else changed; an operand
NaN makes every arithmetic result the canonical NaN; FMIN and FMAX, the comparisons and CVTFI treat NaNs, and values outside the INT64
range, as R238 says; FABS and FNEG of a number that is no NaN clear and invert the sign bit (of a NaN they give the canonical NaN: DEDUCED
from R233); −0 is below +0 for FMIN and FMAX; the rounded results themselves are those of Machine/SoftFloat.lean (R233, R238). -/
def Obligations.FloatResults : Prop :=
  ∀ (l : Nat) (f : Fields) (s : State), s.executes l →
    let ln := s.lane l
    let a := ln.getG f.a
    let b := ln.opB f
    let nan := fun (x : Dword) => 0x7FF0000000000000 < x.toNat % 2 ^ 63
    let qnan : Dword := 0x7FF8000000000000
    let ends := fun (v : Dword) => Host.Outcome.next (s.commit (s.ran l (ln.setG f.d v).next))
    (exec (.fadd l f) s = ends (BitVec.ofNat 64 (fadd f64 a.toNat b.toNat)) ∧
      exec (.fsub l f) s = ends (BitVec.ofNat 64 (fsub f64 a.toNat b.toNat)) ∧
      exec (.fmul l f) s = ends (BitVec.ofNat 64 (fmul f64 a.toNat b.toNat)) ∧
      exec (.fdiv l f) s = ends (BitVec.ofNat 64 (fdiv f64 a.toNat b.toNat)) ∧
      exec (.fsqrt l f) s = ends (BitVec.ofNat 64 (fsqrt f64 a.toNat)) ∧
      exec (.fmin l f) s = ends (BitVec.ofNat 64 (fminOf a.toNat b.toNat)) ∧
      exec (.fmax l f) s = ends (BitVec.ofNat 64 (fmaxOf a.toNat b.toNat)) ∧
      exec (.fceq l f) s = ends (if feq f64 a.toNat b.toNat then 1 else 0) ∧
      exec (.fclt l f) s = ends (if flt f64 a.toNat b.toNat then 1 else 0) ∧
      exec (.fcle l f) s = ends (if fle f64 a.toNat b.toNat then 1 else 0) ∧
      exec (.cvtfi l f) s = ends (BitVec.ofInt 64 (ftoInt f64 (-2 ^ 63) (2 ^ 63 - 1) a.toNat)) ∧
      exec (.cvtif l f) s = ends (BitVec.ofNat 64 (fofInt f64 a.toInt)) ∧
      exec (.cvtsd l f) s = ends (BitVec.ofNat 64 (fconv f32 f64 (a.toNat % 2 ^ 32))) ∧
      exec (.cvtds l f) s = ends (BitVec.ofNat 64 (fconv f64 f32 a.toNat))) ∧
    ((nan a ∨ nan b) →
      exec (.fadd l f) s = ends qnan ∧ exec (.fsub l f) s = ends qnan ∧ exec (.fmul l f) s = ends qnan ∧
      exec (.fdiv l f) s = ends qnan ∧ exec (.fceq l f) s = ends 0 ∧ exec (.fclt l f) s = ends 0 ∧
      exec (.fcle l f) s = ends 0) ∧
    (nan a → exec (.fsqrt l f) s = ends qnan ∧ exec (.cvtfi l f) s = ends 0 ∧ exec (.cvtds l f) s = ends 0x7FC00000 ∧
      exec (.fabs l f) s = ends qnan ∧ exec (.fneg l f) s = ends qnan) ∧
    (¬ nan a → exec (.fabs l f) s = ends (a &&& 0x7FFFFFFFFFFFFFFF) ∧ exec (.fneg l f) s = ends (a ^^^ 0x8000000000000000)) ∧
    (nan a → nan b → exec (.fmin l f) s = ends qnan ∧ exec (.fmax l f) s = ends qnan) ∧
    (nan a → ¬ nan b → exec (.fmin l f) s = ends b ∧ exec (.fmax l f) s = ends b) ∧
    (¬ nan a → nan b → exec (.fmin l f) s = ends a ∧ exec (.fmax l f) s = ends a) ∧
    (a = 0x8000000000000000 → b = 0 →
      exec (.fmin l f) s = ends a ∧ exec (.fmax l f) s = ends b ∧ exec (.fceq l f) s = ends 1 ∧ exec (.fclt l f) s = ends 0 ∧
      exec (.fcle l f) s = ends 1) ∧
    (a = 0 → b = 0x8000000000000000 → exec (.fmin l f) s = ends b ∧ exec (.fmax l f) s = ends a) ∧
    (0x43E0000000000000 ≤ a.toNat → a.toNat ≤ 0x7FF0000000000000 → exec (.cvtfi l f) s = ends 0x7FFFFFFFFFFFFFFF) ∧
    (0xC3E0000000000000 ≤ a.toNat → a.toNat ≤ 0xFFF0000000000000 → exec (.cvtfi l f) s = ends 0x8000000000000000)

/-- O10. Flow (R239 to R241): BR, BZ and BNZ go to pc + 8 · IMM; LOOP counts G[A], held at its count, or the count itself, starts
iteration 0 with G[D] at 0 or leaves at once; LEXIT leaves the innermost loop; CALL and RET keep and restore the caller's loops; at the
end of a body the next iteration starts with its number in G[D], or the loop ends. END ends the run at any depth: no frames and no loops
are left, the run's held stores stay for OUTPUT, the slot is listed among those whose run has ended, an event task completes its source
(R210), and the other lanes and the data SRAM are untouched. -/
def Obligations.FlowOfControl : Prop :=
  (∀ (l : Nat) (f : Fields) (s : State), s.executes l →
    let ln := s.lane l
    let goes := fun (n : Lane) => Host.Outcome.next (s.commit (s.ran l n))
    let target := ((ln.pc : Int) + 8 * f.imm.toInt).toNat
    let n := if f.a = 0 then f.imm.toNat % 8192 else min (ln.getG f.a).toNat (f.imm.toNat % 8192)
    let body := ln.pc + 8
    let after := body + 8 * (f.imm.toNat / 65536)
    exec (.br l f) s = goes (ln.land target) ∧
    (ln.getG f.a = 0 → exec (.bz l f) s = goes (ln.land target) ∧ exec (.bnz l f) s = goes (ln.land (ln.pc + 8))) ∧
    (ln.getG f.a ≠ 0 → exec (.bnz l f) s = goes (ln.land target) ∧ exec (.bz l f) s = goes (ln.land (ln.pc + 8))) ∧
    (n = 0 → exec (.loop l f) s = goes (ln.land after)) ∧
    (n ≠ 0 → exec (.loop l f) s =
      goes { ln.setG f.d 0 with loops := ⟨body, after, 0, n, f.d.toNat⟩ :: ln.loops, pc := body }) ∧
    (∀ fr rest, ln.loops = fr :: rest → exec (.lexit l f) s = goes ({ ln with loops := rest }.land fr.stop)) ∧
    exec (.call l f) s =
      goes { ln with frames := ⟨ln.pc + 8, ln.loops⟩ :: ln.frames, loops := [], pc := 8 * (f.imm.toNat % 2 ^ 20) } ∧
    (∀ fr rest, ln.frames = fr :: rest → exec (.ret l f) s = goes ({ ln with frames := rest, loops := fr.loops }.land fr.ret)) ∧
    (∀ pc, (∀ fr rest, ln.loops = fr :: rest → pc ≠ fr.stop) → ln.land pc = { ln with pc := pc }) ∧
    (∀ fr rest, ln.loops = fr :: rest → fr.k + 1 < fr.n →
      ln.land fr.stop =
        { ln with loops := { fr with k := fr.k + 1 } :: rest, pc := fr.first }.setG (BitVec.ofNat 5 fr.d) (BitVec.ofNat 64 (fr.k + 1))) ∧
    (∀ fr rest, ln.loops = fr :: rest → ¬ fr.k + 1 < fr.n → ln.land fr.stop = { ln with loops := rest }.land fr.stop)) ∧
  ∀ (l : Nat) (f : Fields) (s : State), s.executes l → s.struckBits (.held l) = 0 →
    ∃ t, exec (.endRun l f) s = .next (s.commit t) ∧ (t.lane l).running = false ∧ (t.lane l).frames = [] ∧ (t.lane l).loops = [] ∧
      (t.lane l).held = (s.lane l).held ∧ (s.lane l).slot ∈ (t.lane l).ended ∧ t.sram = s.sram ∧ t.slots = s.slots ∧
      (∀ e, (s.lane l).evb = some e → e < 64 → t.srcActive (s.evbSource e) = false) ∧
      ∀ m, m ≠ l → t.lane m = s.lane m

/-- O11. Edge instructions (R248): G[D] is 1 when RISE, FALL or BOTH sees its change, else 0; the bit then takes the value of in, and
every other edge bit of every slot keeps its value. -/
def Obligations.EdgeResults : Prop :=
  ∀ (l : Nat) (f : Fields) (s : State), s.executes l →
    let ln := s.lane l
    let inp := decide (ln.getG f.a ≠ 0)
    let n := f.imm.toNat % 256
    let edge := fun (u : State) (slot k : Nat) => Tbl.get (fun _ => false) (u.slot slot).edges k
    let p := edge s ln.slot n
    let leaves := fun (t : State) (v : Bool) =>
      t.lane l = { (ln.setG f.d (if v then 1 else 0)).next with step := false } ∧
      (∀ m, m ≠ l → t.lane m = s.lane m) ∧
      edge t ln.slot n = inp ∧ (∀ slot k, (slot, k) ≠ (ln.slot, n) → edge t slot k = edge s slot k) ∧
      t = { s with regs := t.regs, dirty := t.dirty, lanes := t.lanes, slots := t.slots } ∧
      ∀ k, k ≠ rkey (pgSCL l) 0x100 → t.getKey k = s.getKey k
    (∃ t, exec (.edgRise l f) s = .next (s.commit t) ∧ leaves t (inp && !p)) ∧
    (∃ t, exec (.edgFall l f) s = .next (s.commit t) ∧ leaves t (!inp && p)) ∧
    ∃ t, exec (.edgBoth l f) s = .next (s.commit t) ∧ leaves t (inp != p)

/-- O12. Timer instructions (R247), with now the tick of the capture ft of the current base cycle: TON, TOF, TP, TRD and TRST on the
timer of the lane's slot; every other timer keeps its state. -/
def Obligations.TimerResults : Prop :=
  ∀ (l : Nat) (f : Fields) (s : State), s.executes l →
    let ln := s.lane l
    let inp := decide (ln.getG f.a ≠ 0)
    let pt := (ln.getG f.b).toNat
    let n := f.imm.toNat % 64
    let now := s.scan.capture
    let x := s.timer ln.slot n
    let ends := fun (u : State) (v : Dword) (y : Timer) =>
      u.lane l = { (ln.setG f.d v).next with step := false } ∧ u.timer ln.slot n = y ∧
      (∀ slot k, (slot, k) ≠ (ln.slot, n) → u.timer slot k = s.timer slot k) ∧
      (∀ m, m ≠ l → u.lane m = s.lane m) ∧
      u = { s with regs := u.regs, dirty := u.dirty, lanes := u.lanes, slots := u.slots } ∧
      ∀ k, k ≠ rkey (pgSCL l) 0x100 → u.getKey k = s.getKey k
    let q1 := fun (q : Bool) => (if q then 1 else 0 : Dword)
    (∃ t, exec (.tmrTon l f) s = .next (s.commit t) ∧
      (inp = false → ends t 0 { x with run := false, q := false, last := false }) ∧
      (inp = true →
        let start := if x.run then x.start else now
        let q := decide (pt ≤ since64 now start)
        ends t (q1 q) ⟨true, start, q, true⟩)) ∧
    (∃ t, exec (.tmrTof l f) s = .next (s.commit t) ∧
      (inp = true → ends t 1 { x with run := false, q := true, last := true }) ∧
      (inp = false → x.run = false → x.q = true → ends t (q1 (decide (0 < pt))) ⟨true, now, decide (0 < pt), false⟩) ∧
      (inp = false → x.run = true →
        let q := decide (since64 now x.start < pt)
        ends t (q1 q) ⟨q, x.start, q, false⟩) ∧
      (inp = false → x.run = false → x.q = false → ends t 0 { x with q := false, last := false })) ∧
    (∃ t, exec (.tmrTp l f) s = .next (s.commit t) ∧
      (let starts := !x.run && inp && !x.last
       let start := if starts then now else x.start
       let run := (x.run || starts) && !decide (pt ≤ since64 now start)
       ends t (q1 run) ⟨run, start, run, inp⟩)) ∧
    (∃ t, exec (.tmrTrd l f) s = .next (s.commit t) ∧
      ends t (if x.run then BitVec.ofNat 64 (since64 now x.start) else 0) x) ∧
    (∃ t, exec (.tmrTrst l f) s = .next (s.commit t) ∧ ends t 0 { x with run := false, q := false, last := false })

/-- O13. Data instructions (R242, R243) whose offset is valid, in a bank that is ON and a word that is not poisoned and holds no error: LD
and LDQ bring the little-endian 64-bit words at off to G[D] (to G[D + 3]), ST and STQ store G[B] (to G[B + 3]), STS and STC set and clear
the bits of G[B]; every byte outside the stored word, every lane register but the destinations and every other part of the state keep
their values. STALL_FT counts what the fabric took (log entry 15), and EXEC_FT one ft. -/
def Obligations.DataInstructions : Prop :=
  ∀ (l : Nat) (f : Fields) (s : State) (base len : Nat), s.executes l →
    let ln := s.lane l
    s.section ln.slot (f.x.toNat % 16) = some (base, len) →
    let addr := (ln.getG f.a + f.imm.signExtend 64).toNat
    let off := addr / 8 * 8
    let off32 := addr / 32 * 32
    let open_ := fun (a : Nat) => s.bankStat (bankOf a) = 0 ∧ Tbl.get (fun _ => false) s.fabric.poison (a / 32) = false ∧
      s.struckBits (.sram (a / 32)) = 0
    let ends := fun (t : State) (n : Lane) =>
      t.lane l = { n.next with step := false } ∧ (∀ m, m ≠ l → t.lane m = s.lane m) ∧
      t = { s with regs := t.regs, dirty := t.dirty, lanes := t.lanes, sram := t.sram, fresh := s.fresh + 1, fabric := t.fabric } ∧
      ∀ k, k ≠ rkey (pgSCL l) 0x100 → k ≠ rkey (pgSCL l) 0x104 → t.getKey k = s.getKey k
    let stored := fun (t : State) (a : Nat) (v : Dword) =>
      (∀ i, i < 8 → t.byte (a + i) = BitVec.ofNat 8 (v.toNat / 256 ^ i)) ∧ ∀ x, x < a ∨ a + 8 ≤ x → t.byte x = s.byte x
    let b := ln.getG f.b
    let m := BitVec.ofNat 64 (s.load (base + off) 8)
    (off + 8 ≤ len → open_ (base + off) →
      (∃ t, exec (.ld l f) s = .next (s.commit t) ∧ ends t (ln.setG f.d m) ∧ t.sram = s.sram ∧ t.fabric = s.fabric) ∧
      (∃ t, exec (.st l f) s = .next (s.commit t) ∧ ends t ln ∧ stored t (base + off) b ∧ t.fabric = s.fabric) ∧
      (∃ t, exec (.sts l f) s = .next (s.commit t) ∧ ends t ln ∧ stored t (base + off) (m ||| b) ∧ t.fabric = s.fabric) ∧
      (∃ t, exec (.stc l f) s = .next (s.commit t) ∧ ends t ln ∧ stored t (base + off) (m &&& ~~~ b) ∧ t.fabric = s.fabric)) ∧
    (off32 + 32 ≤ len → open_ (base + off32) →
      (∃ t, exec (.ldq l f) s = .next (s.commit t) ∧ t.sram = s.sram ∧ t.fabric = s.fabric ∧
        ends t ((((ln.setG f.d (BitVec.ofNat 64 (s.load (base + off32) 8))).setG (f.d + 1)
          (BitVec.ofNat 64 (s.load (base + off32 + 8) 8))).setG (f.d + 2) (BitVec.ofNat 64 (s.load (base + off32 + 16) 8))).setG
          (f.d + 3) (BitVec.ofNat 64 (s.load (base + off32 + 24) 8)))) ∧
      (∃ t, exec (.stq l f) s = .next (s.commit t) ∧ ends t ln ∧
        (∀ i, i < 32 → t.byte (base + off32 + i) =
          BitVec.ofNat 8 ((ln.getG (f.b + BitVec.ofNat 5 (i / 8))).toNat / 256 ^ (i % 8))) ∧
        ∀ x, x < base + off32 ∨ base + off32 + 32 ≤ x → t.byte x = s.byte x))

/-- O14. Point loads and stores (R244, R245): a load brings the value that the run holds for the point, else the value in force, to
G[D]; a store is held in the lane in place of an earlier one, and changes no point; PLDX and PSTX add a to the index where a is below the
range. Entries and values are read as they stood at the start of the ft (R23, R184). Nothing but the lane and its EXEC_FT changes. -/
def Obligations.PointInstructions : Prop :=
  ∀ (l : Nat) (f : Fields) (s : State), s.executes l →
    let ln := s.lane l
    let c := s.slotCtx ln.slot
    let a := (ln.getG f.a).toNat
    let j := f.imm.toNat % 8192
    let n := f.imm.toNat / 65536 % 16384
    let held := fun (pt : Nat) => (ln.held.find? fun h => h.slot = ln.slot && h.pt = pt).map (·.value)
    let loads := fun (cmd : Instr) (pt : Nat) =>
      exec cmd s = .next (s.commit (s.ran l (ln.setG f.d ((held pt).getD (s.past.ptValue pt))).next))
    let stores := fun (cmd : Instr) (pt : Nat) =>
      exec cmd s = .next (s.commit (s.ran l ({ ln with held := (ln.held.filter fun h => !(h.slot = ln.slot && h.pt = pt)) ++
        [(⟨ln.slot, pt, ln.getG f.b⟩ : Held)] } : Lane).next))
    (∀ pt ro, s.past.resolve c j = some (pt, ro) → loads (.pld l f) pt) ∧
    (∀ pt ro, a < n → s.past.resolve c (j + a) = some (pt, ro) → loads (.pldx l f) pt) ∧
    (s.struckBits (.held l) = 0 →
      (∀ pt, s.past.resolveOwn c j = some pt → stores (.pst l f) pt) ∧
      (∀ pt, a < n → s.past.resolveOwn c (j + a) = some pt → stores (.pstx l f) pt))

/-- O15. An offset or index outside its range (R242, R244) takes the context fault ARITH, a refused point (R246) POINT_REFUSED, and a data
access to a bank that is not ON (R420) or a poisoned word (R423), an instruction word with three struck bits or more, and held stores that
can not be read, the fault ECC (R259): G[D] is left unchanged, nothing of the run stays held, and the run ends. -/
def Obligations.RunTimeFaultsOfAccesses : Prop :=
  ∀ (l : Nat) (f : Fields) (s : State), s.laneReady l = true → s.closed ≠ some s.tick →
    let ln := s.lane l
    let c := s.slotCtx ln.slot
    let u := s.setLane l { ln with step := false }
    let addr := (ln.getG f.a + f.imm.signExtend 64).toNat
    let a := (ln.getG f.a).toNat
    let j := f.imm.toNat % 8192
    let n := f.imm.toNat / 65536 % 16384
    let faults := fun (cmd : Instr) (v : State) (code sub : Nat) =>
      ∃ t, exec cmd s = .next (s.commit t) ∧ t = (v.contextFault l code sub).bump (pgSCL l) 0x100 ∧ (t.lane l).g = ln.g ∧
        (t.lane l).running = false ∧ ∀ h ∈ (t.lane l).held, h ∈ ln.held ∧ h.slot ≠ ln.slot
    let lost := fun (b : Nat) => s.bankStat (bankOf b) ≠ 0 ∨ Tbl.get (fun _ => false) s.fabric.poison (b / 32) = true
    (ln.running = true → 3 ≤ s.struckBits (.code (((s.slot ln.slot).codeAt + ln.pc) / 32)) →
      ∀ cmd ∈ [Instr.nop l f, .add l f, .divs l f, .fadd l f, .br l f, .ld l f, .stq l f, .pld l f, .pst l f, .tmrTon l f, .edgRise l f,
          .msg l f, .evt l f, .cred l f, .nowTick l f, .endRun l f], faults cmd (u.fetch l).1 cfEcc 0) ∧
    (s.cleanFetch l = true →
    (∀ base len, s.section ln.slot (f.x.toNat % 16) = some (base, len) →
      (len < addr / 8 * 8 + 8 →
        faults (.ld l f) u cfArith subBounds ∧ faults (.st l f) u cfArith subBounds ∧ faults (.sts l f) u cfArith subBounds ∧
        faults (.stc l f) u cfArith subBounds) ∧
      (len < addr / 32 * 32 + 32 → faults (.ldq l f) u cfArith subBounds ∧ faults (.stq l f) u cfArith subBounds) ∧
      (addr / 8 * 8 + 8 ≤ len → lost (base + addr / 8 * 8) →
        ∀ cmd ∈ [Instr.ld l f, .st l f, .sts l f, .stc l f],
          faults cmd ((u.stalled l 1).reach32 (4 + l) (base + addr / 8 * 8) true).1 cfEcc 0) ∧
      (addr / 32 * 32 + 32 ≤ len → lost (base + addr / 32 * 32) →
        faults (.ldq l f) ((u.stalled l 1).reach32 (4 + l) (base + addr / 32 * 32) true).1 cfEcc 0)) ∧
    (n ≤ a → faults (.pldx l f) u cfArith subIndex) ∧
    (s.struckBits (.held l) = 0 → n ≤ a → faults (.pstx l f) u cfArith subIndex) ∧
    (let h := u.checkStore (.held l)
     h.2 = true → ∀ cmd ∈ [Instr.pst l f, .pstx l f, .endRun l f], faults cmd (h.1.heal (.held l)) cfEcc 0) ∧
    (let r := (u.accessRefused c j).addKey (ikey pgPTM (ctxAddr c + 8)) 1
     (s.past.resolve c j = none → faults (.pld l f) r cfPoint 0) ∧
     (s.struckBits (.held l) = 0 → s.past.resolveOwn c j = none → faults (.pst l f) r cfPoint 0)))

/-- O16. LOCK (R212 to R215, R250): an acquire of a free lock of the program's context is GRANTED, of a broken one GRANTED_LOST; one that
breaks the rank order gets ORDER; one of a lock that is held or queued waits at its place in the queue with its deadline; a release of a
lock that the program holds frees it, with 0 in G[D]. A hold that has outlasted HOLD_MAX has expired before either: where it is one of the
lane's own, its program ends there (R217). -/
def Obligations.LockInstructions : Prop :=
  ∀ (l : Nat) (f : Fields) (s : State), s.executes l →
    let ln := s.lane l
    let c := s.slotCtx ln.slot
    let n := f.imm.toNat % 256
    let k := s.lock n
    (∀ m ∈ s.overdue, (s.lock m).kind = 1 → (s.lock m).lane = l →
      ∀ cmd ∈ [Instr.lockAcquire l f, .lockRelease l f], exec cmd s = .next (s.commit (s.expireHolds s.overdue))) ∧
    (s.overdue = [] →
    (n < lockLimit s.small → (c = 0 ∨ s.lockCtx n = c) →
      (s.breaksOrder 1 ln.slot n = true →
        ∃ t, exec (.lockAcquire l f) s = .next (s.commit t) ∧ t.lane l = { (ln.setG f.d 2).next with step := false } ∧ t.locks = s.locks) ∧
      (s.breaksOrder 1 ln.slot n = false → s.lockTaken n = false →
        ∃ t, exec (.lockAcquire l f) s = .next (s.commit t) ∧
          t.lane l = { (ln.setG f.d (if k.state = lkBroken then 1 else 0)).next with step := false } ∧
          t.lock n = { k with state := lkHeld, kind := 1, holder := ln.slot, lane := l, since := s.tick, freed := none } ∧
          (∀ m, m ≠ n → t.lock m = s.lock m) ∧
          t = { s with regs := t.regs, dirty := t.dirty, lanes := t.lanes, locks := t.locks } ∧
          ∀ x, x ∉ [rkey (pgSCL l) 0x100, rkey pgLCK 0x080] → t.getKey x = s.getKey x) ∧
      (s.breaksOrder 1 ln.slot n = false → s.lockTaken n = true →
        ∃ t, exec (.lockAcquire l f) s = .next (s.commit t) ∧
          t.lane l = { ln.next with step := false, wait := some ⟨n, f.d.toNat,
            if f.imm.toNat / 256 = 0 then none else some (s.tick + f.imm.toNat / 256), s.tick⟩ } ∧
          (t.lock n).queue.length = k.queue.length + 1 ∧ l ∈ (t.lock n).queue ∧ (t.lock n).state = k.state ∧
          ∀ m, m ≠ n → t.lock m = s.lock m)) ∧
    (k.state = lkHeld → k.kind = 1 → k.holder = ln.slot →
      ∃ t, exec (.lockRelease l f) s = .next (s.commit t) ∧ t.lane l = { (ln.setG f.d 0).next with step := false } ∧
        (t.lock n).state = lkFree ∧ (t.lock n).queue = k.queue ∧ (∀ m, m ≠ n → t.lock m = s.lock m) ∧
        t = { s with regs := t.regs, dirty := t.dirty, lanes := t.lanes, locks := t.locks }))

/-- O17. REGW with D = G0 enters the post buffer (R251), a fifth posted write waits and the lane with it; REGR, and REGW with D ≠ G0, make
their access with the program's context and bring status and value to G[D] (R252), ABSENT for an address of 0x0100_0000 or above, while an
access to IND_DATA of a slow page holds its port and the lane waits for its end (R140); FENCE goes on when every earlier access of the lane
has ended; the end of the oldest posted write takes it out of the buffer. -/
def Obligations.RegisterInstructions : Prop :=
  (∀ (l : Nat) (f : Fields) (s : State), s.executes l →
    let ln := s.lane l
    let addr := (ln.getG f.a).setWidth 32 + f.imm
    let data : Word := (ln.getG f.b).setWidth 32
    let t := progTarget addr
    let u := s.setLane l { ln with step := false }
    let free := ln.postedTo t = false ∧ ln.fencePosted = false ∧ s.portBusy (targetPage t) = false
    (f.d = 0 → ln.posts.length < 4 → exec (.regw l f) s = .next (s.commit (s.ran l ({ ln with posts :=
      ln.posts ++ [⟨ln.slot, ln.runNo, (s.slot ln.slot).codeAt + ln.pc, addr, data⟩] } : Lane).next))) ∧
    (f.d = 0 → 4 ≤ ln.posts.length → exec (.regw l f) s = .next (s.commit s)) ∧
    (s.pathPending (.lane l) = false → exec (.fence l f) s = .next (s.commit (s.ran l ln.next))) ∧
    (s.pathPending (.lane l) = true → exec (.fence l f) s = .next (s.commit s)) ∧
    (free → slowTarget t = none → s.presents (.lane l) t false = true →
      let v := u.readAt (.lane l) t
      (v.answered (.lane l)).status ≠ stDenied →
        ∃ x, exec (.regr l f) s = .next (s.commit x) ∧
          x.lane l = (({ v.lane l with reg := false } : Lane).setG f.d (BitVec.ofNat 64
            ((v.answered (.lane l)).data.toNat + 2 ^ 32 * (v.answered (.lane l)).status))).next) ∧
    (f.d ≠ 0 → free → slowTarget t = none → isFence t = false → s.presents (.lane l) t true = true →
      let v := u.writeAt (.lane l) t data
      (v.answered (.lane l)).status ≠ stDenied →
        ∃ x, exec (.regw l f) s = .next (s.commit x) ∧
          x.lane l = (({ v.lane l with reg := false } : Lane).setG f.d (BitVec.ofNat 64
            (2 ^ 32 * (v.answered (.lane l)).status))).next) ∧
    (∀ pg al, free → slowTarget t = some (pg, al) → s.gate (.lane l) pg false (ownedReg pg 0x024 false) = some stOk →
      ¬ (pg = pgSNS ∧ s.headAbsent (s.indAt (.lane l) pg) = true) → pg ∉ s.ports →
        ∃ x, exec (.regr l f) s = .next (s.commit x) ∧ x.lane l = { ln with step := false, reg := true } ∧
          Tbl.get (fun _ => none) x.busy pg = some (⟨.lane l, al, false, 0, s.tick, .regr f.d⟩ : IndOp)) ∧
    (0x01000000 ≤ addr.toNat → s.pathLive (.lane l) = true → s.portBusy 0x16 = false → ln.posts = [] →
        (∃ x, exec (.regr l f) s = .next (s.commit x) ∧ x.lane l = { (ln.setG f.d 0x200000000).next with step := false, reg := false }) ∧
        (f.d ≠ 0 → ∃ x, exec (.regw l f) s = .next (s.commit x) ∧
          x.lane l = { (ln.setG f.d 0x200000000).next with step := false, reg := false }))) ∧
  ∀ (l : Nat) (s : State), s.early → s.fences = [] → s.alive = true →
    let ln := s.lane l
    ∀ x rest, ln.posts = x :: rest → ln.posting = false → 0x01000000 ≤ x.addr.toNat → s.portBusy 0x16 = false →
      ∃ t, exec (.postedWriteEnd l) s = .next (s.land t) ∧
        t.lane l = { ln with posts := rest, endAt := if rest = [] ∧ ln.running = false then max ln.endAt s.tick else ln.endAt } ∧
        t = { s with lanes := t.lanes, last := t.last, ports := [0x16] } ∧ t.answered (.lane l) = ⟨stAbsent, 0⟩

/-- O18. EVT puts 0 in G[D] when Cairn accepts or folds its record, behind the MARK of a first record (R453), and 1 when it is lost, and
reaches only Cairn's registers (R256); CRED issues its lookup and the lane waits at its instruction (R257); NOW writes the capture tick,
the tick, or the stamp at the base anchor (R258); MSG with length 0 gets EMPTY and with a foreign queue DENIED; a granted MSG with room
and credits queues the image with its credits, and MSGR of an empty queue gets EMPTY (R253, R254). -/
def Obligations.EventsLookupsTimeAndMessages : Prop :=
  ∀ (l : Nat) (f : Fields) (s : State), s.executes l →
    let ln := s.lane l
    let c := s.slotCtx ln.slot
    let q := f.imm.toNat % 65536
    let m := f.imm.toNat / 65536 % 512
    (l < 8 → c < 512 → ∃ t lost, exec (.evt l f) s = .next (s.commit t) ∧
      t.lane l = { (ln.setG f.d (if lost then 1 else 0)).next with step := false } ∧
      (lost = true ↔ t.reg pgCRN 0x08C ≠ s.markFirst.reg pgCRN 0x08C) ∧
      OnlyPages [pgCRN, pgSCL l] { s with lanes := t.lanes } t) ∧
    (∃ t, exec (.cred l f) s = .next (s.commit t) ∧ t.lane l = { ln with step := false, cred := true } ∧
      ∃ k ∈ t.points.lookups, k.lane = l ∧ k.d = f.d.toNat ∧ k.key = ln.getG f.a ∧ k.lift = f.imm.getLsbD 0 ∧
        k.group = (ln.getG f.b).toNat % 16 ∧ k.ctx = c ∧ k.waits = true) ∧
    exec (.nowCapture l f) s = .next (s.commit (s.ran l (ln.setG f.d (BitVec.ofNat 64 s.scan.capture)).next)) ∧
    exec (.nowTick l f) s = .next (s.commit (s.ran l (ln.setG f.d (BitVec.ofNat 64 s.tick)).next)) ∧
    exec (.nowCycle l f) s = .next (s.commit (s.ran l (ln.setG f.d (BitVec.ofNat 64 s.scan.stamp)).next)) ∧
    (∀ base size, s.section ln.slot (f.x.toNat % 16) = some (base, size) →
      let len := min (ln.getG f.b).toNat m
      (ln.getG f.a).toNat + 32 * ceilDiv len 32 ≤ size →
      let n := imageCredits len
      (len = 0 → exec (.msg l f) s = .next (s.commit (s.ran l (ln.setG f.d 5).next))) ∧
      (len ≠ 0 → s.granted q c true = false → exec (.msg l f) s = .next (s.commit (s.ran l (ln.setG f.d 4).next))) ∧
      (len ≠ 0 → s.granted q c true = true → s.busDown (q / 16) = true →
        exec (.msg l f) s = .next (s.commit (s.ran l (ln.setG f.d 3).next))) ∧
      (len ≠ 0 → s.granted q c true = true → s.busDown (q / 16) = false →
        fld (s.qcfg (q / 16) (q % 16)) 16 8 < creditsOf (s.busQueue (q / 16) (q % 16)) + n →
        exec (.msg l f) s = .next (s.commit (s.ran l (ln.setG f.d 2).next))) ∧
      (len ≠ 0 → s.granted q c true = true → s.busDown (q / 16) = false →
        creditsOf (s.busQueue (q / 16) (q % 16)) + n ≤ fld (s.qcfg (q / 16) (q % 16)) 16 8 → s.crdAvail c < n →
        exec (.msg l f) s = .next (s.commit (s.ran l (ln.setG f.d 1).next)))) ∧
    (∀ base size, s.section ln.slot (f.x.toNat % 16) = some (base, size) → (ln.getG f.a).toNat + 32 * ceilDiv m 32 ≤ size →
      (s.granted q c false = false → exec (.msgr l f) s = .next (s.commit (s.ran l (ln.setG f.d 4).next))) ∧
      (s.granted q c false = true → s.busQueue (q / 16) (q % 16) = [] →
        exec (.msgr l f) s = .next (s.commit (s.ran l (ln.setG f.d 5).next))))

/-- O19. MSG and MSGR move whole images (R253, R254, R355): with the queue granted, room, credits and words that can be read, MSG appends
the image with its credits to the queue and G[D] is QUEUED; MSGR takes the oldest message, its bytes lie in the section up to M, and G[D]
holds the result and the bytes copied. The credit terms add up before and after. -/
def Obligations.MessagesMove : Prop :=
  ∀ (l : Nat) (f : Fields) (s : State) (base size : Nat), s.executes l → l < 8 →
    let ln := s.lane l
    let c := s.slotCtx ln.slot
    let q := f.imm.toNat % 65536
    let m := f.imm.toNat / 65536 % 512
    let a := base + (ln.getG f.a).toNat
    let len := min (ln.getG f.b).toNat m
    let n := imageCredits len
    let ch := q / 16
    s.section ln.slot (f.x.toNat % 16) = some (base, size) →
    (∀ w, s.bankStat (bankOf (32 * w)) = 0) → s.fabric.poison = [] → s.fabric.struck = [] →
    s.crd crFree + s.crd crQuota + s.crd crQueued + s.crd crFlight = creditTotal s.small →
    (len ≠ 0 → (ln.getG f.a).toNat + 32 * ceilDiv len 32 ≤ size → s.granted q c true = true → s.busDown ch = false →
      creditsOf (s.busQueue ch (q % 16)) + n ≤ fld (s.qcfg ch (q % 16)) 16 8 → n ≤ s.crdAvail c → n ≤ s.crd crQuota →
      ∃ t, exec (.msg l f) s = .next (s.commit t) ∧ t.lane l = { (ln.setG f.d 0).next with step := false } ∧
        t.busQueue ch (q % 16) = s.busQueue ch (q % 16) ++ [⟨c, n, readBytes s.sram a len⟩] ∧
        t.crd crQuota = s.crd crQuota - n ∧ t.crd crQueued = s.crd crQueued + n ∧ t.sram = s.sram) ∧
    (∀ x rest, (ln.getG f.a).toNat + 32 * ceilDiv m 32 ≤ size → s.granted q c false = true →
      s.busQueue ch (q % 16) = x :: rest → x.credits ≤ s.crd crQueued →
      ∃ t, exec (.msgr l f) s = .next (s.commit t) ∧
        t.lane l = { (ln.setG f.d (BitVec.ofNat 64 ((if m < x.bytes.length then 6 else 0) + 65536 * min x.bytes.length m))).next with
          step := false } ∧
        t.busQueue ch (q % 16) = rest ∧ t.crd crQueued = s.crd crQueued - x.credits ∧
        t.crd crQuota = s.crd crQuota + x.credits ∧
        (∀ i (h : i < min x.bytes.length m), t.byte (a + i) = x.bytes[i]'(by omega)) ∧
        ∀ y, y < a ∨ a + min x.bytes.length m ≤ y → t.byte y = s.byte y)

/-! ### Paths, registers and pages -/

/-- O20. What the page port answers before the block sees an access (R123, R125, R140, R141, R142): a module without power or held in
reset, a closed port of a path and a path that a fence stalls leave the state alone; an access to a port that an indirect access holds
waits for it; an unassigned or absent page ends ABSENT; a class that the fuses deny the path, and a register that a context other than 0
does not own, end DENIED. A refused write or read changes nothing but the path's answer. -/
def Obligations.PagePortAnswers : Prop :=
  ∀ (p : Path) (pg ofs : Nat) (al : Alias) (data : Word) (s : State), pg < 1024 → ofs < 4096 → ofs % 4 = 0 →
    s.closed ≠ some s.tick → ¬ (pageIndirect pg ∧ ofs = 0x024) → ¬ (pg = pgSYS ∧ ofs = 0x050) →
    let own := fun wr => ownedReg pg ofs wr
    let open_ := s.pathLive p = true ∧ s.portBusy pg = false
    (s.pathLive p = false → exec (.registerWrite p (regAddr pg al ofs) data) s = .next (s.commit s) ∧
      exec (.readClear p (regAddr pg al ofs)) s = .next (s.commit s)) ∧
    (s.pathLive p = true → s.portBusy pg = true →
      exec (.registerWrite p (regAddr pg al ofs) data) s = .next (s.commit (s.park ⟨p, true, regAddr pg al ofs, data, none, .told⟩)) ∧
      exec (.readClear p (regAddr pg al ofs)) s = .next (s.commit (s.park ⟨p, false, regAddr pg al ofs, 0, none, .told⟩))) ∧
    (open_ → s.present pg = false → Answers (.registerWrite p (regAddr pg al ofs) data) p pg s stAbsent ∧
      Answers (.readClear p (regAddr pg al ofs)) p pg s stAbsent) ∧
    (open_ → s.present pg = true → s.fuseAllows p (pageClass pg) true = false →
      Answers (.registerWrite p (regAddr pg al ofs) data) p pg s stDenied) ∧
    (open_ → s.present pg = true → s.fuseAllows p (pageClass pg) false = false → Answers (.readClear p (regAddr pg al ofs)) p pg s stDenied) ∧
    (open_ → s.present pg = true → s.ctxOf p ≠ 0 →
      (own true = false → Answers (.registerWrite p (regAddr pg al ofs) data) p pg s stDenied) ∧ (own false = false →
        Answers (.readClear p (regAddr pg al ofs)) p pg s stDenied))

/-- O21. Writes by access code (R128, R131) on registers that every page has: SNAP_CTL takes the alias operation in its implemented bits;
IRQ_PEND clears only through the clear alias and only where data is 1; IRQ_EN takes the alias operation, and where that raises the page's
summary line, the line stays as it was in this ft and the page's source becomes PENDING in the following one (R127). -/
def Obligations.HeaderWrites : Prop :=
  ∀ (p : Path) (pg : Nat) (al : Alias) (data : Word) (s : State), pg < 53 → s.early → s.gate p pg true false = some stOk →
    let m := word (irqMask pg)
    let u := s.turnAt pg
    (bit data 0 = false →
      let old := s.reg pg 0x018
      exec (.registerWrite p (regAddr pg al 0x018) data) s =
        .next (s.commit ((u.setReg pg 0x018 ((aliasValue al old data &&& 0xFF00) ||| (old &&& 0xFFFF00FF))).answer p stOk 0))) ∧
    exec (.registerWrite p (regAddr pg .clear 0x010) data) s =
      .next (s.commit (((u.setReg pg 0x010 (s.reg pg 0x010 &&& ~~~ (data &&& m))).noteLine pg (s.summary pg)).answer p stOk 0)) ∧
    (al ≠ .clear → ∃ t, exec (.registerWrite p (regAddr pg al 0x010) data) s = .next (s.commit t) ∧ ∀ k, t.getKey k = s.getKey k) ∧
    (let old := s.reg pg 0x014
     let new := (aliasValue al old data &&& m) ||| (old &&& ~~~ m)
     ∃ t, exec (.registerWrite p (regAddr pg al 0x014) data) s = .next (s.commit t) ∧ t.reg pg 0x014 = new ∧
       OnlyPages [pg] { s with last := t.last, ports := t.ports } t ∧ t.answered p = ⟨stOk, 0⟩ ∧
       (s.reg pg 0x010 &&& old = 0 → s.reg pg 0x010 &&& new ≠ 0 → pg ∉ s.intc.fell → s.intc.rise = [] →
         t.line pg = false ∧ t.tickOnce.srcPend pg = true ∧ t.tickOnce.line pg = true))

/-- O22. Reads (R124, R136): a counter of PTM that clears on read returns its value and becomes 0, and nothing else changes but the path's
answer; a read of PHT.THETA_LO returns the low word and latches the high one, and the path's later read of THETA_HI returns the latched word
whatever the angle has become. -/
def Obligations.ReadsClearAndLatch : Prop :=
  ∀ (p : Path) (s : State),
    (∀ ofs ∈ [0x080, 0x084, 0x088, 0x08C, 0x090], s.early → s.gate p pgPTM false false = some stOk →
      exec (.readClear p (regAddr pgPTM .plain ofs)) s =
        .next (s.commit (((s.turnAt pgPTM).setReg pgPTM ofs 0).answer p stOk (s.reg pgPTM ofs)))) ∧
    (s.early → s.gate p pgPHT false false = some stOk →
      ∃ t, exec (.loReadLatch p (regAddr pgPHT .plain 0x058)) s = .next (s.commit t) ∧
        t.answered p = ⟨stOk, loWord s.theta⟩ ∧ t = { s with bank := t.bank, last := t.last, ports := [pgPHT] } ∧
        ∀ n, ∃ u, exec (.loReadLatch p (regAddr pgPHT .plain 0x05C)) (t.elapse n) = .next u ∧
          u.answered p = ⟨stOk, hiWord s.theta⟩)

/-- O23. Indirect accesses (R139 to R141): on a slow page a granted access holds the port, so that no path is served there, and its
completion within the bound frees the port; a read of a fuse register returns the blown bits and steps IND_ADDR where it is told to; an
access that has waited for the port holds it from the ft after; on a page with an on-die space a read of PT_DEF is done at once; an access
that has not completed by the end of its bound ends TIMEOUT with 0 and PAGE_STAT.IND_ERR in the ft after (R148). -/
def Obligations.IndirectAccesses : Prop :=
  ∀ (p : Path) (pg : Nat) (al : Alias) (wr : Bool) (data : Word) (s : State),
    (pg ∈ [pgPWR, pgRTC, pgFUS] → s.early → s.gate p pg wr false = some stOk →
      ∃ t, exec (.indirectAccess p pg al wr data) s = .next (s.commit t) ∧
        t = ({ s with ports := [pg] } : State).setBusy pg (some ⟨p, al, wr, data, s.tick, .told⟩) ∧ ∀ q own, t.gate q pg wr own = none) ∧
    (∀ q since ofs, (Tbl.get (fun _ => none) s.busy pgFUS : Option IndOp) = some ⟨q, al, false, data, since, .told⟩ →
      s.tick ≤ since + 8000 → s.indAt q pgFUS = ofs → ofs ∈ [0x040, 0x044, 0x048, 0x04C, 0x050, 0x054, 0x058] →
      s.waiting = [] → s.fences = [] →
      ∃ t, exec (.indirectComplete pgFUS) s = .next (s.land t) ∧ (Tbl.get (fun _ => none) t.busy pgFUS : Option IndOp) = none ∧
        t.answered q = ⟨stOk, s.fuseReg ofs⟩ ∧
        (bit (s.indAddr q pgFUS) 31 = false → t.indAddr q pgFUS = s.indAddr q pgFUS) ∧
        (bit (s.indAddr q pgFUS) 31 = true →
          t.indAddr q pgFUS = setFld (s.indAddr q pgFUS) 0 24 (fld (s.indAddr q pgFUS) 0 24 + 4)) ∧
        t.regs = s.regs) ∧
    (∀ q since r, (Tbl.get (fun _ => none) s.busy pgFUS : Option IndOp) = some ⟨q, al, false, data, since, .told⟩ →
      s.tick ≤ since + 8000 → s.waiting = [r] → r.ia = none → slowTarget r.target = some (pgFUS, al) → s.fences = [] →
      (s.setBusy pgFUS none).gate r.path pgFUS r.write false = some stOk →
      ∃ t, exec (.indirectComplete pgFUS) s = .next (s.land t) ∧ t.waiting = [] ∧ t.tick = s.tick + 1 ∧
        (Tbl.get (fun _ => none) t.busy pgFUS : Option IndOp) = some ⟨r.path, al, r.write, r.data, s.tick + 1, r.cont⟩) ∧
    (∀ n, n < pointLimit s.small → s.early → s.gate p pgPTM false true = some stOk → s.ctxOf p = 0 → s.indAt p pgPTM = 32 * n →
      ∃ t, exec (.indirectAccess p pgPTM al false 0) s = .next (s.commit t) ∧ t.answered p = ⟨stOk, s.ind pgPTM (32 * n)⟩ ∧
        t.regs = s.regs ∧ t.busy = s.busy) ∧
    (∀ q since, pg ∈ [pgPWR, pgRTC, pgFUS] →
      (Tbl.get (fun _ => none) s.busy pg : Option IndOp) = some ⟨q, al, false, data, since, .told⟩ → s.waiting = [] → s.fences = [] →
      ∃ t, exec (.indirectTimeout pg) s = .next (s.land t) ∧ (Tbl.get (fun _ => none) t.busy pg : Option IndOp) = none ∧
        t.answered q = ⟨stTimeout, 0⟩ ∧ t.regBit pg 0x00C 1 = true ∧ t.tick = max s.tick (since + 8001) ∧
        ∀ k, k ≠ rkey pg 0x00C → keyPage k ≠ pgINT → t.getKey k = s.getKey k)

/-- O24. Shadows and snapshots (R133 to R137): a commit of a DALI or RS-485 page puts every shadow in force; a commit that SCN refuses
changes no register but PAGE_STAT, sets COMMIT_ERR and answers COMMIT_REFUSED; a discard reloads every shadow; SNAP of PTM copies every
counter to its holding register, clears it and counts SNAP_SEQ. -/
def Obligations.ShadowsAndSnapshots : Prop :=
  ∀ (p : Path) (pg : Nat) (s : State), s.early → s.gate p pg true false = some stOk →
    (0x20 ≤ pg → pg ≤ 0x27 → ∃ t, exec (.shadowCommit p pg) s = .next (s.commit t) ∧ t.answered p = ⟨stOk, 0⟩ ∧
      (∀ o ∈ shadowOfs pg, t.reg pg o = s.getShadow pg o) ∧
      (∀ k, (∀ o ∈ shadowOfs pg, k ≠ rkey pg o) → t.getKey k = s.getKey k) ∧
      t = { s with regs := t.regs, dirty := t.dirty, ridge := t.ridge, last := t.last, ports := [pg] }) ∧
    (pg = pgSCN → (s.applyShadows pgSCN (shadowOfs pgSCN)).classesOk = false →
      exec (.shadowCommit p pg) s = .next (s.commit (((s.turnAt pgSCN).setRegBit pgSCN 0x00C 3 true).answer p stCommitRefused 0))) ∧
    (pg ≠ pgRTC → ∃ t, exec (.shadowDiscard p pg) s = .next (s.commit t) ∧ t.answered p = ⟨stOk, 0⟩ ∧
      (∀ o ∈ shadowOfs pg, t.getShadow pg o = s.reg pg o) ∧ t = { s with shadow := t.shadow, last := t.last, ports := [pg] }) ∧
    (pg = pgPTM → ∃ t, exec (.snap p pg) s = .next (s.commit t) ∧ t.answered p = ⟨stOk, 0⟩ ∧
      (∀ i, i < 5 → t.reg pgPTM (0xC00 + 4 * i) = s.reg pgPTM (0x080 + 4 * i) ∧ t.reg pgPTM (0x080 + 4 * i) = 0) ∧
      t.reg pgPTM 0x01C = s.reg pgPTM 0x01C + 1 ∧ OnlyPages [pgPTM] { s with last := t.last, ports := [pg], snapAt := t.snapAt } t ∧
      Tbl.get (fun _ => none) t.snapAt pg = some s.tick)

/-- O25. FENCE ends when every earlier access of the path has ended, and until then stalls the path and changes nothing else (R146); a
word of an entry that is no effect word is held in the path's latch and changes no entry (R180); HWM_CLR of KEY and of PTM puts the marks
at the counts (R186). -/
def Obligations.FencesLatchesAndMarks : Prop :=
  ∀ (p : Path) (data : Word) (s : State), s.early →
    (s.pathPending p = true → s.pathLive p = true →
      exec (.fenceWrite p) s = .next (s.commit { s with fences := p :: s.fences }) ∧
      ({ s with fences := p :: s.fences } : State).pathLive p = false) ∧
    (s.pathPending p = false → s.gate p pgSYS true true = some stOk → Answers (.fenceWrite p) p pgSYS s stOk) ∧
    (∀ n, n < pointLimit s.small → s.gate p pgPTM true true = some stOk → s.mayForce (s.ctxOf p) n = true →
      ∃ t, exec (.entryLatchWrite p pgPTM .plain (32 * n + 8) data) s = .next (s.commit t) ∧
        t = { s with entry := t.entry, last := t.last, ports := [pgPTM] } ∧ t.answered p = ⟨stOk, 0⟩ ∧
        t.latchedWord p spPoint (ptAddr n) 8 0 = data) ∧
    (s.gate p pgKEY true false = some stOk →
      exec (.hwmClr p pgKEY data) s =
        let u := s.turnAt pgKEY
        .next (s.commit ((if bit data 0 then u.setReg pgKEY 0x04C (s.reg pgKEY 0x048) else u).answer p stOk 0))) ∧
    (s.gate p pgPTM true false = some stOk → ∃ t, exec (.hwmClr p pgPTM data) s = .next (s.commit t) ∧
      (∀ i, i < 4 → t.reg pgPTM (0x044 + 12 * i) =
        (if bit data i then s.reg pgPTM (0x040 + 12 * i) else s.reg pgPTM (0x044 + 12 * i))) ∧
      ∀ k, k ∉ [rkey pgPTM 0x044, rkey pgPTM 0x050, rkey pgPTM 0x05C, rkey pgPTM 0x068] → t.getKey k = s.getKey k)

/-- O26. A mirror request is executed as the mirror path of context 0 and answered; while the mirror is not open, or the module is not
alive, it leaves the state alone, and a request for the mirror's own registers is DENIED (R522). -/
def Obligations.MirrorRequests : Prop :=
  ∀ (req : Word) (wr : Bool) (addr data : Word) (s : State), s.closed ≠ some s.tick →
    ((s.alive = false ∨ s.mirrorOpen = false) → exec (.mirrorReq req wr addr data) s = .next (s.commit s)) ∧
    (s.alive = true → s.mirrorOpen = true →
      (mirrorOwn addr = true → exec (.mirrorReq req wr addr data) s = .next (s.commit (s.answer .mirror stDenied 0))) ∧
      (mirrorOwn addr = false →
        exec (.mirrorReq req true addr data) s = exec (.registerWrite .mirror addr data) s ∧
        exec (.mirrorReq req false addr data) s = exec (.readClear .mirror addr) s))

/-- O27. The service port (R144): a WRITE or READ frame is queued behind the waiting ones, or discarded with OVF at 16; FETCH returns the
result of the last READ once, else 0 with EARLY; STATUS returns the status word and clears its error bits; a bad frame sets FRAME_ERR; the
oldest queued access completes with its status, and a READ brings its value. Nothing outside the port changes but by that access. -/
def Obligations.ServicePort : Prop :=
  ∀ (a d : Word) (s : State), s.alive = true → s.spiEnabled = true →
    let x := s.spi
    (x.queue.length < 16 →
      (∃ t, exec (.spiWrite a d) s = .next (s.land t) ∧
        t = { s with spi := { x with miso := s.spiStatusWord, queue := x.queue ++ [⟨true, a, d⟩] } }) ∧
      (∃ t, exec (.spiRead a) s = .next (s.land t) ∧
        t = { s with spi := { x with miso := s.spiStatusWord, queue := x.queue ++ [⟨false, a, 0⟩] } })) ∧
    (16 ≤ x.queue.length →
      (∃ t, exec (.spiWrite a d) s = .next (s.land t) ∧ t = { s with spi := { x with miso := s.spiStatusWord, ovf := true } }) ∧
      (∃ t, exec (.spiRead a) s = .next (s.land t) ∧ t = { s with spi := { x with miso := s.spiStatusWord, ovf := true } })) ∧
    (∃ t, exec .spiFetch s = .next (s.land t) ∧
      t = { s with spi := if x.rdDone then { x with miso := x.rdata, rdDone := false } else { x with miso := 0, early := true } }) ∧
    (∃ t, exec .spiStatus s = .next (s.land t) ∧
      t = { s with spi := { x with miso := s.spiStatusWord, ovf := false, early := false, frameErr := false } }) ∧
    (∃ t, exec .spiBadFrame s = .next (s.land t) ∧ t = { s with spi := { x with frameErr := true } }) ∧
    (∀ op rest, x.queue = op :: rest → x.going = false → s.early → s.portBusy (targetPage (targetOf op.addr)) = false →
      s.presents .spi (targetOf op.addr) op.write = true → slowTarget (targetOf op.addr) = none →
      let v := if op.write then s.writeAt .spi (targetOf op.addr) op.data else s.readAt .spi (targetOf op.addr)
      ∃ t, exec .spiAccessComplete s = .next (s.commit t) ∧ t = v.spiDone ∧
        (v.spi = x → t.spi.queue = rest ∧ t.spi.lastStatus = (v.answered .spi).status ∧
          t.spi.rdata = (if op.write then x.rdata else (v.answered .spi).data) ∧ t.spi.rdDone = (x.rdDone || !op.write)))

/-! ### Interrupts, locks of paths, Cairn -/

/-- O28. Interrupt sources (R428 to R432): SWSET fires the named software sources and counts each; TAKE makes a delivered source ACTIVE
and DONE ends it, PENDING again where it fired meanwhile; a take that found nothing is TAKEN by a fire of its own ft (R431); a path that
the route does not name gets NOT_ROUTED, and one with nothing to take or complete NONE or NOT_ACTIVE; ROUTE refuses EVT, a bound source
and one that is not IDLE; a write of ENw takes effect at its instant, and a source delivered meanwhile and still deliverable is counted as
delivered once more. -/
def Obligations.InterruptSources : Prop :=
  ∀ (p : Path) (data : Word) (s : State),
    (s.mayWrite p pgINT →
      let n := fld data 0 7
      let tells := fun (c : Instr) (r : Nat) => exec c s = .next (s.commit (((s.turnAt pgINT).intResult (pathIdx p) r n).answer p stOk 0))
      let others := fun (t : State) =>
        OnlyPages [pgINT] { s with bank := t.bank, last := t.last, ports := [pgINT] } t ∧ t.answered p = ⟨stOk, 0⟩ ∧
        t.getBank (pathIdx p) (rkey pgINT 0x078) = word (256 * n) ∧
        ∀ m, m < 128 → m ≠ n → t.srcPend m = s.srcPend m ∧ t.srcActive m = s.srcActive m
      (s.consumes p n = false → tells (.take p data) 2 ∧ tells (.done p data) 2) ∧
      (s.consumes p n = true →
        (s.delivered n = false → Ends (.take p data) s fun t =>
          OnlyPages [] { s with bank := t.bank, last := t.last, ports := [pgINT] } t ∧ t.answered p = ⟨stOk, 0⟩ ∧
          t.getBank (pathIdx p) (rkey pgINT 0x078) = word (1 + 256 * n)) ∧
        (s.srcActive n = false → tells (.done p data) 3) ∧
        (s.delivered n = true → Ends (.take p data) s fun t => t.srcPend n = false ∧ t.srcActive n = true ∧ others t) ∧
        (s.srcActive n = true → Ends (.done p data) s fun t =>
          t.srcPend n = (s.srcPend n || (decide (n ≤ 52) && s.line n)) ∧ t.srcActive n = false ∧ others t)) ∧
      (s.intc.took = [] → Ends (.swset p data) s fun t =>
        (∀ i, i < 16 → t.srcPend (80 + i) = (s.srcPend (80 + i) || bit data i) ∧
          t.reg pgINT (0x340 + 4 * i) = s.reg pgINT (0x340 + 4 * i) + word (b2n (bit data i))) ∧
        (∀ m, m < 128 → m < 80 ∨ 96 ≤ m → t.srcPend m = s.srcPend m) ∧ (∀ m, m < 128 → t.srcActive m = s.srcActive m) ∧
        OnlyPages [pgINT] { s with last := t.last, ports := [pgINT] } t) ∧
      (∀ i q, i < 16 → q < 1024 → s.intc.took = [(some q, 80 + i)] → data = word (2 ^ i) → Ends (.swset p data) s fun t =>
        t.srcPend (80 + i) = false ∧ t.srcActive (80 + i) = true ∧
        t.getBank q (rkey pgINT 0x078) = word (256 * (80 + i))) ∧
      ∀ m, m < 128 →
        ((s.bindingOf m 64).isSome = true → Answers (.routeWrite p m data) p pgINT s stInUse) ∧
        (s.bindingOf m 64 = none →
          (fld data 0 2 = 2 → Answers (.routeWrite p m data) p pgINT s stInvalid) ∧
          (fld data 0 2 ≠ 2 →
            (s.srcPend m = true ∨ s.srcActive m = true → Answers (.routeWrite p m data) p pgINT s stInUse) ∧
            (s.srcPend m = false → s.srcActive m = false →
              exec (.routeWrite p m data) s = .next (s.commit (((s.turnAt pgINT).setReg pgINT (routeOfs m) (data &&& 3)).answer p stOk 0)))))) ∧
    (∀ at_ w v rest, s.intc.writes = (at_, w, v) :: rest → w < 4 → s.intc.rise = [] →
      Lands .enEffect s fun t =>
        t.tick = max s.tick at_ ∧ t.intc.writes = rest ∧ Tbl.get (fun _ => 0) t.intc.en w = v ∧
        (∀ x, x ≠ w → Tbl.get (fun _ => 0) t.intc.en x = Tbl.get (fun _ => 0) s.intc.en x) ∧
        t.reg pgINT 0x404 = s.reg pgINT 0x404 + word (s.intc.seen.filter fun n => n / 32 = w && t.delivered n).length ∧
        t = { s with regs := t.regs, dirty := t.dirty, intc := t.intc, tick := t.tick, ridge := t.ridge, ports := t.ports } ∧
        ∀ k, k ≠ rkey pgINT 0x404 → t.getKey k = s.getKey k)

/-- O29. Locks outside programs (R212 to R218, R227): a path's request is decided at once, DENIED for a lock of another context or beyond
the variant, ORDER at or below a lock that the path holds, BUSY where it is held or queued, else GRANTED or GRANTED_LOST; a release by the
holder frees it, by another gets NOT_HELD; holds that have outlasted HOLD_MAX expire before either (R217); the ft after a release the head
of the queue is granted the lock; a deadline ends a queued request with TIMEOUT; a hold past HOLD_MAX breaks the lock; LOCK_CFGn refuses a
change of CTX of a lock that a loaded program names. -/
def Obligations.LocksOutsidePrograms : Prop :=
  ∀ (p : Path) (data : Word) (s : State),
    (s.mayWrite p pgLCK true →
      let n := fld data 0 8
      let u := (s.turnAt pgLCK).expireHolds s.overdue
      let k := u.lock n
      let tells := fun (c : Instr) (r : Nat) => exec c s = .next (s.commit ((u.lockResult p r n).1.answer p stOk 0))
      let result := fun (t : State) (r : Nat) => t.getBank (pathIdx p) (dkey pgLCK 0x050) = word (r + 16 * n)
      let foreign := lockLimit s.small ≤ n ∨ u.ctxOf p ≠ 0 ∧ u.lockCtx n ≠ u.ctxOf p
      (s.overdue = [] → u = { s with ports := [pgLCK] }) ∧
      (foreign → tells (.pathAcq p data) lrDenied) ∧
      (¬ foreign →
        (u.breaksOrder 2 (pathIdx p) n = true → Ends (.pathAcq p data) s fun t =>
          result t lrOrder ∧ t.locks = u.locks ∧ t.reg pgLCK 0x088 = u.reg pgLCK 0x088 + 1 ∧ t.regBit pgLCK 0x010 1 = true ∧
          OnlyPages [pgLCK] { u with bank := t.bank, last := t.last } t) ∧
        (u.breaksOrder 2 (pathIdx p) n = false → u.lockTaken n = true → tells (.pathAcq p data) lrBusy) ∧
        (u.breaksOrder 2 (pathIdx p) n = false → u.lockTaken n = false → Ends (.pathAcq p data) s fun t =>
          result t (if k.state = lkBroken then lrLost else lrGranted) ∧
          t.lock n = { k with state := lkHeld, kind := 2, holder := pathIdx p, lane := 0, since := u.tick, freed := none } ∧
          (∀ m, m ≠ n → t.lock m = u.lock m) ∧ t.reg pgLCK 0x080 = u.reg pgLCK 0x080 + 1 ∧
          OnlyPages [pgLCK] { u with bank := t.bank, last := t.last, locks := t.locks } t)) ∧
      (k.state = lkHeld → k.kind = 2 → k.holder = pathIdx p → Ends (.pathRel p data) s fun t =>
        result t lrGranted ∧ t.lock n = { k with state := lkFree, kind := 0, holder := 0, lane := 0, freed := some u.tick } ∧
        (∀ m, m ≠ n → t.lock m = u.lock m) ∧ t = { u with bank := t.bank, last := t.last, locks := t.locks }) ∧
      (¬ (k.state = lkHeld ∧ k.kind = 2 ∧ k.holder = pathIdx p) → tells (.pathRel p data) lrNotHeld)) ∧
    (∀ n l rest w, l < 8 → (s.lock n).queue = l :: rest → (s.lock n).state ≠ lkHeld → (s.lane l).wait = some w → w.lock = n →
      Lands (.lockQueueGrant n) s fun t =>
        t.tick = max s.tick (match (s.lock n).freed with | some x => x + 1 | none => 0) ∧
        t.lane l = (({ s.lane l with wait := none } : Lane).setG (BitVec.ofNat 5 w.d) (if (s.lock n).state = lkBroken then 1 else 0)).next ∧
        t.lock n = { s.lock n with state := lkHeld, kind := 1, holder := (s.lane l).slot, lane := l, since := t.tick, freed := none,
                                   queue := rest.filter (· ≠ l) } ∧
        (∀ m, m ≠ n → t.lock m = s.lock m) ∧ (∀ m, m ≠ l → t.lane m = s.lane m) ∧
        t.reg pgLCK 0x084 = s.reg pgLCK 0x084 + 1) ∧
    (∀ l w d, l < 8 → (s.lane l).wait = some w → w.deadline = some d → (s.lock w.lock).state = lkHeld →
      Lands (.lockTimeout l) s fun t =>
        t.tick = max s.tick d ∧ t.lane l = (({ s.lane l with wait := none } : Lane).setG (BitVec.ofNat 5 w.d) 3).next ∧
        t.lock w.lock = { s.lock w.lock with queue := (s.lock w.lock).queue.filter (· ≠ l) } ∧
        (∀ m, m ≠ w.lock → t.lock m = s.lock m) ∧ (∀ m, m ≠ l → t.lane m = s.lane m) ∧
        t.reg pgLCK 0x08C = s.reg pgLCK 0x08C + 1 ∧ t.regBit (pgSCL l) 0x010 2 = true) ∧
    (∀ n, (s.lock n).state = lkHeld →
      ((s.lock n).kind = 2 → Lands (.lockHoldExpiry n) s fun t =>
        t.tick = max s.tick ((s.lock n).since + s.holdMax n + 1) ∧
        t.lock n = { s.lock n with state := lkBroken, kind := 0, holder := 0, lane := 0, freed := some t.tick } ∧
        (∀ m, m ≠ n → t.lock m = s.lock m) ∧ t.lanes = s.lanes ∧ t.reg pgLCK 0x090 = s.reg pgLCK 0x090 + 1 ∧
        t.reg pgLCK 0x094 = s.reg pgLCK 0x094 + 1 ∧ t.regBit pgLCK 0x010 3 = true) ∧
      ((s.lock n).kind = 1 → Lands (.lockHoldExpiry n) s fun t =>
        (t.lock n).state = lkBroken ∧ (t.lane (s.lock n).lane).running = false ∧
        t.regFld pgSCN 0x0D0 0 8 = cfHold ∧ t.reg pgLCK 0x094 = s.reg pgLCK 0x094 + 1)) ∧
    (∀ n, n < 256 → s.mayWrite p pgLCK →
      let w := settled pgLCK 0x800 lockCfgRow .plain 0 data
      let named := s.progs.any fun e => e.2.namesLock n
      let tooLong := s.progs.any fun e => e.2.spans.any fun x => x.1 = n && fld w 0 23 < x.2
      (lockLimit s.small ≤ n → Answers (.lockCfgWrite p n data) p pgLCK s stOk) ∧
      (n < lockLimit s.small →
        (fld w 23 9 ≠ s.lockCtx n → named = true → Answers (.lockCfgWrite p n data) p pgLCK s stInUse) ∧
        (fld w 23 9 = s.lockCtx n ∨ named = false → tooLong = true → Answers (.lockCfgWrite p n data) p pgLCK s stBudget) ∧
        (fld w 23 9 = s.lockCtx n ∨ named = false → tooLong = false → Ends (.lockCfgWrite p n data) s fun t =>
          t.reg pgLCK (0x800 + 4 * n) = w ∧ t.answered p = ⟨stOk, 0⟩ ∧
          ∀ k, k ≠ rkey pgLCK (0x800 + 4 * n) → k ≠ rkey pgLCK 0x00C → t.getKey k = s.getKey k)))

/-- O30. Cairn (R453 to R460): the oldest buffered record is written at TAIL, which moves behind it, and stays in the buffer while the log
is frozen; the hourly MARK enters the write buffer; a FREEZE write freezes the log, and its end, by a write or after FREEZE_MAX, empties
the queue and the buffer; a release moves HEAD to a record boundary and is refused with INVALID elsewhere; QUOTA_c is refused with INVALID
for a FREE context, CAPACITY past the sum, IN_USE below USED_c. -/
def Obligations.CairnCommands : Prop :=
  ∀ (p : Path) (data : Word) (s : State),
    (∀ r rest, s.cairn.buffer = r :: rest → s.crnFits r = true →
      let tail := (s.reg pgCRN 0x050).toNat
      (s.crnFrozen = true → exec .recordWritten s = .next (s.land s)) ∧
      (s.crnFrozen = false → tail + r.bytes ≤ cairnBytes s.small → Lands .recordWritten s fun t =>
        t.cairn.buffer = rest ∧ t.cairn.lastRec = some (tail, r) ∧
        (∀ i, i < r.image.length → (Tbl.get (fun _ => 0) t.cairn.mram (tail + i) : Byte) = r.image[i]?.getD 0) ∧
        (∀ a, a < tail ∨ tail + r.image.length ≤ a →
          (Tbl.get (fun _ => 0) t.cairn.mram a : Byte) = Tbl.get (fun _ => 0) s.cairn.mram a) ∧
        t.reg pgCRN 0x050 = word ((tail + r.bytes) % cairnBytes s.small) ∧
        t.reg pgCRN 0x054 = s.reg pgCRN 0x054 + word r.bytes ∧ OnlyPages [pgCRN] s t)) ∧
    (s.cairn.marked = true → s.crnFrozen = false → s.cairn.buffer.length < 256 → s.cairn.reserve + 32 ≤ reserveBytes →
      Lands .hourlyMark s fun t =>
      t.tick = max s.tick (s.cairn.nextHour * 3600 * ftPerS) ∧ t.cairn.nextHour = s.cairn.nextHour + 1 ∧
      t.cairn.buffer = s.cairn.buffer ++ [⟨2, 0, 0, s.reg pgPHT 0x050, t.tick, s.markBody markHourly, 0, 0, 0⟩] ∧
      t.cairn.reserve = s.cairn.reserve + 32 ∧ t.reg pgCRN 0x084 = s.reg pgCRN 0x084 + 1) ∧
    (s.mayWrite p pgCRN →
      (Ends (.cairnFreeze p data) s fun t =>
        t.crnFrozen = true ∧ t.regBit pgCRN 0x040 0 = true ∧ t.cairn.buffer = s.cairn.buffer ∧ t.cairn.queue = s.cairn.queue ∧
        t.cairn.frozenAt = (if s.crnFrozen then s.cairn.frozenAt else s.tick) ∧ t.answered p = ⟨stOk, 0⟩ ∧
        OnlyPages [pgCRN] { s with last := t.last, ports := [pgCRN] } t) ∧
      (s.crnFrozen = true → Ends (.cairnUnfreeze p data) s fun t =>
        t.crnFrozen = false ∧ t.cairn.buffer = [] ∧ t.cairn.queue = [] ∧ t.answered p = ⟨stOk, 0⟩ ∧
        t.reg pgCRN 0x090 = s.reg pgCRN 0x090 + word s.cairn.queue.length ∧
        OnlyPages [pgCRN] { s with last := t.last, ports := [pgCRN] } t) ∧
      (let used := (s.reg pgCRN 0x054).toNat
       let head := (s.reg pgCRN 0x04C).toNat
       let n := 16 * (fld (s.crnHead head) 0 4 + 1)
       let isBoundary := s.crnBoundary data.toNat (used / 16 + 1) head used
       (isBoundary = false → Answers (.cairnRelease p data) p pgCRN s stInvalid) ∧
       (isBoundary = true → Ends (.cairnRelease p data) s fun t =>
         t.reg pgCRN 0x04C = data ∧ t.cairn.mram = s.cairn.mram ∧ t.answered p = ⟨stOk, 0⟩ ∧
         (data.toNat = head → t.reg pgCRN 0x054 = s.reg pgCRN 0x054) ∧
         (data.toNat ≠ head → data.toNat = (head + n) % cairnBytes s.small →
           t.reg pgCRN 0x054 = s.reg pgCRN 0x054 - word n) ∧
         OnlyPages [pgCRN] { s with last := t.last, ports := [pgCRN] } t)) ∧
      ∀ c, c < 512 →
        let q := fld data 0 13
        let sum := (s.reg pgCRN 0x068).toNat - fld (s.ind pgCRN (16 * c)) 0 13 + q
        (s.ctxState c = 0 → Answers (.quotaWrite p c data) p pgCRN s stInvalid) ∧
        (s.ctxState c ≠ 0 →
          (cairnBytes s.small - 16384 < 256 * sum → Answers (.quotaWrite p c data) p pgCRN s stCapacity) ∧
          (256 * sum ≤ cairnBytes s.small - 16384 →
            (256 * q < (s.ind pgCRN (16 * c + 4)).toNat → Answers (.quotaWrite p c data) p pgCRN s stInUse) ∧
            ((s.ind pgCRN (16 * c + 4)).toNat ≤ 256 * q → exec (.quotaWrite p c data) s =
              .next (s.commit ((((s.turnAt pgCRN).setInd pgCRN (16 * c) (word q)).setReg pgCRN 0x068 (word sum)).answer p stOk 0)))))) ∧
    (s.crnFrozen = true → Lands .freezeMaxExpiry s fun t =>
      t.crnFrozen = false ∧ t.cairn.buffer = [] ∧ t.cairn.queue = [] ∧ t.regBit pgCRN 0x044 8 = true ∧
      t.regBit pgCRN 0x010 3 = true ∧ t.tick = max s.tick (s.cairn.frozenAt + s.regFld pgCRN 0x040 8 8 * ftPerS) ∧
      t.cairn.frozenAt = s.cairn.frozenAt)

/-! ### Power, starts and module faults -/

/-- O31. Power (R76, R77, R79 to R87): START ends at V_START with mains good; READY sets from 5.30 V and clears below 5.00 V; CAP_WARN
follows the capacitance, measured in a start and every 24 h in NORMAL; the front end is in OVERTEMP above 105 °C until below 95 °C; a
stage is shed in RIDE behind the arrivals of its delay's ft, the stages before it first; PF_HC values below PF_VOLTS, or the 12 V rail,
make a decision, which in NORMAL enters RIDE, is counted and stamped, and in START sheds every stage; at V_SAVE in RIDE every load is shed
and the save of a power failure starts; below V_MIN the module has no power. -/
def Obligations.PowerCommands : Prop :=
  ∀ s : State,
    let later := fun (t : State) => ({ s with tick := t.tick, ridge := t.ridge, ports := t.ports, power := t.power } : State)
    (s.pwrState ≠ pwStart → exec .vStartReached s = .next (s.land s)) ∧
    (s.pwrState = pwStart → Lands .vStartReached s fun t =>
      t.pwrState = (if s.power.mainsGood then pwNormal else pwStart) ∧ t.storeOf 3600 ≤ t.storeNow ∧ s.tick ≤ t.tick ∧
      OnlyPages [pgPWR, pgINT] (later t) t) ∧
    (∀ mV, Lands (.vReadyCrossing mV) s fun t =>
      t.regFld pgPWR 0x050 0 14 = min mV 16383 ∧
      t.regBit pgPWR 0x050 16 = (if 5300 ≤ mV then true else if mV < 5000 then false else s.regBit pgPWR 0x050 16) ∧
      (t.regBit pgPWR 0x050 16 ≠ s.regBit pgPWR 0x050 16 → t.regBit pgPWR 0x010 3 = true) ∧
      OnlyPages [pgPWR] { s with power := t.power } t) ∧
    (∀ mF,
      let measured := fun (t : State) =>
        t.reg pgPWR 0x054 = word (min mF 65535) ∧ (t.regBit pgPWR 0x050 17 = true ↔ mF < 1350) ∧
        (mF < 1350 → s.regBit pgPWR 0x050 17 = false → t.regBit pgPWR 0x010 3 = true) ∧ t.power.capDone = true ∧
        t.power.capAt = t.tick ∧ OnlyPages [pgPWR, pgINT] (later t) t
      (s.power.powered = false ∨ s.power.pf = true ∨ s.saving = true → exec (.holdupCapMeasure mF) s = .next (s.land s)) ∧
      (s.power.powered = true → s.power.pf = false → s.saving = false →
        (s.power.capDone = true → s.pwrState = pwNormal → Lands (.holdupCapMeasure mF) s fun t =>
          measured t ∧ t.tick = max s.tick (s.power.capAt + 86400 * ftPerS)) ∧
        (s.power.capDone = false → (s.until (s.storeTick 5300)).storeOf 5300 ≤ (s.until (s.storeTick 5300)).storeNow →
          Lands (.holdupCapMeasure mF) s fun t => measured t ∧ t.tick = max s.tick (s.storeTick 5300)))) ∧
    (∀ temp, Lands (.frontEndOvertemp temp) s fun t =>
      t.reg pgPWR 0x07C = word (wrapInt 16 temp) ∧
      t.regBit pgPWR 0x05C 8 = (if 1050 < temp then true else if temp < 950 then false else s.regBit pgPWR 0x05C 8) ∧
      (1050 < temp → s.regBit pgPWR 0x05C 8 = false → t.regBit pgPWR 0x050 18 = false ∧ t.regBit pgPWR 0x010 4 = true) ∧
      OnlyPages [pgPWR] { s with power := t.power } t) ∧
    (∀ stage, 1 ≤ stage → stage ≤ 3 →
      (s.pwrState ≠ pwRide ∨ s.regBit pgPWR 0x048 0 = false → exec (.shedStage stage) s = .next (s.land s)) ∧
      (s.pwrState = pwRide → s.regBit pgPWR 0x048 0 = true →
        (Lands (.shedStage stage) s fun t => ∀ j, 1 ≤ j → j ≤ stage → t.regBit pgPWR 0x04C (j - 1) = true) ∧
        ((∀ j, 1 ≤ j → j < stage → s.regBit pgPWR 0x04C (j - 1) = true) → s.regBit pgPWR 0x04C (stage - 1) = false →
          Lands (.shedStage stage) s fun t =>
            t.tick = max s.tick (s.power.decidedAt + s.shedDelay stage + 1) ∧ t.regBit pgPWR 0x04C (stage - 1) = true ∧
            t.regBit pgPWR 0x010 2 = true ∧ (stage = 1 → ∀ ch ∈ [6, 7, 8, 9], (t.busCh ch).shed = true) ∧
            (stage = 2 → t.bus = s.bus) ∧ (stage = 3 → ∀ ch ∈ [10, 11, 12, 13], (t.busCh ch).shed = true)))) ∧
    (s.power.pf = false ∨ s.power.powered = false ∨ s.saving = true → exec .vSaveReached s = .next (s.land s)) ∧
    (s.power.pf = true → s.power.powered = true → s.saving = false →
      (s.pwrState ≠ pwRide → Lands .vSaveReached s fun t =>
        t.pwrState = s.pwrState ∧ t.tick = max s.tick (s.storeTick 3050 + 1) ∧ OnlyPages [pgPWR, pgINT] (later t) t) ∧
      (s.pwrState = pwRide → s.sys.fault = 0 → Lands .vSaveReached s fun t =>
        t.pwrState = pwSave ∧ t.sysState = ssSave ∧ t.sys.saveCause = 1 ∧ t.scan.cycle = none ∧
        (∀ k, k < 4 → t.regBit pgPWR 0x04C k = true) ∧
        ∃ r, t.sys.draft = some r ∧ r.cause = 1 ∧ r.complete = false ∧ r.consumed = false)) ∧
    (∀ byRms by12V rms mV,
      let u := if byRms then s.countValue rms else s
      let full := byRms && u.railsLow
      (byRms = true → u.reg pgPWR 0x058 = word (min rms 65535) ∧
        u.power.low = (if rms < 10 * s.regFld pgPWR 0x044 0 8 then min (s.power.low + 1) 15 else 0)) ∧
      (s.power.powered = false ∨ s.power.pf = true → exec (.powerFailDecision byRms by12V rms mV) s = .next (s.land s)) ∧
      (s.power.powered = true → s.power.pf = false → full = false → by12V = false →
        exec (.powerFailDecision byRms by12V rms mV) s = .next (s.land u)) ∧
      (s.power.powered = true → s.power.pf = false → full = true ∨ by12V = true →
        (s.pwrState = pwNormal → 3050 < mV → Lands (.powerFailDecision byRms by12V rms mV) s fun t =>
          t.pwrState = pwRide ∧ t.power.mainsGood = false ∧ t.power.pf = true ∧ t.power.decidedAt = s.tick ∧ t.power.byRail = !full ∧
          t.reg pgPWR 0x058 = u.reg pgPWR 0x058 ∧ t.reg pgPWR 0x068 = s.reg pgPWR 0x068 + 1 ∧
          t.reg pgPWR 0x074 = s.reg pgPHT 0x050 ∧ t.regBit pgPWR 0x010 0 = true ∧ t.sysState = s.sysState ∧ t.tick = s.tick) ∧
        (s.pwrState = pwStart → Lands (.powerFailDecision byRms by12V rms mV) s fun t =>
          t.pwrState = pwStart ∧ t.power.mainsGood = false ∧ t.reg pgPWR 0x068 = s.reg pgPWR 0x068 + 1 ∧
          t.regBit pgPWR 0x04C 0 = true ∧ t.regBit pgPWR 0x04C 1 = true ∧ t.regBit pgPWR 0x04C 2 = true))) ∧
    (s.pwrState = pwRide → exec .vMinReached s = exec .vSaveReached s) ∧
    (s.pwrState ≠ pwRide → s.storeFeeds = false ∨ s.pwrState = pwSave ∨ s.sysState = ssSave → exec .vMinReached s = .next (s.land s)) ∧
    (s.pwrState ≠ pwRide → s.storeFeeds = true → s.pwrState ≠ pwSave → s.sysState ≠ ssSave → Lands .vMinReached s fun t =>
      t.power.powered = false ∧ t.power.mainsGood = false ∧ t.sys.released = false ∧ t.pwrState = pwStart ∧ t.alive = false ∧
      t.scan.cycle = none)

/-- O32. Starts (R73, R85, R530 to R534, R542, R544, R547): mains at an unpowered module and after DOWN, recovered rails and clock start it
through a power-on reset, a system reset, the supervisor's watchdog and the end of a save through a system reset, which keeps the tick and
Ridgeline; where its condition does not hold, the event changes nothing (log entry 3). -/
def Obligations.Starts : Prop :=
  ∀ (b : BootFacts) (s : State),
    (s.power.powered = false → s.pwrState ≠ pwDown → Lands (.mainsApplied b) s fun t =>
      StartedAs s t 1 ∧ t.power.powered = true ∧ t.power.mainsGood = false ∧ t.pwrState = pwStart) ∧
    (s.power.powered = true → s.sys.released = true → exec (.mainsApplied b) s = .next (s.land s)) ∧
    (s.pwrState = pwDown → Lands (.mainsGoodInDown b) s fun t =>
      StartedAs s t 1 ∧ t.power.powered = true ∧ t.power.mainsGood = true ∧ t.regBit pgPWR 0x010 1 = true) ∧
    (s.pwrState ≠ pwDown → exec (.mainsGoodInDown b) s = .next (s.land s)) ∧
    (∀ cause, s.alive = true → 4 ≤ cause → cause ≤ 7 → s.saving = false → s.sysState ≠ ssHalted ∨ cause = 4 ∨ cause = 6 →
      Lands (.systemReset cause b) s fun t =>
        StartedAs s t cause ∧ t.power = { s.power with store := t.power.store, storeAt := t.power.storeAt }) ∧
    (∀ cause, s.alive = false ∨ s.saving = true ∨ (s.sysState = ssHalted ∧ (cause = 5 ∨ cause = 7)) →
      exec (.systemReset cause b) s = .next (s.land s)) ∧
    (s.sys.held = 2 → Lands (.railRecovered b) s fun t => StartedAs s t 2) ∧
    (s.sys.held ≠ 2 → exec (.railRecovered b) s = .next (s.land s)) ∧
    (s.sys.held = 3 → Lands (.clockRecovered b) s fun t => StartedAs s t 3) ∧
    (s.sys.held ≠ 3 → exec (.clockRecovered b) s = .next (s.land s)) ∧
    (let u := s.expire (s.sys.resetAt + 200000000)
     s.alive = true →
      (s.saving = false → Lands (.supervisorWatchdogExpiry b) s fun t =>
        StartedAs { u with sys := { u.sys with fault := 4 } } t 4 ∧ t.tick = max s.tick (s.sys.resetAt + 200000001)) ∧
      (s.saving = true → Lands (.supervisorWatchdogExpiry b) s fun t =>
        t.sys.fault = 4 ∧ t.sysState = ssSave ∧ t.sys.saveCause = (if s.pwrState = pwSave then s.sys.saveCause else 4) ∧
        t.reg pgSYS 0x110 = s.reg pgSYS 0x110 + 1)) ∧
    (∀ tenths, s.saving = true → s.pwrState ≠ pwSave → 4 ≤ s.sys.saveCause →
      Lands (.saveComplete tenths b) s fun t => StartedAs s t s.sys.saveCause) ∧
    (∀ tenths, s.pwrState = pwSave → s.power.mainsGood = true →
      Lands (.saveComplete tenths b) s fun t => StartedAs s t 1) ∧
    (∀ tenths r, s.pwrState = pwSave → s.power.mainsGood = false → s.sys.fault = 0 → s.sys.draft = some r → s.sys.restart = 0 →
      Lands (.saveComplete tenths b) s fun t =>
        t.pwrState = pwDown ∧ t.power.powered = false ∧ t.sys.released = false ∧ t.sys.save = some { r with complete := true } ∧
        t.sys.draft = none ∧ t.reg pgSYS 0x070 = word r.seq ∧ t.regBit pgPWR 0x080 0 = true)

/-- O33. Module faults (R73, R537 to R541, R544, R547): rails out of tolerance and a failed clock raise their fault and hold the module in
reset; a fault of the supervisor's software ends all work in progress and records and counts it; the fault delay ends in a system reset, or
in HALTED at the limit; a restart by software starts its save, and every other value of SYS.RESTART is refused; a hand-over that finds no
acknowledgement in time is given up. -/
def Obligations.ModuleFaults : Prop :=
  ∀ (b : BootFacts) (s : State),
    let raised := fun (t : State) (code : Nat) =>
      t.sys.fault = code ∧ t.sys.faultAt = s.tick ∧ t.scan.cycle = none ∧ (∀ l, (t.lane l).running = false) ∧ t.sysState = ssFault ∧
      t.regFld pgSYS 0x058 0 8 = code ∧ t.regBit pgSYS 0x058 8 = true ∧ t.reg pgSYS 0x064 = s.reg pgPHT 0x050 ∧
      t.reg pgSYS 0x10C = s.reg pgSYS 0x10C + 1 ∧ t.points.val = s.points.val ∧ t.sram = s.sram ∧ t.tick = s.tick
    (s.alive = false → exec .supervisorConsistencyFault s = .next (s.land s)) ∧
    (s.alive = true → Lands .supervisorConsistencyFault s fun t => raised t 7 ∧ t.sys.held = s.sys.held) ∧
    (∀ rails : BitVec 3,
      (s.alive = false ∨ rails = 0 → exec (.railOutOfTolerance rails) s = .next (s.land s)) ∧
      (s.alive = true → rails ≠ 0 → Lands (.railOutOfTolerance rails) s fun t =>
        raised t 5 ∧ t.sys.held = 2 ∧ t.alive = false ∧ t.sys.released = false ∧ t.ridge = {} ∧
        t.regFld pgPWR 0x05C 0 3 = rails.toNat)) ∧
    (s.alive = false → exec .clockFailure s = .next (s.land s)) ∧
    (s.alive = true → Lands .clockFailure s fun t => raised t 6 ∧ t.sys.held = 3 ∧ t.alive = false ∧ t.sys.released = false ∧
      t.ridge = {}) ∧
    (let due := s.sys.faultAt + s.regFld pgSYS 0x054 8 8 * 10 * ftPerMs
     s.alive = true → s.sys.fault ≠ 0 → s.sysState = ssFault → s.regBit pgSYS 0x054 0 = false → s.faultSaveDue = false →
      s.pwrState ≠ pwSave →
        (s.regFld pgSYS 0x058 12 4 < s.regFld pgSYS 0x054 16 4 → Lands (.faultDelayExpiry b) s fun t =>
          StartedAs (s.until due) t 5 ∧ t.tick = max s.tick due) ∧
        (s.regFld pgSYS 0x054 16 4 ≤ s.regFld pgSYS 0x058 12 4 → s.onTrial = false → Lands (.faultDelayExpiry b) s fun t =>
          t.sysState = ssHalted ∧ t.sys.fault = s.sys.fault ∧ t.tick = max s.tick due ∧ t.regBit pgSYS 0x010 3 = true ∧
          t.reg pgSYS 0x114 = s.reg pgSYS 0x114 + 1)) ∧
    (∀ (p : Path) (data : Word), s.mayWrite p pgSYS →
      let valid := fld data 16 16 = 0x5253 ∧ (fld data 0 2 = 1 ∨ fld data 0 2 = 2)
      (¬ valid → Answers (.sysRestart p data) p pgSYS s stInvalid) ∧
      (valid → s.faultSaveDue = false → s.saving = false →
        (s.handsOver = false → Ends (.sysRestart p data) s fun t =>
          t.sysState = ssSave ∧ t.sys.saveCause = 6 ∧ t.sys.restart = fld data 0 2 ∧ t.scan.cycle = none ∧
          (∃ r, t.sys.draft = some r ∧ r.cause = 6 ∧ r.complete = false ∧ (fld data 0 2 = 2 → r.warmOk = false)) ∧
          t.answered p = ⟨stOk, 0⟩) ∧
        (s.handsOver = true → Ends (.sysRestart p data) s fun t =>
          t.pair.wish = 2 ∧ t.pair.wishAt = s.tick ∧ t.sys.restart = fld data 0 2 ∧ t.sysState = s.sysState ∧
          t = { s with sys := t.sys, pair := t.pair, last := t.last, ports := [pgSYS] }))) ∧
    (s.pair.wish = 0 ∨ s.pair.flagged = true → exec .handoverTimeout s = .next (s.land s)) ∧
    (s.pair.wish = 1 → s.pair.flagged = false → Lands .handoverTimeout s fun t =>
      t.pair = { s.pair with wish := 0 } ∧ t.tick = max s.tick (s.pair.wishAt + ftPerS + 1) ∧
      OnlyPages [pgINT] { s with pair := t.pair, tick := t.tick, ridge := t.ridge, ports := t.ports } t) ∧
    (s.pair.wish = 2 → s.pair.flagged = false → Lands .handoverTimeout s fun t =>
      t.sysState = ssSave ∧ t.sys.saveCause = s.sys.restartCause ∧ t.pair.wish = 0)

/-! ### Ridgeline and turns -/

/-- O34. Zero crossings (R95 to R101, R105): a passage of the selected reference that is no valid crossing, and one that a change of
reference has overtaken, change nothing; in LOCK and SLEW a crossing outside the window is rejected and counted; one inside it becomes the
last valid crossing, and the rate or the state follows its error; in SEEK and HOLD valid crossings are counted, one that breaks the
conditions restarts the count, and the last of a sound qualification before the first LOCK enters LOCK with CYCLE 0. The tracker takes its
registers as they stood at the start of the ft (R129). That the rate is rounded to nearest is log entry 9. -/
def Obligations.ZeroCrossings : Prop :=
  ∀ (l1 l2 l3 n1 : Passage) (s : State),
    let x := s.crossing (match s.regFld pgPHT 0x078 0 2 with | 0 => l1 | 1 => l2 | _ => l3)
    (x = none → exec (.zeroCrossingEvaluation l1 l2 l3 n1) s = .next (s.land s)) ∧
    ∀ stamp, x = some stamp →
      let u := s.until (stamp + 64)
      let per := Frac.sub (Frac.ofNat stamp) (Frac.sub s.ridge.pred s.ridge.tm)
      let e := u.phaseErr (u.tick - stamp)
      let inside := Frac.le (Frac.abs (Frac.sub (Frac.ofNat stamp) s.ridge.pred)) u.window && periodLegal per
      let n := u.sampledFld pgPHT 0x07C 0 4
      let accepted := fun (t : State) =>
        t.ridge.lastValid = some stamp ∧ t.ridge.misses = 0 ∧ t.ridge.tm = Frac.mean ((per :: s.ridge.periods).take 4) ∧
        t.reg pgPHT 0x0A0 = s.reg pgPHT 0x0A0 + 1 ∧ t.reg pgPHT 0x070 = word (wrapInt 32 e) ∧ t.ridge.acc = u.ridge.acc ∧
        t.tick = stamp + 64
      (s.ridge.refAt.any (stamp ≤ ·) = true → exec (.zeroCrossingEvaluation l1 l2 l3 n1) s = .next (s.land s)) ∧
      (s.ridge.refAt.any (stamp ≤ ·) = false →
        (s.tracking = true → inside = false → Lands (.zeroCrossingEvaluation l1 l2 l3 n1) s fun t =>
          t.ridge = u.ridge ∧ t.reg pgPHT 0x0A8 = s.reg pgPHT 0x0A8 + 1 ∧ t.regBit pgPHT 0x010 6 = true ∧ t.rate = s.rate ∧
          t.phtState = s.phtState ∧ t.tick = stamp + 64) ∧
        (s.phtState = stLock → inside = true → e.natAbs ≤ u.slewTh → Lands (.zeroCrossingEvaluation l1 l2 l3 n1) s fun t =>
          accepted t ∧ t.phtState = stLock ∧ t.rate = t.lockRate e % 2 ^ 64) ∧
        (s.phtState = stLock → inside = true → u.slewTh < e.natAbs → Lands (.zeroCrossingEvaluation l1 l2 l3 n1) s fun t =>
          accepted t ∧ t.phtState = stSlew ∧ t.regFld pgPHT 0x040 2 2 = 1 ∧ t.reg pgPHT 0x0B0 = s.reg pgPHT 0x0B0 + 1 ∧
          t.regBit pgPHT 0x010 0 = true ∧ t.rate = t.slewRate e % 2 ^ 64) ∧
        (s.phtState = stSlew → inside = true → e.natAbs ≤ u.lockTh → Lands (.zeroCrossingEvaluation l1 l2 l3 n1) s fun t =>
          accepted t ∧ t.phtState = stLock ∧ t.rate = t.ridge.rm % 2 ^ 64) ∧
        (s.phtState = stSlew → inside = true → u.lockTh < e.natAbs → Lands (.zeroCrossingEvaluation l1 l2 l3 n1) s fun t =>
          accepted t ∧ t.phtState = stSlew ∧ t.rate = t.slewRate e % 2 ^ 64) ∧
        (s.tracking = false → s.ridge.qual = [] → 1 < n → Lands (.zeroCrossingEvaluation l1 l2 l3 n1) s fun t =>
          t.ridge.qual = [stamp] ∧ t.ridge.lastValid = some stamp ∧ t.phtState = s.phtState ∧ t.regFld pgPHT 0x040 8 4 = 1) ∧
        (∀ a rest, s.tracking = false → s.ridge.qual = a :: rest → stamp - a ≤ 25 * ftPerMs →
          let ps := periodsOf ((stamp :: a :: rest).take n)
          (periodsFit ps = false → Lands (.zeroCrossingEvaluation l1 l2 l3 n1) s fun t => t.ridge.qual = [stamp] ∧ t.phtState = s.phtState) ∧
          (periodsFit ps = true → rest.length + 2 < n → Lands (.zeroCrossingEvaluation l1 l2 l3 n1) s fun t =>
            t.ridge.qual = stamp :: a :: rest ∧ t.phtState = s.phtState) ∧
          (periodsFit ps = true → n ≤ rest.length + 2 → s.ridge.locked = false → Lands (.zeroCrossingEvaluation l1 l2 l3 n1) s fun t =>
            t.phtState = stLock ∧ t.ridge.locked = true ∧ t.ridge.tm = Frac.mean ps ∧ t.reg pgPHT 0x050 = 0 ∧
            t.reg pgPHT 0x054 = 0 ∧ t.rate = t.ridge.rm % 2 ^ 64 ∧
            t.ridge.acc = ((u.sampled pgPHT 0x074).toNat * turn + 64 * t.ridge.rm) % 2 ^ 64)))

/-- O35. Misses, HOLD, SEEK and announcements (R99, R102, R103, R114): a miss, behind the crossings of its ft (R105), is counted and the
prediction goes on by T_m, and the MISS_MAX-th in a row enters HOLD at R_m; HOLD_LONG and SEEK_LONG set their bit and pend; an
announcement is held in LOCK within the angle window, and rejected with its cause elsewhere. -/
def Obligations.HoldAndAnnouncements : Prop :=
  ∀ s : State,
    (s.tracking = false → exec .crossingMiss s = .next (s.land s)) ∧
    (let v := s.until ((Frac.floor (Frac.add s.ridge.pred s.window)).toNat + 64)
     let most := v.sampledFld pgPHT 0x07C 4 4
     s.tracking = true → Lands .crossingMiss s fun t =>
      t.ridge.misses = s.ridge.misses + 1 ∧ t.ridge.pred = Frac.add s.ridge.pred s.ridge.tm ∧
      t.reg pgPHT 0x0A4 = s.reg pgPHT 0x0A4 + 1 ∧ t.regBit pgPHT 0x010 5 = true ∧
      t.tick = v.tick + 1 ∧
      (s.ridge.misses + 1 < most → t.phtState = s.phtState ∧ t.rate = s.rate) ∧
      (most ≤ s.ridge.misses + 1 →
        t.phtState = stHold ∧ t.regFld pgPHT 0x040 2 2 = 2 ∧ t.rate = s.ridge.rm % 2 ^ 64 ∧ t.ridge.holdAt = v.tick ∧
        t.reg pgPHT 0x0AC = s.reg pgPHT 0x0AC + 1)) ∧
    (s.phtState ≠ stHold ∨ s.regBit pgPHT 0x040 5 = true → exec .holdLong s = .next (s.land s)) ∧
    (s.phtState = stHold → s.regBit pgPHT 0x040 5 = false → Lands .holdLong s fun t =>
      t.regBit pgPHT 0x040 5 = true ∧ t.regBit pgPHT 0x010 7 = true ∧
      t.tick = max s.tick (s.ridge.holdAt + s.regFld pgPHT 0x080 16 8 * ftPerS)) ∧
    (s.phtState ≠ stSeek ∨ s.regBit pgPHT 0x040 6 = true → exec .seekLong s = .next (s.land s)) ∧
    (s.phtState = stSeek → s.regBit pgPHT 0x040 6 = false → Lands .seekLong s fun t =>
      t.regBit pgPHT 0x040 6 = true ∧ t.regBit pgPHT 0x010 8 = true ∧ t.tick = max s.tick (2 * ftPerS)) ∧
    ∀ (p : Path) (data : Word), s.mayWrite p pgPHT →
      let standby := s.role = roleStandby ∧ (s.pairState = psSync ∨ s.pairState = psLag)
      let early := s.angle < 0x20000000 ∨ 0xE0000000 ≤ s.angle
      let rejected := fun (cause : Nat) => Ends (.annCycleWrite p data) s fun t =>
        t.ridge = s.ridge ∧ t.regFld pgPHT 0x090 1 2 = cause ∧ t.regBit pgPHT 0x090 3 = true ∧
        t.reg pgPHT 0x0B8 = s.reg pgPHT 0x0B8 + 1 ∧ t.regBit pgPHT 0x010 4 = true ∧ t.answered p = ⟨stOk, 0⟩
      (s.phtState ≠ stLock ∨ standby → rejected 2) ∧
      (s.phtState = stLock → ¬ standby → early → rejected 1) ∧
      (s.phtState = stLock → ¬ standby → ¬ early → Ends (.annCycleWrite p data) s fun t =>
        t.ridge = { s.ridge with ann := some ((s.regFld pgPHT 0x088 0 16 * turn + data.toNat + 1) % 2 ^ 48) } ∧
        t.regBit pgPHT 0x090 0 = true ∧ t.regBit pgPHT 0x090 3 = false ∧ t.answered p = ⟨stOk, 0⟩ ∧
        t = { s with regs := t.regs, dirty := t.dirty, ridge := t.ridge, last := t.last, ports := [pgPHT] } ∧
        ∀ k, k ≠ rkey pgPHT 0x090 → t.getKey k = s.getKey k)

/-- O36. Turn boundaries and anchors (R90, R106, R115, R315, R369): before the first LOCK there is none; a turn boundary puts the cycle
stamp one up, or at the announced number; a sample anchor takes the sample set of its number; a half-cycle anchor counts a primary's wait
for its standby (R517); an occurrence of a class counts and is offered as a reference message on every channel that masters the class and
sends. -/
def Obligations.TurnsAndAnchors : Prop :=
  ∀ s : State,
    (s.ridge.locked = false → exec .turnBoundary s = .next (s.land s) ∧ ∀ g, exec (.anchorOccurrence g) s = .next (s.land s)) ∧
    (s.ridge.locked = true →
      (s.ridge.ann = none → Lands .turnBoundary s fun t =>
        t.stamp = (s.stamp + 1) % 2 ^ 48 ∧ t.regBit pgPHT 0x010 1 = true ∧ t.ridge = (s.reach genTurn 0 turn).ridge ∧
        t.tick = (s.reach genTurn 0 turn).tick) ∧
      (∀ n, s.ridge.ann = some n → n < 2 ^ 48 → Lands .turnBoundary s fun t =>
        t.stamp = n ∧ t.regBit pgPHT 0x010 1 = true ∧ t.regBit pgPHT 0x010 3 = true ∧ t.ridge.ann = none ∧
        t.regBit pgPHT 0x040 4 = true ∧ t.regBit pgPHT 0x090 0 = false) ∧
      exec (.anchorOccurrence .halfCycle) s = .next (s.land (let u := s.reach genHalf 0 halfCycle
        if s.role = rolePrimary then { u with pair := { u.pair with silent := s.pair.silent + 1 } } else u)) ∧
      exec (.anchorOccurrence .turnHalf) s = .next (s.land (s.reach genTurnHalf halfCycle turn)) ∧
      (s.meterRuns = true → Lands (.anchorOccurrence .meterSample) s fun t =>
        t.meter = { s.meter with await := some (s.nextOcc genSample 0 (2 ^ 23) / 2 ^ 23, t.tick) } ∧
        OnlyPages [pgINT] { s with meter := t.meter, tick := t.tick, ridge := t.ridge, links := t.links, ports := t.ports } t) ∧
      (∀ c, c < 8 → s.clsEn c = true → s.owes (genRef c) = false → Lands (.anchorOccurrence (.classRef c)) s fun t =>
        let occ := Tbl.get (fun _ => 0) s.scan.occ c + 1
        Tbl.get (fun _ => 0) t.scan.occ c = occ ∧
        ∀ ch, ch < 6 → s.masterOf ch c = true → s.busSends ch = true →
          ∃ skipped stamp, (t.busCh ch).ref = some (.ref occ t.tick skipped stamp)) ∧
      (∀ c, c < 8 → s.clsEn c = false → s.owes (genRef c) = false → exec (.anchorOccurrence (.classRef c)) s = .next (s.land s)))

/-! ### The base cycle -/

/-- O37. Base anchors (R197, R199, R202, R203, R543): without an enabled class or before the first LOCK there is none; a base anchor that
finds no cycle in progress starts the cycle of its due classes where a cycle may start; a cycle whose last step comes by the ft of the
anchor has ended and is no overrun; one that is still in progress becomes an overrun at its first anchor, and the cycle watchdog's last
one a module fault. -/
def Obligations.BaseAnchors : Prop :=
  ∀ s : State, s.scan.owed = [] →
    (s.baseClass = none ∨ s.ridge.locked = false → exec .baseAnchor s = .next (s.land s)) ∧
    (∀ b, s.baseClass = some b → s.ridge.locked = true → s.pair.demote = false → s.pair.wish = 0 → s.isStandby = false →
      let due := s.dueSet b
      let u := (s.untilTheta (s.clsNext b)).reachAll (s.clsNext b) due
      (s.scan.cycle = none → u.canCycle = false → exec .baseAnchor s = .next (s.land u)) ∧
      (s.scan.cycle = none → u.canCycle = true → s.sys.firstDone = true → s.scan.skip = [] → Lands .baseAnchor s fun t =>
        t.tick = u.tick ∧ t.scan.capture = u.tick ∧ t.scan.stamp = u.stampThen ∧ t.reg pgSCN 0x168 = s.reg pgSCN 0x168 + 1 ∧
        ∃ y, t.scan.cycle = some y ∧ y.at_ = u.tick ∧ y.phase = 1 ∧ y.due = maskOf due ∧ y.late = false ∧ y.met = 0 ∧
          y.stamp = u.stampThen) ∧
      (∀ y, s.scan.cycle = some y → y.phase = 3 → y.switching = [] → s.copyRuns = false → s.tick ≤ y.x + 1 + y.tOut →
        y.x + 1 + y.tOut ≤ u.tick → Lands .baseAnchor s fun t =>
          ∀ c, c < 8 → t.reg pgSCN (0x120 + 4 * c) = s.reg pgSCN (0x120 + 4 * c)) ∧
      (∀ y, s.scan.cycle = some y → s.endedBy u.tick = s → s.anyHalt = false → y.halt = false →
        (y.met + 1 < s.regFld pgSYS 0x068 0 8 → Lands .baseAnchor s fun t =>
          t.scan.cycle = some { y with late := true, met := y.met + 1 } ∧ t.tick = u.tick ∧
          (y.late = false → t.regBit pgSCN 0x010 0 = true ∧ t.reg pgSCN 0x0C4 = u.sampled pgPHT 0x050 ∧
            t.regFld pgSCN 0x0C0 0 8 = y.due % 256)) ∧
        (s.regFld pgSYS 0x068 0 8 ≤ y.met + 1 → Lands .baseAnchor s fun t =>
          t.sys.fault = 3 ∧ t.scan.cycle = none ∧ t.sysState = ssFault)))

/-- O38. The phases of a cycle (R197 to R199, R208 to R210): the INPUT commit puts each staged value into its point and opens the execute
phase; a lane that is idle starts its next program, or takes the source of its next event task and starts that, with every lane register
0; when every lane has finished, the OUTPUT commit applies the held stores of the completed programs and fires the classes' sources; the
end of the output phase ends the cycle, or leaves it to COPY. -/
def Obligations.CyclePhases : Prop :=
  ∀ (s : State) (y : Cycle), s.scan.cycle = some y →
    (y.phase ≠ 1 → exec .inputCommit s = .next (s.land s)) ∧
    (y.phase = 1 → Lands .inputCommit s fun t =>
      t.tick = max s.tick (y.at_ + y.tIn) ∧ t.scan.cycle = some { y with phase := 2, staged := [] } ∧
      (∀ p v k, y.staged = [(p, v, k)] →
        t.ptStored p = (if s.ptForced p then s.ptStored p else normalise (s.ptType p) v) ∧
        t.reg pgPTM 0x084 = s.reg pgPTM 0x084 + word (b2n (s.ptForced p))) ∧
      ∀ q, q ∉ y.staged.map (·.1) → t.ptStored q = s.ptStored q) ∧
    (∀ l w rest, s.laneIdle l = some y → s.dueWork l = w :: rest →
      let started := fun (ev : Option Nat) (runs : Nat) =>
        ({ s.lane l with
           g := [], running := true, slot := w.slot, evb := ev, runs := runs, pc := 0, frames := [], loops := [], work := rest,
           runNo := (s.lane l).runNo + 1 } : Lane)
      (w.evb = none →
        exec (.programDispatch l) s = .next (s.land ((s.until (s.laneFrom l y + 3)).setLane l (started none 0))) ∧
        exec (.eventTaskDispatch l) s = .next (s.land s)) ∧
      (∀ e, w.evb = some e → s.intc.rise = [] → exec (.programDispatch l) s = .next (s.land s) ∧ Lands (.eventTaskDispatch l) s fun t =>
        t.lane l = started (some e) ((s.lane l).runs + 1) ∧ (∀ m, m ≠ l → t.lane m = s.lane m) ∧
        t.srcPend (s.evbSource e) = false ∧ t.srcActive (s.evbSource e) = true ∧ t.tick = max s.tick (s.laneFrom l y + 3) ∧
        t.reg (pgSCL l) 0x110 = s.reg (pgSCL l) 0x110 + 1)) ∧
    (y.phase ≠ 2 ∨ s.lanesDone = false → exec .outputCommit s = .next (s.land s)) ∧
    (y.phase = 2 → s.lanesDone = true → Lands .outputCommit s fun t =>
      let x := ((List.range (laneLimit s.small)).map fun l => s.laneFrom l y).foldl max (y.at_ + y.tIn)
      t.tick = max s.tick (x + 1) ∧ (∃ z, t.scan.cycle = some z ∧ z.phase = 3 ∧ z.x = x ∧ z.due = y.due) ∧
      (∀ l, l < laneLimit s.small → (t.lane l).held = [] ∧ (t.lane l).ended = [] ∧ (t.lane l).work = []) ∧
      (s.intc.took = [] → ∀ c, c < 8 → inMask y.due c = true → t.srcPend (112 + c) = true) ∧
      ∀ l h, l < laneLimit s.small → (s.lane l).held = [h] → h.slot ∈ (s.lane l).ended → (∀ m, m ≠ l → (s.lane m).held = []) →
        s.ptForced h.pt = false → t.ptStored h.pt = normalise (s.ptType h.pt) h.value ∧
          ∀ q, q ≠ h.pt → t.ptStored q = s.ptStored q) ∧
    (y.phase = 3 → y.switching = [] → y.built = true → Lands .outputPhaseEnd s fun t =>
      t.tick = max s.tick (y.x + 1 + y.tOut) ∧
      (s.copyRuns = false → t.scan.cycle = none ∧ t.scan.ended = true ∧
        ∀ c, c < 8 → inMask y.due c = true → (t.view c).start = y.at_ ∧ (t.view c).exec = y.x - y.at_ ∧
          (t.view c).copy = t.tick - y.at_ ∧ (t.view c).cycle = y.cycleNo) ∧
      (s.copyRuns = true → t.scan.cycle = some { y with phase := 4, built := true, frames := [] }))

/-- O39. Event bindings and halts (R196, R209, R225): EVB_e with EN is refused INVALID where another binding names its source or the slot
holds no event task, BUDGET where the bound breaks the budget, and is written otherwise; HALT and STEP act only with debug enabled; a STEP
of a halted lane executes the next instruction of its run (a NOP as O7 has it), and with no run in progress waits for it. -/
def Obligations.BindingsAndHalts : Prop :=
  ∀ (p : Path) (s : State),
    (∀ e data, e < 64 → s.mayWrite p pgSCN →
      let o := 0x400 + 4 * e
      let w := settled pgSCN o evbRow .plain (s.reg pgSCN o) data
      let bound := (List.range 64).any fun x => x ≠ e && s.regBit pgSCN (0x400 + 4 * x) 31 && s.evbSource x = fld w 12 7
      let isEvent := match (s.slot (fld w 0 10)).prog with
        | some g => g.event && !(s.slot (fld w 0 10)).holderOf.isSome
        | none => false
      let fits := (s.setReg pgSCN o w).budgetOk
      (bit w 31 = true → bound = true ∨ isEvent = false → Answers (.evbWrite p e data) p pgSCN s stInvalid) ∧
      (bit w 31 = true → bound = false → isEvent = true → fits = false → Answers (.evbWrite p e data) p pgSCN s stBudget) ∧
      (bit w 31 = false ∨ (bound = false ∧ isEvent = true ∧ fits = true) → Ends (.evbWrite p e data) s fun t =>
        t.reg pgSCN o = w ∧ t.answered p = ⟨stOk, 0⟩ ∧
        t = { s with regs := t.regs, dirty := t.dirty, last := t.last, ports := [pgSCN] } ∧
        ∀ k, k ≠ rkey pgSCN o → k ≠ rkey pgSCN 0x00C → t.getKey k = s.getKey k)) ∧
    (∀ l, l < 8 → s.mayWrite p (pgSCL l) →
      (s.debugEnabled = false → Answers (.laneHalt p l) p (pgSCL l) s stOk ∧
        ((s.lane l).step = false → Answers (.laneStep p l) p (pgSCL l) s stOk)) ∧
      (s.debugEnabled = true →
        (s.regBit (pgSCL l) 0x044 0 = true → Answers (.laneHalt p l) p (pgSCL l) s stOk ∧
          let v := ((s.turnAt (pgSCL l)).setLane l { s.lane l with step := true }).answer p stOk 0
          ((s.lane l).running = false → ∃ t, exec (.laneStep p l) s = .next (s.commit t) ∧ t = v) ∧
          ((s.lane l).running = true → ∃ t, exec (.laneStep p l) s = .next (s.commit t) ∧ t = runWord l (s.wordAt l) v)) ∧
        (s.regBit (pgSCL l) 0x044 0 = false → Answers (.laneStep p l) p (pgSCL l) s stOk ∧
          Ends (.laneHalt p l) s fun t =>
            t.regBit (pgSCL l) 0x044 0 = true ∧ t.regBit (pgSCL l) 0x010 1 = true ∧ t.lanes = s.lanes ∧
            OnlyPages [pgSCL l] { s with last := t.last, scan := t.scan, ports := t.ports } t))) ∧
    (∀ l (w : BitVec 64), opOf w = 0x00 → s.executes l → runWord l w s = s.ran l (s.lane l).next)

/-! ### Points, contexts, credentials -/

/-- O40. Points (R153 to R156, R161, R169 to R173, R182): a write through the window reaches the tunnel latch of a TUNNEL point, LO held
until HI, and is DENIED elsewhere, and a program, whose addresses end below the window, finds it ABSENT; PT_TUN takes and gives up the
writer; PT_DEF defines, retypes with conversion and frees; PT_FORCE puts the latched value in force, and its release keeps the forced
value. Each refusal is noted and changes no entry. -/
def Obligations.PointWrites : Prop :=
  ∀ (p : Path) (data : Word) (s : State), s.mayWrite p pgPTM true →
    let c := s.ctxOf p
    (∀ j,
      (s.windowTarget c j = none → ∀ hi,
        exec (.pointWindowWrite p j hi data) s = .next (s.commit (((s.turnAt pgPTM).accessRefused c j).answer p stDenied 0))) ∧
      (∀ pt, s.windowTarget c j = some pt →
        exec (.pointWindowWrite p j false data) s =
          .next (s.commit (((s.turnAt pgPTM).holdLo p (winKey j) data).answer p stOk 0)) ∧
        let taken := fun (t : State) =>
          (Tbl.get (fun _ => 0) t.points.tun pt : Dword) = BitVec.ofNat 64 (join64 data (s.heldLo p (winKey j))) ∧
          Tbl.get (fun _ => false) t.points.tunNew pt = true ∧ t.heldLo p (winKey j) = 0 ∧ t.answered p = ⟨stOk, 0⟩ ∧
          t = { s with points := { s.points with tun := t.points.tun, tunNew := t.points.tunNew, tunWas := t.points.tunWas },
                       bank := t.bank, last := t.last, ports := [pgPTM] }
        Ends (.pointWindowWrite p j true data) s taken ∧
        (j < 8192 → (∀ l, p ≠ .lane l) → Ends (.hiWriteApply p (word (0x01000004 + 8 * j)) data) s taken)) ∧
      (j < 8192 → (∀ l, p ≠ .lane l) →
        exec (.hiWriteApply p (word (0x01000004 + 8 * j)) data) s = exec (.pointWindowWrite p j true data) s) ∧
      (j < 8192 → (∃ l, p = .lane l) → s.portBusy 0x16 = false →
        Answers (.hiWriteApply p (word (0x01000004 + 8 * j)) data) p 0x16 s stAbsent)) ∧
    ∀ pt, pt < pointLimit s.small →
      (let cmd := Instr.ptTunWrite p pt data
       let w := entSettle pgPTM RegMap.entPoint 0x1C .plain 0 data
       let free := (s.ptKind pt = wkNone ∨ s.ptKind pt = wkTunnel) ∧ s.comingWriter pt = false
       let fits := (s.setPtWord pt 0x1C w).budgetOk
       (c ≠ 0 → PtmRefuses cmd p s stDenied rfPoint pt) ∧
       (c = 0 → bit w 31 = true →
         (s.ptType pt = 0 → PtmRefuses cmd p s stInvalid rfPoint pt) ∧
         (s.ptType pt ≠ 0 → ¬ free → PtmRefuses cmd p s stWriterConflict rfPoint pt) ∧
         (s.ptType pt ≠ 0 → free → fits = false → PtmRefuses cmd p s stBudget rfPoint pt) ∧
         (s.ptType pt ≠ 0 → free → fits = true → Ends (.ptTunWrite p pt data) s fun t =>
           t.ptWord pt 0x1C = w ∧ t.ptKind pt = wkTunnel ∧ t.ptId pt = fld w 0 3 ∧ t.answered p = ⟨stOk, 0⟩ ∧
           t.points = s.points ∧ ∀ k, k ≠ ikey pgPTM (ptAddr pt + 0x1C) → k ≠ ikey pgPTM (ptAddr pt + 4) → t.getKey k = s.getKey k)) ∧
       (c = 0 → bit w 31 = false → bit (s.ptWord pt 0x1C) 31 = true → Ends (.ptTunWrite p pt data) s fun t =>
         t.ptWord pt 0x1C = w ∧ t.ptKind pt = wkNone ∧ (Tbl.get (fun _ => 0) t.points.tun pt : Dword) = 0 ∧
         Tbl.get (fun _ => false) t.points.tunNew pt = false ∧ t.points.val = s.points.val ∧ t.answered p = ⟨stOk, 0⟩) ∧
       (c = 0 → bit w 31 = false → bit (s.ptWord pt 0x1C) 31 = false → Ends (.ptTunWrite p pt data) s fun t =>
         t.ptWord pt 0x1C = w ∧ t.ptKind pt = s.ptKind pt ∧ t.points = s.points ∧ t.answered p = ⟨stOk, 0⟩)) ∧
      (let cmd := Instr.ptDefWrite p pt data
       let w := entSettle pgPTM RegMap.entPoint 0 .plain 0 data
       let typ := fld w 0 4
       let owner := fld w 4 9
       let old := s.ptType pt
       let change := typ ≠ old ∨ owner ≠ s.ptOwner pt
       let used := s.ptKind pt ≠ wkNone ∨ s.grantSource pt = true ∨ s.pointRefd pt = true
       let noOwner := typ ≠ 0 ∧ (ctxLimit s.small ≤ owner ∨ s.ctxState owner = 0)
       let full := old = 0 ∧ typ ≠ 0 ∧ (s.reg pgPTM 0x040).toNat = pointLimit s.small
       (c ≠ 0 → PtmRefuses cmd p s stDenied rfPoint pt) ∧
       (c = 0 →
         (change → s.ptForced pt = true → PtmRefuses cmd p s stForcedPointRemoved rfPoint pt) ∧
         (change → s.ptForced pt = false → used → PtmRefuses cmd p s stInUse rfPoint pt) ∧
         (¬ change ∨ (s.ptForced pt = false ∧ ¬ used) →
           (noOwner → PtmRefuses cmd p s stInvalid rfPoint pt) ∧
           (¬ noOwner → full → PtmRefuses cmd p s stCapacity rfPoint pt) ∧
           (¬ noOwner → ¬ full → Ends (.ptDefWrite p pt data) s fun t =>
             t.ptType pt = typ ∧ t.ptOwner pt = owner ∧ t.answered p = ⟨stOk, 0⟩ ∧
             t.ptStored pt = (if old = typ then s.ptStored pt else if old = 0 ∨ typ = 0 then 0
               else normalise typ (convert old typ (s.ptStored pt)).1) ∧
             (old = 0 → typ ≠ 0 → t.reg pgPTM 0x040 = s.reg pgPTM 0x040 + 1) ∧
             (old ≠ 0 → typ = 0 → t.reg pgPTM 0x040 = s.reg pgPTM 0x040 - 1) ∧
             ∀ q, q ≠ pt → t.ptStored q = s.ptStored q)))) ∧
      (let lo := s.latchedWord p spPoint (ptAddr pt) 0x08 (s.ptWord pt 0x08)
       let hi := s.latchedWord p spPoint (ptAddr pt) 0x0C (s.ptWord pt 0x0C)
       let cmd := Instr.ptForceWrite p pt data
       (s.mayForce c pt = false → PtmRefuses cmd p s stDenied rfPoint pt) ∧
       (s.mayForce c pt = true →
         (bit data 0 = true → s.ptType pt = 0 → PtmRefuses cmd p s stInvalid rfPoint pt) ∧
         (bit data 0 = true → s.ptType pt ≠ 0 → Ends (.ptForceWrite p pt data) s fun t =>
           t.ptForced pt = true ∧ t.ptValue pt = normalise (s.ptType pt) (BitVec.ofNat 64 (join64 hi lo)) ∧
           t.points = s.points ∧ t.regBit pgPTM 0x010 1 = true ∧ t.answered p = ⟨stOk, 0⟩ ∧
           t.reg pgPTM 0x074 = s.reg pgPTM 0x074 + word (b2n (!s.ptForced pt))) ∧
         (bit data 0 = false → s.ptForced pt = true → Ends (.ptForceWrite p pt data) s fun t =>
           t.ptForced pt = false ∧ t.ptValue pt = s.ptFval pt ∧ (∀ q, q ≠ pt → t.ptStored q = s.ptStored q) ∧
           t.reg pgPTM 0x074 = s.reg pgPTM 0x074 - 1 ∧ t.answered p = ⟨stOk, 0⟩) ∧
         (bit data 0 = false → s.ptForced pt = false → Ends (.ptForceWrite p pt data) s fun t =>
           t = { s with entry := t.entry, last := t.last, ports := [pgPTM] } ∧ t.answered p = ⟨stOk, 0⟩)))

/-- O41. Contexts, grants and credentials (R157, R158, R164 to R168, R174 to R178): CTX_DEF, with the latched CTX_WIN, is refused while
the context is in use, a window that covers a granted index or moves a referenced one is refused, and the write is applied otherwise; a
grant is refused where R165 calls it invalid or its index is referenced; a credential is refused for a FREE owner or as a duplicate; the
end of a lookup brings its code and entry to the lane, and a use is counted off. -/
def Obligations.ContextWrites : Prop :=
  ∀ (p : Path) (data : Word) (s : State),
    (s.mayWrite p pgPTM true →
      let by_ := s.ctxOf p
      (∀ c, 0 < c → c < ctxLimit s.small →
        let rules := fun (cmd : Instr) (win dfn : Word) (completes : Prop) =>
          let old := s.ctxWin c
          let moved := fld win 0 13 ≠ fld old 0 13 ∨ fld win 16 14 < fld old 16 14
          let used := fld dfn 0 2 = 0 ∧ s.ctxInUse c = true
          let covers := win ≠ old ∧ s.winCovers c win = true
          let breaks := moved ∧ s.winBreaks c win = true
          let full := s.ctxState c = 0 ∧ fld dfn 0 2 ≠ 0 ∧ (s.reg pgPTM 0x04C).toNat = ctxLimit s.small
          (by_ ≠ 0 → PtmRefuses cmd p s stDenied rfCtx c) ∧
          (by_ = 0 →
            (used → PtmRefuses cmd p s stInUse rfCtx c) ∧
            (¬ used → covers → PtmRefuses cmd p s stInvalid rfCtx c) ∧
            (¬ used → ¬ covers → breaks → PtmRefuses cmd p s stInUse rfCtx c) ∧
            (¬ used → ¬ covers → ¬ breaks → full → PtmRefuses cmd p s stCapacity rfCtx c) ∧
            (¬ used → ¬ covers → ¬ breaks → ¬ full → completes))
        let written := fun (win dfn : Word) (t : State) =>
          t.ctxWin c = win ∧ t.ctxDef c = dfn ∧ t.answered p = ⟨stOk, 0⟩ ∧ t.points = s.points ∧
          (s.ctxState c = 0 → fld dfn 0 2 ≠ 0 → t.reg pgPTM 0x04C = s.reg pgPTM 0x04C + 1) ∧
          (s.ctxState c ≠ 0 → fld dfn 0 2 = 0 → t.reg pgPTM 0x04C = s.reg pgPTM 0x04C - 1)
        let win := if s.hasLatched p spCtx (ctxAddr c) 0 then winClamp (pointLimit s.small) (s.latchedWord p spCtx (ctxAddr c) 0 0)
          else s.ctxWin c
        let dfn := entSettle pgPTM RegMap.entCtx 4 .plain 0 data
        let own := winClamp (pointLimit s.small) (data &&& 0x3FFF1FFF)
        rules (.ctxDefWrite p c data) win dfn (Ends (.ctxDefWrite p c data) s (written win dfn)) ∧
        rules (.ctxWinWrite p c data) own (s.ctxDef c) (Ends (.ctxWinWrite p c data) s (written own (s.ctxDef c)))) ∧
      (by_ = 0 → Ends (.ctxDefWrite p 0 data) s fun t =>
        t.answered p = ⟨stOk, 0⟩ ∧ t.points = s.points ∧ ∀ k, k ≠ rkey pgPTM 0x00C → t.getKey k = s.getKey k) ∧
      (∀ g, g < grantLimit s.small →
        let cmd := Instr.grantWrite p g data
        let dst := data &&& 0x1FFF01FF
        let src := s.latchedWord p spGrant (grAddr g) 0 (s.grSrc g)
        let owns := fun (w : Word) => s.ptType (fld w 0 13) ≠ 0 ∧ s.ptOwner (fld w 0 13) = by_
        let allowed := by_ = 0 ∨ (owns (s.grSrc g) ∧ owns src)
        let bad := grValid src = true ∧ s.grantBad g src dst = true
        let ref := grValid (s.grSrc g) = true ∧ s.indexRefd (fld (s.grDst g) 0 9) (fld (s.grDst g) 16 13) = true ∧
          (grValid src = false ∨ fld dst 0 9 ≠ fld (s.grDst g) 0 9 ∨ fld dst 16 13 ≠ fld (s.grDst g) 16 13)
        let full := grValid (s.grSrc g) = false ∧ grValid src = true ∧ (s.reg pgPTM 0x058).toNat = grantLimit s.small
        (¬ allowed → PtmRefuses cmd p s stDenied rfGrant g) ∧
        (allowed → bad → PtmRefuses cmd p s stInvalid rfGrant g) ∧
        (allowed → ¬ bad → ref → PtmRefuses cmd p s stInUse rfGrant g) ∧
        (allowed → ¬ bad → ¬ ref → full → PtmRefuses cmd p s stCapacity rfGrant g) ∧
        (allowed → ¬ bad → ¬ ref → ¬ full → Ends (.grantWrite p g data) s fun t =>
          t.grSrc g = src ∧ t.grDst g = dst ∧ t.answered p = ⟨stOk, 0⟩ ∧ t.points = s.points ∧
          ∀ h, h ≠ g → h < 2048 → t.grSrc h = s.grSrc h ∧ t.grDst h = s.grDst h)) ∧
      ∀ n, n < credLimit s.small →
        let cmd := Instr.crDefWrite p n data
        let w := entSettle pgPTM RegMap.entCred 0x18 .plain 0 data
        let owner := fld w 0 9
        let l := fun o => s.latchedWord p spCred (crAddr n) o (s.crWord n o)
        let was := fld (s.crWord n 0x18) 12 2 ≠ 0
        let on := fld w 12 2 ≠ 0
        let allowed := by_ = 0 ∨ (s.crOwner n = by_ ∧ owner = by_ ∧ bit (s.ctxDef by_) 5 = true)
        let bad := on ∧ (ctxLimit s.small ≤ owner ∨ s.ctxState owner = 0)
        let dup := on ∧ ∃ m ∈ s.creds, m ≠ n ∧ s.crOwner m = owner ∧ s.crKey m = BitVec.ofNat 64 (join64 (l 4) (l 0))
        let full := on ∧ ¬ was ∧ (s.reg pgPTM 0x064).toNat = credLimit s.small
        (¬ allowed → PtmRefuses cmd p s stDenied rfCred n) ∧
        (allowed → bad → PtmRefuses cmd p s stInvalid rfCred n) ∧
        (allowed → ¬ bad → dup → PtmRefuses cmd p s stDuplicate rfCred n) ∧
        (allowed → ¬ bad → ¬ dup → full → PtmRefuses cmd p s stCapacity rfCred n) ∧
        (allowed → ¬ bad → ¬ dup → ¬ full → Ends (.crDefWrite p n data) s fun t =>
          t.crWord n 0x18 = w ∧ (∀ o ∈ [0x00, 0x04, 0x08, 0x0C, 0x10, 0x14], t.crWord n o = l o) ∧ t.answered p = ⟨stOk, 0⟩ ∧
          (on → ¬ was → t.reg pgPTM 0x064 = s.reg pgPTM 0x064 + 1) ∧ (¬ on → was → t.reg pgPTM 0x064 = s.reg pgPTM 0x064 - 1))) ∧
    (s.points.lookups = [] → ∀ l, exec (.credLookup l) s = .next (s.land s)) ∧
    (∀ k code n, s.points.lookups = [k] → k.result = some (code, n) → k.waits = true → n < 12288 →
      (∀ l, l ≠ k.lane → exec (.credLookup l) s = .next (s.land s)) ∧
      Lands (.credLookup k.lane) s fun t =>
        t.tick = max s.tick (k.first + 24) ∧ t.points.lookups = [] ∧ t.reg pgPTM 0x08C = s.reg pgPTM 0x08C + 1 ∧
        t.lane k.lane =
          ({ (s.lane k.lane).setG (BitVec.ofNat 5 k.d) (BitVec.ofNat 64 (code + 65536 * n)) with cred := false } : Lane).next ∧
        (∀ m, m ≠ k.lane → t.lane m = s.lane m) ∧
        (code ≠ 0 → ∀ q, keyPage q ≠ pgINT → t.getKey q = (s.bump pgPTM 0x08C).getKey q) ∧
        (code = 0 → k.asRead = true → fld (s.crWord n 0x14) 0 16 ≠ 0xFFFF →
          t.crWord n 0x14 = word (fld (s.crWord n 0x14) 0 16 - 1)) ∧
        (code = 0 → fld (s.crWord n 0x14) 0 16 = 0xFFFF → t.crWord n 0x14 = s.crWord n 0x14))

/-! ### Loading and changing programs -/

/-- O42. Loader commands (R266, R269 to R273, R277, R280): while a command is in progress each is refused LOADER_BUSY and counted;
otherwise it ends its checks with its status in LDR_STAT and BUSY set, and a LOAD or CHANGE shows VERIFY, PLACE or MIRROR. An accepted
LOAD places the checked program in its slot, a CHANGE in a free slot beside it, armed at once with AUTO_SWITCH where the carry fits;
SWITCH arms the change, ABORT frees the beside holder, UNLOAD arms the removal, RESTART restarts a FAULTED slot; a refused one changes no
slot. That the write of LDR_CMD itself then ends OK is log entry 11. -/
def Obligations.LoaderCommands : Prop :=
  ∀ (p : Path) (slot : Nat) (s : State), s.mayWrite p pgSCN →
    let x := s.slot slot
    (s.ldrBusy = true → ∀ c ∈ [Instr.load p slot, .change p slot false, .change p slot true, .switch p slot, .abort p slot,
        .unload p slot, .restart p slot],
      exec c s = .next (s.commit (((s.turnAt pgSCN).addKey (lkey 0x048) 1).answer p stLoaderBusy 0))) ∧
    (s.ldrBusy = false →
      let ends := fun (t : State) (st : Nat) =>
        fld (t.ldr 0x004) 8 8 = st ∧ bit (t.ldr 0x004) 31 = true ∧ t.answered p = ⟨stOk, 0⟩ ∧ t.loader.status = st ∧
        t.loader.slot = slot
      let refused := fun (c : Instr) (st : Nat) => Ends c s fun t =>
        ends t st ∧ t.slots = s.slots ∧ t.sram = s.sram ∧ t.ldr 0x048 = s.ldr 0x048 + 1 ∧ t.ldr 0x040 = s.ldr 0x040
      (∀ st o, s.loadCheck false slot = .error (st, o) → st ≠ 0 → st < 256 →
        refused (.load p slot) st ∧ Ends (.load p slot) s fun t => t.ldr 0x008 = word o) ∧
      (∀ g, s.loadCheck false slot = .ok g → Ends (.load p slot) s fun t =>
        ends t stOk ∧ (t.slot slot).prog = some g ∧ (t.slot slot).loading = true ∧ (t.slot slot).state = x.state ∧
        (t.slot slot).loadedAt = none ∧ t.loader.prog = some g ∧ 1 ≤ t.ldrState ∧ t.ldrState ≤ 3 ∧ t.ldr 0x00C = word g.bound ∧
          t.ldr 0x040 = s.ldr 0x040 + 1) ∧
      (∀ st o auto, s.loadCheck true slot = .error (st, o) → st ≠ 0 → st < 256 →
        refused (.change p slot auto) st ∧ Ends (.change p slot auto) s fun t => t.ldr 0x008 = word o) ∧
      (∀ g auto, s.loadCheck true slot = .ok g → Ends (.change p slot auto) s fun t =>
        t.ldr 0x00C = word g.bound ∧ t.loader.prog = some g ∧ 1 ≤ t.ldrState ∧ t.ldrState ≤ 3 ∧ (t.slot slot).prog = x.prog ∧
        ∃ b, s.freeSlot = some b ∧ b ≠ slot ∧ (t.slot b).prog = some g ∧ (t.slot b).state = 3 ∧ (t.slot b).holderOf = some slot ∧
          fld (t.ldr 0x004) 16 10 = b ∧
          (ends t stOk ∧ (t.slot slot).change = some ⟨b, if auto then some s.tick else none, false⟩ ∨
            auto = true ∧ ends t stBudget ∧ (t.slot slot).change = some ⟨b, none, false⟩)) ∧
      (∀ b a unm, x.change = some ⟨b, some a, unm⟩ → refused (.switch p slot) stSlotState) ∧
      (∀ b unm, x.change = some ⟨b, none, unm⟩ →
        (s.budgetOk (s.armCharge slot) = false → refused (.switch p slot) stBudget) ∧
        (s.budgetOk (s.armCharge slot) = true → Ends (.switch p slot) s fun t =>
          ends t stOk ∧ t.slot slot = { x with change := some ⟨b, some s.tick, unm⟩ } ∧
          ∀ n, n ≠ slot → t.slot n = s.slot n)) ∧
      (x.change = none → refused (.switch p slot) stSlotState ∧ refused (.abort p slot) stSlotState) ∧
      (∀ b a unm, x.change = some ⟨b, a, unm⟩ → b ≠ slot →
        (slot ∈ s.switchingNow → refused (.abort p slot) stSlotState) ∧
        (slot ∉ s.switchingNow → Ends (.abort p slot) s fun t =>
          ends t stOk ∧ t.slot b = {} ∧ t.slot slot = { x with change := none } ∧ t.ldr 0x024 = s.ldr 0x024 - 1 ∧
          ∀ n, n ≠ slot → n ≠ b → t.slot n = s.slot n)) ∧
      (x.prog = none → refused (.unload p slot) stSlotState) ∧
      (∀ g, x.prog = some g →
        let bound := (List.range 64).any fun e =>
          s.regBit pgSCN (0x400 + 4 * e) 31 && s.regFld pgSCN (0x400 + 4 * e) 0 10 = slot
        let steady := x.state = 1 ∨ x.state = 2
        let forced := s.forcedBad g.ctx (some g) [] []
        let used := bound = true ∨ (s.inUseItem slot g.ctx (some g) []).isSome = true
        (¬ steady → refused (.unload p slot) stSlotState) ∧
        (steady → forced = true → refused (.unload p slot) stForcedPointRemoved) ∧
        (steady → forced = false → used → refused (.unload p slot) stInUse) ∧
        (steady → forced = false → ¬ used → Ends (.unload p slot) s fun t =>
          ends t stOk ∧ t.slot slot = { x with unload := some s.tick } ∧ ∀ n, n ≠ slot → t.slot n = s.slot n)) ∧
      (x.state ≠ 2 → refused (.restart p slot) stSlotState) ∧
      (x.state = 2 → Ends (.restart p slot) s fun t =>
        ends t stOk ∧ t.slot slot = { x with restarting := some s.tick } ∧ ∀ n, n ≠ slot → t.slot n = s.slot n))

/-- O43. The load buffer, the end of a command and the switch (R267, R272, R275 to R280, R281): a word of the buffer is stored, or DENIED
while a command is in progress; the end of an accepted LOAD archives the program and clears BUSY; the switch ft puts the new program with
the carried timers and edges into the slot and frees the beside holder, and an armed unload frees the slot. -/
def Obligations.LoadBufferAndSwitch : Prop :=
  ∀ (p : Path) (ofs : Nat) (data : Word) (s : State),
    (s.mayWrite p pgSCN →
      (0x100000 ≤ ofs → Answers (.loadBufferWrite p ofs data) p pgSCN s stAbsent) ∧
      (ofs < 0x100000 → s.ldrBusy = true → Answers (.loadBufferWrite p ofs data) p pgSCN s stDenied) ∧
      (ofs < 0x100000 → s.ldrBusy = false → Ends (.loadBufferWrite p ofs data) s fun t =>
        t.load (bufferBase + ofs / 4 * 4) 4 = data.toNat ∧ t.regs = s.regs ∧ t.answered p = ⟨stOk, 0⟩ ∧
        ∀ a, a < bufferBase + ofs / 4 * 4 ∨ bufferBase + ofs / 4 * 4 + 4 ≤ a → t.byte a = s.byte a)) ∧
    (s.ldrBusy = false → exec .loaderCommandComplete s = .next (s.land s)) ∧
    (∀ g, s.ldrBusy = true → s.loader.prog = some g →
      let n := s.loader.slot
      let taken := fun (t : State) =>
        bit (t.ldr 0x004) 31 = false ∧ bit (t.ldr 0x004) 3 = !s.pair.up ∧ t.loader.archive = archiveAdd n g s.loader.archive ∧
        t.loader.prog = none ∧ (∀ e ∈ s.fabric.changing, e.2 ≤ t.tick) ∧ s.tick ≤ t.tick ∧ ∀ m, m ≠ n → t.slot m = s.slot m
      (s.loader.op = opLoad → Lands .loaderCommandComplete s fun t =>
        taken t ∧ fld (t.ldr 0x004) 0 3 = 0 ∧ t.slot n = { s.slot n with loadedAt := some t.tick }) ∧
      (∀ ch, s.loader.op = opChange → (s.slot n).change = some ch → Lands .loaderCommandComplete s fun t =>
        taken t ∧ fld (t.ldr 0x004) 0 3 = (if ch.armed.isSome then 5 else 4) ∧
        t.slot n = { s.slot n with change := some { ch with unmirrored := ch.unmirrored || !s.pair.up } })) ∧
    (s.ldrBusy = true → s.loader.prog = none → Lands .loaderCommandComplete s fun t =>
      bit (t.ldr 0x004) 31 = false ∧ t.slots = s.slots ∧ t.loader = s.loader ∧
      fld (t.ldr 0x004) 0 3 = s.changeState s.loader.slot) ∧
    ∀ (y : Cycle) (n : Nat), s.scan.cycle = some y →
      (y.phase ≠ 3 ∨ y.switching = [] → exec .switchFt s = .next (s.land s)) ∧
      (y.phase = 3 → y.switching = [n] →
        let x := s.slot n
        let closed := fun (t : State) => ∃ z, t.scan.cycle = some z ∧ z.phase = 3 ∧ z.switching = [] ∧ z.switched = [n] ∧
          z.built = true ∧ z.x = y.x
        (∀ b a unm old g, x.unload = none → x.change = some ⟨b, a, unm⟩ → x.prog = some old → (s.slot b).prog = some g → b ≠ n →
          Lands .switchFt s fun t =>
            closed t ∧ t.slot b = {} ∧ t.ldr 0x044 = s.ldr 0x044 + 1 ∧
            t.slot n = ({ state := 1, prog := some g, sects := (s.slot b).sects, codeAt := (s.slot b).codeAt,
                          timers := carryTimers x.timers g.carry [],
                          edges := carryEdges x.edges g.carry (edgeTable g.edgeInit) } : Slot)) ∧
        (∀ u old, x.unload = some u → x.prog = some old → (∀ ch, x.change = some ch → ch.beside ≠ n) → Lands .switchFt s fun t =>
          closed t ∧ t.slot n = {} ∧ (∀ ch, x.change = some ch → t.slot ch.beside = {}) ∧
          (x.change = none → t.ldr 0x024 = s.ldr 0x024 - 1 ∧ ∀ m, m ≠ n → t.slot m = s.slot m)))


/-! ### Loops -/

/-- O44. Loop entries (R292, R293, R295, R297, R299, R301, R306 to R308): a write of an entry that the variant lacks changes nothing, one
by another context is DENIED; EN is refused for a FREE loop or a disabled group, and else waits for the first anchor; EN at 0 stops the
loop, in an anchor ft behind the output of that anchor; RECOVER starts a FAULTED one again at the next anchor; a limit that would cross
the other takes its value; a coefficient is held in its range; LP_DEF is checked in order and takes or gives back the output point. -/
def Obligations.LoopWrites : Prop :=
  ∀ (p : Path) (n : Nat) (data : Word) (s : State), n < 1088 →
    let entryOnly := fun (c : Instr) (st : Nat) => Ends c s fun t =>
      t = { s with entry := t.entry, last := t.last, ports := [pgLPE] } ∧ t.answered p = ⟨st, 0⟩
    (s.mayWrite p pgLPE true →
      let cmds := [Instr.loopEnable p n, .loopDisable p n, .recover p n, .outLimitWrite p n false data, .outLimitWrite p n true data]
      (s.loopExists n = false → ∀ c ∈ cmds, Answers c p pgLPE s stOk) ∧
      (s.loopExists n = true → s.mayLoop p n = false → ∀ c ∈ cmds, Answers c p pgLPE s stDenied) ∧
      (s.loopExists n = true → s.mayLoop p n = true →
        (s.lpState n = lpFree ∨ s.grpEn (s.loopGroup n) = false → entryOnly (.loopEnable p n) stInvalid) ∧
        (s.lpState n = lpStopped → s.grpEn (s.loopGroup n) = true → Ends (.loopEnable p n) s fun t =>
          t.loopWord n 0x2C = 1 ∧ t.loopRec n = { s.loopRec n with enabling := some s.tick } ∧
          t.lpState n = lpStopped ∧ t.answered p = ⟨stOk, 0⟩) ∧
        (s.loopLive n = true → s.grpEn (s.loopGroup n) = true → Ends (.loopEnable p n) s fun t =>
          t.loopWord n 0x2C = 1 ∧ t.loops = s.loops ∧ t.lpState n = s.lpState n ∧ t.answered p = ⟨stOk, 0⟩) ∧
        (Ends (.loopDisable p n) s fun t =>
          t.loopWord n 0x2C = 0 ∧ t.lpState n = (if s.loopLive n then lpStopped else s.lpState n) ∧
          (t.loopRec n).pend = none ∧ (t.loopRec n).cap = none ∧ (t.loopRec n).enabling = none ∧
          (s.grpDue (s.loopGroup n) = false ∨ s.loopLive n = false → t.points = s.points) ∧
          (s.grpDue (s.loopGroup n) = true → s.loopLive n = true → t.points = (s.applyLoop n).points) ∧
          (s.lpState n = lpRunning → t.reg pgLPE 0x074 = s.reg pgLPE 0x074 - 1) ∧
          (s.lpState n = lpFaulted → t.reg pgLPE 0x078 = s.reg pgLPE 0x078 - 1)) ∧
        (s.lpState n ≠ lpFaulted → entryOnly (.recover p n) stOk) ∧
        (s.lpState n = lpFaulted → Ends (.recover p n) s fun t =>
          t.loopRec n = { s.loopRec n with enabling := some s.tick } ∧ t.lpState n = lpFaulted ∧ t.answered p = ⟨stOk, 0⟩) ∧
        (Ends (.outLimitWrite p n true data) s fun t =>
          t.loopWord n 0x18 = (if fle f32 (s.loopWord n 0x14).toNat data.toNat then data else s.loopWord n 0x14) ∧
          t.loopWord n 0x14 = s.loopWord n 0x14 ∧ t.answered p = ⟨stOk, 0⟩) ∧
        (Ends (.outLimitWrite p n false data) s fun t =>
          t.loopWord n 0x14 = (if fle f32 data.toNat (s.loopWord n 0x18).toNat then data else s.loopWord n 0x18) ∧
          t.loopWord n 0x18 = s.loopWord n 0x18 ∧ t.answered p = ⟨stOk, 0⟩)) ∧
      (∀ q which, n = 1024 + q → which < 5 →
        (s.loopExists n = false → Answers (.pidTuningWrite p q which data) p pgLPE s stOk) ∧
        (s.loopExists n = true → s.mayLoop p n = false → Answers (.pidTuningWrite p q which data) p pgLPE s stDenied) ∧
        (s.loopExists n = true → s.mayLoop p n = true → Ends (.pidTuningWrite p q which data) s fun t =>
          t.loopWord n (0x40 + 4 * which) = clampRate data ∧ t.loopWord n 0x5C = word (s.loopTs n) ∧
          t.loopWord n 0x54 = word (fdiv f32 (t.loopWord n 0x4C).toNat (fadd f32 (t.loopWord n 0x4C).toNat (s.loopTs n))) ∧
          t.loopWord n 0x58 =
            word (fdiv f32 (t.loopWord n 0x48).toNat (fadd f32 (t.loopWord n 0x4C).toNat (s.loopTs n))) ∧
          t.loops = s.loops ∧ t.answered p = ⟨stOk, 0⟩)) ∧
      ∀ k,
        (sosLimit s.small ≤ k → Answers (.sosCtlWrite p k data) p pgLPE s stOk) ∧
        (k < sosLimit s.small → s.maySect p k = false → Answers (.sosCtlWrite p k data) p pgLPE s stDenied) ∧
        (k < sosLimit s.small → s.maySect p k = true → Ends (.sosCtlWrite p k data) s fun t =>
          t.ind pgLPE (sosAddr k + 20) = data &&& 3 ∧ t.loops = s.loops ∧ t.answered p = ⟨stOk, 0⟩ ∧
          ∀ o ∈ [0, 4, 8, 12, 16], t.ind pgLPE (sosAddr k + o) =
            clampCoef (s.latchedWord p spSos (sosAddr k) o (s.ind pgLPE (sosAddr k + o))))) ∧
    (s.mayWrite p pgLPE → s.loopExists n = true →
      let w1 := setBit (data &&& 0x1F1FF) 16 true
      let w0 := setBit (data &&& 0x1F1FF) 16 false
      let refused := fun (c : Instr) (st : Nat) => Ends c s fun t =>
        t.answered p = ⟨st, 0⟩ ∧ t.reg pgLPE 0x214 = s.reg pgLPE 0x214 + 1 ∧ t.regBit pgLPE 0x010 2 = true ∧
        t.reg pgLPE 0x080 = word (st + 256 * (if isPid n then n - 1024 else n) + 16777216 * b2n (isPid n)) ∧
        t.loops = s.loops ∧ ∀ o, o < 128 → t.loopWord n o = s.loopWord n o
      let c := fld data 0 9
      let l := fun o => s.latchedWord p (spLoop n) (loopAddr n) o (s.loopWord n o)
      let sos : Word := if isPid n then 0 else if s.hasLatched p (spLoop n) (loopAddr n) 0x40 then
        entSettle pgLPE RegMap.entCascade 0x40 .plain 0 (s.latchedWord p (spLoop n) (loopAddr n) 0x40 0) else s.loopWord n 0x40
      let first := fld sos 0 12
      let k := fld sos 16 5
      let pool := isPid n = false ∧ (k = 0 ∨ sosLimit s.small < first + k ∨ ∃ i, i < k ∧ first + i ∈ s.sectsUsed n)
      let oldK := if s.loopConf n then (s.loopSects n).length else 0
      let cmd := Instr.lpDefConfigure p n data
      let owner := c < ctxLimit s.small ∧ s.ctxState c ≠ 0
      let right := isPid n = false ∨ s.pidRight c = true
      (¬ owner → refused cmd stInvalid) ∧
      (owner → ¬ right → refused cmd stPidRight) ∧
      (owner → right → s.loopLive n = true → refused cmd stInUse) ∧
      (owner → right → s.loopLive n = false →
        (s.loopPoints c (l 0x00) (l 0x04) (l 0x0C) = none ∨ pool → refused cmd stInvalid) ∧
        ∀ a b d, s.loopPoints c (l 0x00) (l 0x04) (l 0x0C) = some (a, b, d) → ¬ pool →
          let taken := (s.ptKind d ≠ wkNone ∧ ¬ (s.ptKind d = wkLoop ∧ s.ptId d = n)) ∨ s.comingWriter d = true
          let full := isPid n = false ∧ sosLimit s.small < (s.reg pgLPE 0x058).toNat - oldK + k
          (taken → refused cmd stWriterConflict) ∧
          (¬ taken → full → refused cmd stCapacity) ∧
          (¬ taken → ¬ full → Ends (.lpDefConfigure p n data) s fun t =>
            t.loopWord n 0x30 = w1 ∧ t.loopWord n 0x2C = 0 ∧ t.lpState n = lpStopped ∧ t.loopWord n 0x00 = l 0x00 ∧
            t.loopWord n 0x04 = l 0x04 ∧ t.loopWord n 0x0C = l 0x0C ∧ t.ptKind d = wkLoop ∧ t.ptId d = n ∧
            t.loopRec n = { pvPt := a, spPt := b, outPt := d } ∧ t.answered p = ⟨stOk, 0⟩)) ∧
      (s.lpState n ≠ lpStopped → refused (.lpDefFree p n data) stInUse) ∧
      (s.lpState n = lpStopped → Ends (.lpDefFree p n data) s fun t =>
        t.loopWord n 0x30 = w0 ∧ t.lpState n = lpFree ∧ t.loopRec n = {} ∧ t.ptKind (s.loopRec n).outPt = wkNone ∧
        t.answered p = ⟨stOk, 0⟩))

/-- O45. Samples (R284, R286 to R288, R291, R297, R303): a group's anchor captures its loops' inputs, applies their pending outputs where
they still resolve and starts the computation; an anchor owed from a commit ft starts it too. Its end, after the charges of the groups
below it that share the anchor, leaves each loop's next output pending and fires the group's source. A PID loop with setpoint in force
computes v = P + I + D and holds u and the integral in the limits; an uncorrectable error in its state faults it with code 3. -/
def Obligations.LoopSamples : Prop :=
  ∀ (g : Nat) (s : State), g < 16 →
    (s.owes (genGroup g) = false → s.grpEn g = false → exec (.anchorOccurrence (.loopGroup g)) s = .next (s.land s)) ∧
    (s.owes (genGroup g) = true → s.working = true → s.isStandby = false → Lands (.anchorOccurrence (.loopGroup g)) s fun t =>
      t.owes (genGroup g) = false ∧ Tbl.get (fun _ => none) t.loops.running g = some s.tick ∧ t.tick = s.tick ∧
      t.reg pgLPE 0x200 = s.reg pgLPE 0x200 + 1 ∧ t.points = s.points ∧ t.loops.loop = s.loops.loop) ∧
    (s.owes (genGroup g) = false → s.ridge.locked = true → s.grpEn g = true → s.working = true → s.isStandby = false →
      let v := s.untilTheta (s.grpNext g)
      Lands (.anchorOccurrence (.loopGroup g)) s fun t =>
        Tbl.get (fun _ => none) t.loops.running g = some t.tick ∧ t.tick = v.tick ∧ t.reg pgLPE 0x200 = s.reg pgLPE 0x200 + 1 ∧
        ∀ n u, n < 1088 → s.groupLoops g = [n] → s.lpState n = lpRunning → (s.loopRec n).pend = some u →
          let pt := (s.loopRec n).outPt
          let names := v.past.resolveOwn (s.loopOwner n) (fld (s.loopWord n 0x0C) 0 13)
          (t.loopRec n).pend = none ∧
          (Tbl.get (fun _ => none) s.loops.capped g ≠ some (s.grpNext g) → (t.loopRec n).cap = some (v.loopCapture n)) ∧
          (names = some pt → s.ptForced pt = false → (t.loopRec n).lastOut = u ∧
            t.ptStored pt = normalise (s.ptType pt) (convert tFloat32 (s.ptType pt) (BitVec.ofNat 64 u.toNat)).1) ∧
          (names ≠ some pt ∨ s.ptForced pt = true →
            t.ptStored pt = s.ptStored pt ∧ (t.loopRec n).lastOut = (s.loopRec n).lastOut)) ∧
    ((Tbl.get (fun _ => none) s.loops.running g : Option Nat) = none → exec (.loopSampleDone g) s = .next (s.land s)) ∧
    ∀ a, Tbl.get (fun _ => none) s.loops.running g = some a →
      (Lands (.loopSampleDone g) s fun t =>
        (Tbl.get (fun _ => none) t.loops.running g : Option Nat) = none ∧ (s.intc.took = [] → t.srcPend (96 + g) = true) ∧
        t.reg pgLPE 0x044 = word (s.workTo a g) ∧ t.tick = max s.tick (a + s.workTo a g + 1)) ∧
      (∀ n c, n < 1088 → s.groupLoops g = [n] → s.lpState n = lpRunning → (s.loopRec n).cap = some c →
        3 ≤ s.struckBits (.loop n) → Lands (.loopSampleDone g) s fun t =>
          t.lpState n = lpFaulted ∧ fld (t.lpStat n) 2 2 = 3 ∧ t.reg pgLPE 0x204 = s.reg pgLPE 0x204 + 1 ∧
          t.regBit pgLPE 0x010 0 = true ∧ t.points = s.points) ∧
      (∀ n c, 1024 ≤ n → n < 1088 → s.groupLoops g = [n] → s.struckBits (.loop n) = 0 →
        s.lpState n = lpRunning → (s.loopRec n).cap = some c → c.pvBad = false → c.targetBad = false → c.forced = false →
        (s.loopRec n).starting = false → bit (s.lpStat n) 4 = false → bit (s.loopWord n 0x20) 20 = false → s.loopWord n 0x1C = 0 →
        let t' := fun k => (c.tune.getD k 0).toNat
        let e := fsub f32 c.target.toNat c.pv.toNat
        let i := (s.loopWord n 0x60).toNat
        let d := fsub f32 (fmul f32 (t' 3) (s.loopWord n 0x64).toNat)
          (fmul f32 (t' 4) (fsub f32 c.pv.toNat (s.loopRec n).pvPrev.toNat))
        let v := fadd f32 (fadd f32 (fmul f32 (t' 0) e) i) d
        let u := s.outLimit n v
        fnan f32 v = false → Lands (.loopSampleDone g) s fun t =>
          (t.loopRec n).pend = some (word u) ∧ (t.loopRec n).pvPrev = c.pv ∧ (t.loopRec n).cap = none ∧
          t.loopWord n 0x3C = c.target ∧ t.loopWord n 0x38 = c.pv ∧ t.loopWord n 0x64 = word d ∧ t.loopWord n 0x68 = word u ∧
          t.loopWord n 0x60 = word (s.outLimit n
            (fadd f32 i (fmul f32 (t' 5) (fadd f32 (fmul f32 (t' 1) e) (fmul f32 (t' 2) (fsub f32 u v)))))) ∧
          t.lpState n = lpRunning ∧ t.points = s.points)

/-! ### Meter, pulse outputs, sense links -/

/-- O46. Meter and pulse outputs (R315, R317, R326, R340 to R342, R348): the converters' codes are taken for their sample and the set of
eight samples before is processed; an output with a pulse owed at the start of the ft and none on emits one, and ends it after T_ON;
CH_DEF is refused by its checks in order, flushes a current channel that it stops, and locks one that it enables; CH_WRAP bits clear where
data is 1; PLS_SRC and PLS_WEIGHT are refused until the output has drained, and EN for a source that is not enabled. -/
def Obligations.MeterCommands : Prop :=
  ∀ (p : Path) (data : Word) (s : State),
    (∀ codes,
      (s.meter.await = none ∨ s.meterRuns = false → exec (.sampleProcessing codes) s = .next (s.land s)) ∧
      (∀ m at_, s.meter.await = some (m, at_) → s.meterRuns = true →
        let fed : Meter := { s.meter with await := none, done := m, pipe := (m, at_, codes) :: s.meter.pipe.take 11 }
        (fed.pipe.find? (fun e => e.1 + 8 = m) = none → s.meter.closing = false →
          exec (.sampleProcessing codes) s = .next (s.land { s with meter := fed })) ∧
        (fed.pipe.find? (fun e => e.1 + 8 = m) ≠ none → Lands (.sampleProcessing codes) s fun t =>
          t.meter.await = none ∧ t.meter.done = m ∧ t.meter.pipe = fed.pipe ∧ t.meter.closing = false ∧
          t.reg64 pgMTR 0x048 = (s.reg64 pgMTR 0x048 + 1) % 2 ^ 64 ∧ t.regBit pgMTR 0x044 0 = true))) ∧
    (∀ n, n < 8 →
      let x := s.pulse n
      let works := s.started 0 = true ∨ s.started 1 = true
      let u := s.until (x.since + fld x.time 8 8 * ftPerMs)
      (s.plsDrives = false ∨ ¬ works ∨ s.plsOwed n = 0 ∨ x.on = true → exec (.pulseEmit n) s = .next (s.land s)) ∧
      (s.plsDrives = true → works → s.plsOwed n ≠ 0 → x.on = false → u.sampled pgPLS (plsOfs n 0x14) = 0 →
        exec (.pulseEmit n) s = .next (s.land u)) ∧
      (s.plsDrives = true → works → s.plsOwed n ≠ 0 → x.on = false → u.sampled pgPLS (plsOfs n 0x14) ≠ 0 →
       Lands (.pulseEmit n) s fun t =>
        t.pulse n = ⟨true, t.tick, u.sampled pgPLS (plsOfs n 8)⟩ ∧ t.plsOwed n = s.plsOwed n - 1 ∧
        t.tick = u.tick ∧ t.regBit pgPLS (plsOfs n 0x10) 0 = true ∧
        t.reg pgPLS (0x200 + 4 * n) = s.reg pgPLS (0x200 + 4 * n) + 1 ∧ t.plsBacklog n = s.plsBacklog n) ∧
      (x.on = false → exec (.pulseOff n) s = .next (s.land s)) ∧
      (x.on = true → Lands (.pulseOff n) s fun t =>
        t.pulse n = { x with on := false, since := t.tick } ∧ t.tick = max s.tick (x.since + fld x.time 0 8 * ftPerMs) ∧
        t.regBit pgPLS (plsOfs n 0x10) 0 = false ∧
        ∀ k, k ≠ rkey pgPLS (plsOfs n 0x10) → keyPage k ≠ pgINT → t.getKey k = s.getKey k) ∧
      (s.mayWrite p pgPLS →
        let w := settled pgPLS (plsOfs n 0x0C) (plsRow (plsOfs n 0x0C)) .plain 0 data
        let refused := fun (c : Instr) (st : Nat) => Ends c s fun t =>
          t.answered p = ⟨st, 0⟩ ∧ t.regBit pgPLS 0x010 2 = true ∧
          ∀ k, k ≠ rkey pgPLS 0x010 → t.getKey k = s.getKey k
        let bad := bit w 0 = true ∧ s.plsEn n = false ∧ s.plsSourceOk (s.reg pgPLS (plsOfs n 0)) = false
        (bad → refused (.plsCtlWrite p n data) stInvalid) ∧
        (¬ bad → Ends (.plsCtlWrite p n data) s fun t =>
          t.reg pgPLS (plsOfs n 0x0C) = w ∧ t.plsOwed n = s.plsOwed n ∧ t.answered p = ⟨stOk, 0⟩ ∧
          (t.regBit pgPLS (plsOfs n 0x10) 1 = true ↔ s.plsOwed n = 0 ∧ s.plsBacklog n = 0 ∧ bit w 0 = false)) ∧
        ∀ weight,
          let o := plsOfs n (if weight then 4 else 0)
          let v := settled pgPLS o (plsRow o) .plain 0 data
          let absent := weight = false ∧ bit v 8 = false ∧ fld v 0 6 < 52 ∧ s.chExists (fld v 0 6) = false
          (s.regBit pgPLS (plsOfs n 0x10) 1 = false → refused (.plsSrcWrite p n weight data) stInUse) ∧
          (s.regBit pgPLS (plsOfs n 0x10) 1 = true → absent → refused (.plsSrcWrite p n weight data) stInvalid) ∧
          (s.regBit pgPLS (plsOfs n 0x10) 1 = true → ¬ absent → Ends (.plsSrcWrite p n weight data) s fun t =>
            t.reg pgPLS o = v ∧ t.answered p = ⟨stOk, 0⟩ ∧
            ∀ k, k ≠ rkey pgPLS o → k ≠ rkey pgPLS 0x00C → t.getKey k = s.getKey k))) ∧
    ∀ c, c < 52 → s.mayWrite p pgMTR true →
      let w := entSettle pgMTR RegMap.entMeter 0 .plain 0 data
      let refused := fun (st : Nat) => Ends (.chDefWrite p c data) s fun t =>
        t.answered p = ⟨st, 0⟩ ∧ t.reg pgMTR 0x090 = s.reg pgMTR 0x090 + 1 ∧ t.reg pgMTR 0x054 = word (st + 256 * c) ∧
        t.regBit pgMTR 0x010 4 = true ∧ t.meter = s.meter ∧ ∀ o, o < 256 → t.chWord c o = s.chWord c o
      let owner := fld w 0 9 < ctxLimit s.small ∧ s.ctxState (fld w 0 9) ≠ 0
      let relocks := s.chLocked c = true ∧ fld w 20 4 ≠ s.chK c
      let stops := s.chEn c = true ∧ bit w 31 = false
      let used := stops ∧ (s.chPulsed c = true ∨ s.inGroup c = true)
      (s.chExists c = false →
        Answers (.chDefWrite p c data) p pgMTR s (s.undefAt p) ∧ Answers (.chWrapClear p c data) p pgMTR s (s.undefAt p)) ∧
      (s.chExists c = true →
        (s.ctxOf p ≠ 0 → Answers (.chDefWrite p c data) p pgMTR s stDenied) ∧
        (s.ctxOf p = 0 →
          (¬ owner → refused stInvalid) ∧
          (owner → relocks ∨ used → refused stInUse) ∧
          (owner → ¬ relocks → ¬ used → Ends (.chDefWrite p c data) s fun t =>
            t.chWord c 0x00 = w ∧ t.answered p = ⟨stOk, 0⟩ ∧ (bit w 31 = true → t.chLocked c = true) ∧
            (stops → (t.chan c).gap = false) ∧
            (stops → isCurrent c = true → (t.chan c).e = [] ∧ (t.chan c).r = [] ∧ t.reg pgMTR 0x08C = s.reg pgMTR 0x08C + 1) ∧
            (¬ stops → t.meter = s.meter))) ∧
        (s.mayChannel (s.ctxOf p) c = false → Answers (.chWrapClear p c data) p pgMTR s stDenied) ∧
        (s.mayChannel (s.ctxOf p) c = true → exec (.chWrapClear p c data) s =
          .next (s.commit (((s.turnAt pgMTR).setChWord c 0x1C (s.chWord c 0x1C &&& ~~~ (data &&& 0xFF))).answer p stOk 0))))

/-- O47. Sense links (R53, R331 to R335, Table SNS-1): presence, sensed every 2 s, leads from DETECT to POWER, idle symbols to TRAIN,
training with its delay to RUN, a time limit back to DETECT with the supply off until the retry; a trip of the supply leads to FAULT, and
after 2 s to DETECT; a good up frame of a sample that is due brings its sample set and the reply of the head, and another is counted. An
event that the link's state does not expect changes nothing (log entry 3). -/
def Obligations.SenseLinks : Prop :=
  ∀ (k : Nat) (s : State),
    let st := s.linkState k
    let x := s.link k
    let moved := fun (t : State) (new : Nat) (wait : Bool) =>
      t.linkState k = new ∧ t.regBit pgSNS 0x010 0 = true ∧
      t.link k = { x with since := t.tick, wait := wait, lost := 0, good := 0, sets := if new = lkRun then x.sets else [] } ∧
      (∀ j, j ≠ k → t.link j = s.link j)
    (s.linkLives k = false → ∀ rounds fr,
      ∀ c ∈ [Instr.headDetected k, .headIdleSymbols k, .linkTrained k rounds, .linkTimeLimit k, .senseSupplyTrip k, .senseLinkRetry k,
        .upFrame k fr], exec c s = .next (s.land s)) ∧
    (s.linkLives k = true →
      (st ≠ lkDetect ∨ x.wait = true → exec (.headDetected k) s = .next (s.land s)) ∧
      (st = lkDetect → x.wait = false → Lands (.headDetected k) s fun t =>
        moved t lkPower false ∧ t.regBit pgSNS (lnk k 0x084) 8 = true ∧ t.tick = max s.tick (s.nextDetect k)) ∧
      (st ≠ lkPower ∨ x.since + 200 * ftPerMs < s.tick → exec (.headIdleSymbols k) s = .next (s.land s)) ∧
      (st = lkPower → s.tick ≤ x.since + 200 * ftPerMs → Lands (.headIdleSymbols k) s fun t => moved t lkTrain false ∧ t.tick = s.tick) ∧
      (∀ rounds,
        (st ≠ lkTrain ∨ x.since + 50 * ftPerMs < s.tick → exec (.linkTrained k rounds) s = .next (s.land s)) ∧
        (st = lkTrain → s.tick ≤ x.since + 50 * ftPerMs → Lands (.linkTrained k rounds) s fun t =>
          moved t lkRun false ∧ t.reg pgSNS (lnk k 0x088) = word (linkDelay rounds))) ∧
      (st ≠ lkPower → st ≠ lkTrain → exec (.linkTimeLimit k) s = .next (s.land s)) ∧
      (st = lkPower ∨ st = lkTrain → Lands (.linkTimeLimit k) s fun t =>
        moved t lkDetect true ∧ t.regBit pgSNS (lnk k 0x084) 8 = false ∧
        t.tick = max s.tick (x.since + (if st = lkPower then 200 else 50) * ftPerMs + 1)) ∧
      (st < 2 ∨ 5 < st → exec (.senseSupplyTrip k) s = .next (s.land s)) ∧
      (2 ≤ st → st ≤ 5 → Lands (.senseSupplyTrip k) s fun t =>
        moved t lkFault false ∧ t.regBit pgSNS (lnk k 0x084) 9 = true ∧ t.regBit pgSNS 0x010 2 = true ∧
        t.reg pgSNS (lnk k 0x09C) = s.reg pgSNS (lnk k 0x09C) + 1) ∧
      (st = lkFault → Lands (.senseLinkRetry k) s fun t => moved t lkDetect false ∧ t.tick = max s.tick (x.since + 2 * ftPerS)) ∧
      (st = lkDetect → Lands (.senseLinkRetry k) s fun t =>
        let again := x.since + 2 * ftPerS
        t.linkState k = lkDetect ∧ t.link k = { x with wait := false, since := t.tick } ∧
        t.tick = max s.tick (if x.wait then again else max again (s.nextDetect k))) ∧
      (st ≠ lkFault → st ≠ lkDetect → exec (.senseLinkRetry k) s = .next (s.land s)) ∧
      ∀ fr : UpFrame,
        let due := s.framesDue.find? fun n => fr.seq = n % 256
        (s.linkTalks k = false → exec (.upFrame k fr) s = .next (s.land s)) ∧
        (s.linkTalks k = true →
          (upGood fr = false ∨ due = none → exec (.upFrame k fr) s = .next (s.land (s.bump pgSNS (lnk k 0x098)))) ∧
          (∀ n, upGood fr = true → due = some n → Lands (.upFrame k fr) s fun t =>
            (t.link k).sets = (n, fr.samples) :: (x.sets.filter fun e => e.1 ≠ n).take 15 ∧
            (s.headAccess k = none → (t.link k).reply = x.reply) ∧
            (∀ h, s.headAccess k = some h → fr.rstat = 0 → (t.link k).reply = some fr.rdata) ∧
            (∀ h, s.headAccess k = some h → fr.rstat = 1 → (t.link k).reply = some 0) ∧
            t.reg pgSNS (lnk k 0x08C) = word fr.stat.toNat ∧ t.reg pgSNS (lnk k 0x090) = s.reg pgSNS (lnk k 0x090) + 1 ∧
            t.linkState k = st ∧ OnlyPages [pgSNS] { s with links := t.links } t)))

/-! ### Field buses -/

/-- O48. Reception (R357, R361, R371, R374 to R376): a validated frame is counted and goes by the first filter that matches its ID, a
remote frame and one without a match are counted as unmatched; images enter their queues in order; a DALI transaction ends with its
backward frame or with the status of its absence; a UART message and an OSDP reply go to their queues, an osdp_ACK to a poll does not,
each reply takes the next sequence number (log entry 59), and an exchange without a reply is resent or ends. A channel that does not hear,
and an event that none waits for, change nothing (log entry 3). -/
def Obligations.BusReception : Prop :=
  ∀ s : State,
    (∀ ch fr, ch < 6 →
      let img := busImage fr.id.toNat (fr.payload.length % 512) 0 s.tick fr.payload
      let counted := fun t : State => t.reg (busPage ch) 0x104 = s.reg (busPage ch) 0x104 + 1
      let unmatched := fun t : State =>
        counted t ∧ t.reg (busPage ch) 0x108 = s.reg (busPage ch) 0x108 + 1 ∧ t.bus = s.bus ∧ t.sram = s.sram
      (s.busHears ch = false → exec (.canFrameValidated ch fr) s = .next (s.land s)) ∧
      (s.busHears ch = true →
        (fr.remote = true ∨ s.filterFor ch fr.id = none → Lands (.canFrameValidated ch fr) s unmatched) ∧
        (fr.remote = false → ∀ f, s.filterFor ch fr.id = some f →
          let a := s.ind (busPage ch) (16 * f + 8)
          let slot := fld a 8 7
          (fld a 0 2 = 2 → bit (s.imgCfg (busPage ch) slot) 31 = false → Lands (.canFrameValidated ch fr) s fun t => counted t ∧ t.bus = s.bus) ∧
          (fld a 0 2 = 2 → bit (s.imgCfg (busPage ch) slot) 31 = true → Lands (.canFrameValidated ch fr) s fun t =>
            counted t ∧ Tbl.get (fun _ => []) (t.busCh ch).img slot = setFresh img true ∧
            t.busCh ch = { s.busCh ch with img := (t.busCh ch).img, was := (t.busCh ch).was, wasAt := some s.tick } ∧
            (imgFresh (Tbl.get (fun _ => []) (s.busCh ch).img slot) = true →
              t.reg (busPage ch) 0x114 = s.reg (busPage ch) 0x114 + 1) ∧
            (s.masterOf ch (fld (s.imgCfg (busPage ch) slot) 0 3) = true → s.refLate ch = true →
              t.reg (busPage ch) 0x118 = s.reg (busPage ch) 0x118 + 1) ∧
            ∀ k, k ≠ slot → Tbl.get (fun _ => []) (t.busCh ch).img k = Tbl.get (fun _ => []) (s.busCh ch).img k) ∧
          (fld a 0 2 = 3 → Lands (.canFrameValidated ch fr) s fun t => counted t ∧ Receives s t ch slot img (s.busCh ch)) ∧
          (fld a 0 2 < 2 → Lands (.canFrameValidated ch fr) s fun t => counted t ∧ t.bus = s.bus)))) ∧
    (∀ ch frame, ch < 4 →
      (s.busHears (6 + ch) = false → exec (.daliEventFrame ch frame) s = .next (s.land s)) ∧
      (s.busHears (6 + ch) = true → Lands (.daliEventFrame ch frame) s fun t =>
        t.reg (busPage (6 + ch)) 0x104 = s.reg (busPage (6 + ch)) 0x104 + 1 ∧
        (s.filterFor (6 + ch) (frame.setWidth 32) = none →
          t.bus = s.bus ∧ t.reg (busPage (6 + ch)) 0x108 = s.reg (busPage (6 + ch)) 0x108 + 1) ∧
        ∀ f, s.filterFor (6 + ch) (frame.setWidth 32) = some f → fld (s.ind (busPage (6 + ch)) (16 * f + 8)) 0 2 = 3 →
          Receives s t (6 + ch) (fld (s.ind (busPage (6 + ch)) (16 * f + 8)) 8 7) (busImage 3 3 0 s.tick (leBytes 3 frame.toNat))
            (s.busCh (6 + ch)))) ∧
    (∀ ch k, ch < 14 → k < 16 →
      ((∀ m, (k, m) ∉ (s.busCh ch).arriving) → exec (.rxQueueEntry ch k) s = .next (s.land s)) ∧
      ∀ m, (s.busCh ch).arriving.find? (·.1 = k) = some (k, m) → s.creditsOk → s.fabric.struck = [] →
        m.credits ≤ s.crd crFlight → Lands (.rxQueueEntry ch k) s fun t =>
          t.busQueue ch k = s.busQueue ch k ++ [m] ∧ (t.busCh ch).arriving = (s.busCh ch).arriving.eraseP (·.1 = k) ∧
          t.crd crFlight = s.crd crFlight - m.credits ∧ t.crd crQueued = s.crd crQueued + m.credits ∧
          (∀ j, j ≠ k → t.busQueue ch j = s.busQueue ch j) ∧ (∀ j, j ≠ ch → t.busCh j = s.busCh j) ∧
          OnlyPages [busPage ch, pgPool] { s with bus := t.bus } t) ∧
    (∀ ch r, ch < 4 →
      ((s.busCh (6 + ch)).reply = none → exec (.daliBackwardFrame ch r) s = .next (s.land s)) ∧
      ∀ q, (s.busCh (6 + ch)).reply = some q → Lands (.daliBackwardFrame ch r) s fun t =>
        let after : BusCh := { s.busCh (6 + ch) with reply := none, open_ := false }
        match r with
        | .frame b => t.reg (busPage (6 + ch)) 0x104 = s.reg (busPage (6 + ch)) 0x104 + 1 ∧
            Receives s t (6 + ch) q (busImage 2 1 0 s.tick [b]) after
        | .none => t.reg (busPage (6 + ch)) 0x118 = s.reg (busPage (6 + ch)) 0x118 + 1 ∧
            Receives s t (6 + ch) q (busImage 2 0 1 s.tick []) after
        | .corrupt => t.reg (busPage (6 + ch)) 0x130 = s.reg (busPage (6 + ch)) 0x130 + 1 ∧
            Receives s t (6 + ch) q (busImage 2 0 2 s.tick []) after) ∧
    ∀ port, port < 4 →
      let c := 10 + port
      let pg := busPage c
      let b := s.busCh c
      let told := fun addr => ({ b with osdpSeq := Tbl.set (fun _ => 0) b.osdpSeq addr (s.osdpSeqOf c addr % 3 + 1) } : BusCh)
      let hears := s.busHears c = true ∧ s.busMode c = 1
      (∀ bytes : List Byte,
        (¬ hears → exec (.uartMessageEnd port bytes) s = .next (s.land s)) ∧
        (hears → 240 < bytes.length → exec (.uartMessageEnd port bytes) s = .next (s.land (s.bump pg 0x108))) ∧
        (hears → bytes.length ≤ 240 → Lands (.uartMessageEnd port bytes) s fun t =>
          t.reg pg 0x104 = s.reg pg 0x104 + 1 ∧ Receives s t c 8 (busImage 0 bytes.length 0 s.tick bytes) b)) ∧
      (∀ addr bytes,
        (b.open_ = false ∨ b.reply = none ∨ s.flightAddr c ≠ some addr → exec (.osdpReply port addr bytes) s = .next (s.land s)) ∧
        (b.open_ = true → b.reply ≠ none → s.flightAddr c = some addr → b.target = none →
          ∀ e e', b.flight = some (.poll e') → s.entryOf c addr = some e → e < 16 → Lands (.osdpReply port addr bytes) s fun t =>
            t.reg pg 0x104 = s.reg pg 0x104 + 1 ∧ t.pollWord c e 3 = setFld (setBit (s.pollWord c e 3) 0 true) 8 8 0 ∧
            (bytes = [osdpAck] → t.reg pg 0x114 = s.reg pg 0x114 + 1 ∧ t.busCh c = (told addr).idleLine) ∧
            (bytes ≠ [osdpAck] → Receives s t c (fld (s.pollWord c e 2) 8 4)
              (busImage (fld (s.pollWord c e 0) 0 7) bytes.length 0 s.tick bytes) (told addr).idleLine)) ∧
        (b.open_ = true → b.reply ≠ none → s.flightAddr c = some addr → ∀ e rest, b.target = some e → e < 16 → s.entryOf c addr = some e →
          (Lands (.osdpReply port addr (osdpRmacI :: rest)) s fun t =>
            t.busCh c = { told addr with target := none, reply := none, retries := 0 } ∧ bit (t.pollWord c e 3) 1 = true) ∧
          (Lands (.osdpReply port addr (osdpCcrypt :: rest)) s fun t => t.busCh c = { told addr with retries := 0 }))) ∧
      (b.open_ = false ∨ b.reply = none → exec (.osdpReplyTimeout port) s = .next (s.land s)) ∧
      (b.open_ = true → b.reply ≠ none →
        (b.retries < s.regFld pg 0x054 8 4 → Lands (.osdpReplyTimeout port) s fun t =>
          t.reg pg 0x118 = s.reg pg 0x118 + 1 ∧ (t.busCh c).retries = b.retries + 1 ∧ (t.busCh c).flight = b.flight ∧
          OnlyPages [pg] { s with bus := t.bus } t) ∧
        (s.regFld pg 0x054 8 4 ≤ b.retries → Lands (.osdpReplyTimeout port) s fun t =>
          t.reg pg 0x118 = s.reg pg 0x118 + 1 ∧ (t.busCh c).idleLine = t.busCh c ∧
          ∀ addr e, s.flightAddr c = some addr → s.entryOf c addr = some e → e < 16 →
            fld (t.pollWord c e 3) 0 2 = 0 ∧ fld (t.pollWord c e 3) 8 8 = min 255 (fld (s.pollWord c e 3) 8 8 + 1)))

/-- O49. Transmission and channel states (R51, R55, R357, R359, R360, R366 to R372): a channel takes the reference message, the second
frame, a built frame, then the oldest message of the lowest queue; the end of a transmission counts it and gives its credits back; a
bus-off, a bus failure and an overvoltage take the channel down, which empties its transmit queues; CAN recovers on a command, also one of
the ft of its bus-off, and its event. -/
def Obligations.BusTransmission : Prop :=
  ∀ s : State,
    let sound := s.creditsOk ∧ s.fabric.struck = []
    (∀ ch, ch < 14 →
      let b := s.busCh ch
      let pg := busPage ch
      let only := fun (t : State) (nb : BusCh) => t.busCh ch = nb ∧ OnlyPages [] { s with bus := t.bus } t
      (s.busSends ch = false ∨ b.flight ≠ none → exec (.takeForTransmission ch) s = .next (s.land s)) ∧
      (s.busSends ch = true → b.flight = none →
        (isDali ch = true → b.open_ = false ∨ b.second = none → exec (.takeForTransmission ch) s = .next (s.land s)) ∧
        (isRsb ch = true → s.busMode ch ≠ 1 → exec (.takeForTransmission ch) s = .next (s.land s)) ∧
        (sound → isDali ch = true → b.open_ = true → b.ref = none → ∀ m, b.second = some m →
          Lands (.takeForTransmission ch) s fun t => only t { b with flight := some m, second := none }) ∧
        (sound → isCan ch = true ∨ isRsb ch = true ∧ s.busMode ch = 1 →
          (∀ r, b.ref = some r → Lands (.takeForTransmission ch) s fun t => only t { b with flight := some r, ref := none }) ∧
          (b.ref = none → ∀ m, b.second = some m → Lands (.takeForTransmission ch) s fun t => only t { b with flight := some m, second := none }) ∧
          (b.ref = none → b.second = none →
            (∀ o img rest, b.built = (o, img) :: rest → imageBad ch img = false →
              Lands (.takeForTransmission ch) s fun t => only t { b with flight := some (.frame o img), built := Tbl.drop o b.built }) ∧
            (b.built = [] → s.oldestTx ch txQueues = none → exec (.takeForTransmission ch) s = .next (s.land s)) ∧
            (b.built = [] → ∀ k m, s.oldestTx ch txQueues = some (k, m) → imageBad ch m.bytes = false → m.credits ≤ s.crd crQueued →
              Lands (.takeForTransmission ch) s fun t =>
                (t.busCh ch).flight = some (.msg k m false) ∧ t.busQueue ch k = (s.busQueue ch k).drop 1 ∧
                t.crd crQueued = s.crd crQueued - m.credits ∧ t.crd crFlight = s.crd crFlight + m.credits ∧
                ∀ c, t.crdAvail c = s.crdAvail c)))) ∧
      ∀ sent,
        (b.flight = none → exec (.transmissionEnd ch sent) s = .next (s.land s)) ∧
        (∀ occ at_ sk st, b.flight = some (.ref occ at_ sk st) → Lands (.transmissionEnd ch sent) s fun t =>
          t.busCh ch = { b with flight := none, refDone := if sent then some s.tick else b.refDone } ∧
          (sent = true → t.reg pg 0x12C = s.reg pg 0x12C + 1 ∧ t.reg pg 0x068 = word (s.tick - at_) ∧ t.reg pg 0x06C = word (occ % 64)) ∧
          (sent = false → t.reg pg 0x130 = s.reg pg 0x130 + 1 ∧ t.regBit pg 0x010 3 = true)) ∧
        (∀ o img, b.flight = some (.frame o img) → Lands (.transmissionEnd ch sent) s fun t =>
          t.busCh ch = { b with flight := none, open_ := b.open_ && !isDali ch,
                                lastSent := if sent then Tbl.set (fun _ => []) b.lastSent o img else b.lastSent } ∧
          t.reg pg 0x100 = s.reg pg 0x100 + word (b2n sent) ∧ OnlyPages [pg] { s with bus := t.bus } t) ∧
        (∀ e, b.flight = some (.poll e) → Lands (.transmissionEnd ch sent) s fun t =>
          t.busCh ch = if sent then { b with reply := some 0 } else b.idleLine) ∧
        (∀ k m again, b.flight = some (.msg k m again) → s.creditsOk → m.ctx < 512 → m.credits ≤ s.crd crFlight →
          let id := imgWord m.bytes 0
          let back := fun t : State =>
            t.crd crFlight = s.crd crFlight - m.credits ∧ t.crdAvail m.ctx = s.crdAvail m.ctx + m.credits ∧ t.sysState = s.sysState
          (sent = false → Lands (.transmissionEnd ch sent) s fun t =>
            t.busCh ch = b.idleLine ∧ t.reg pg 0x11C = s.reg pg 0x11C + 1 ∧ back t) ∧
          (sent = true → Lands (.transmissionEnd ch sent) s fun t =>
            t.reg pg 0x100 = s.reg pg 0x100 + 1 ∧
            (isRsb ch = true ∧ s.busMode ch = 2 → t.busCh ch = { b with reply := some 0 } ∧ t.crd crFlight = s.crd crFlight) ∧
            (¬ (isRsb ch = true ∧ s.busMode ch = 2) →
              (isDali ch = false → t.busCh ch = { b with flight := none } ∧ back t) ∧
              (isDali ch = true → again = false ∧ id / 16 % 2 = 1 →
                t.busCh ch = { b with flight := none, second := some (.msg k m true) } ∧ t.crd crFlight = s.crd crFlight) ∧
              (isDali ch = true → ¬ (again = false ∧ id / 16 % 2 = 1) →
                t.busCh ch = { b with flight := none, open_ := decide (id / 32 % 2 = 1),
                                      reply := if id / 32 % 2 = 1 then some (fld (s.qcfg ch k) 24 4) else none } ∧ back t))))) ∧
    (∀ ch p, ch < 6 →
      let pg := busPage ch
      let passive := csPassive
      (s.mayWrite p pg →
        (s.canStat ch ≠ csBusOff → Ends (.canRecover p ch) s fun t =>
          t = { s with bus := t.bus, last := t.last, ports := [pg] } ∧ t.busCh ch = { s.busCh ch with recoverAt := some s.tick } ∧
          (∀ j, j ≠ ch → t.busCh j = s.busCh j) ∧ t.answered p = ⟨stOk, 0⟩) ∧
        (s.canStat ch = csBusOff → Ends (.canRecover p ch) s fun t =>
          t.answered p = ⟨stOk, 0⟩ ∧ t.reg pg 0x054 = word 11 ∧ OnlyPages [pg] { s with last := t.last, ports := [pg] } t)) ∧
      (s.regBit pg 0x054 3 = false → exec (.canRecovered ch) s = .next (s.land s)) ∧
      (s.regBit pg 0x054 3 = true → Lands (.canRecovered ch) s fun t => t.reg pg 0x054 = 1 ∧ t.reg pg 0x058 = 0 ∧ OnlyPages [pg] s t) ∧
      (s.regBit pg 0x054 4 = false → exec (.canIntegrated ch) s = .next (s.land s)) ∧
      (s.regBit pg 0x054 4 = true → Lands (.canIntegrated ch) s fun t => t.reg pg 0x054 = 1 ∧ OnlyPages [pg] s t) ∧
      ∀ tec rec,
        (s.busHears ch = false → exec (.canBusError ch tec rec) s = .next (s.land s)) ∧
        (s.busHears ch = true → Lands (.canBusError ch tec rec) s fun t =>
          t.reg pg 0x134 = s.reg pg 0x134 + 1 ∧ t.reg pg 0x058 = word (tec % 512 + 65536 * (rec % 256)) ∧
          (255 < tec → t.canStat ch = csBusOff ∧ bit (t.reg pg 0x054) 3 = decide ((s.busCh ch).recoverAt = some s.tick) ∧
            t.regBit pg 0x010 0 = true ∧ t.reg pg 0x138 = s.reg pg 0x138 + 1 ∧
            (t.busCh ch).flight = none ∧ ∀ k, k < 8 → t.busQueue ch k = []) ∧
          (tec ≤ 255 → 127 < tec ∨ 127 < rec →
            t.canStat ch = passive ∧ (s.canStat ch = csActive → t.regBit pg 0x010 1 = true)) ∧
          (tec ≤ 127 → rec ≤ 127 → t.canStat ch = csActive ∧ OnlyPages [pg] s t))) ∧
    ∀ n p, n < 4 →
      let ch := 6 + n
      let pg := busPage ch
      let emptied := fun t : State => (t.busCh ch).flight = none ∧ ∀ k, k < 8 → t.busQueue ch k = []
      let held := (s.busCh ch).open_ = true ∧ (s.busCh ch).flight ≠ none
      (¬ held → exec (.daliCollision n) s = .next (s.land s)) ∧
      (held → Lands (.daliCollision n) s fun t =>
        t.busCh ch = { s.busCh ch with open_ := false, flight := (s.busCh ch).flight.map Sending.fromStart } ∧
          t.reg pg 0x128 = s.reg pg 0x128 + 1 ∧ t.regBit pg 0x010 3 = true) ∧
      (s.regBit pg 0x048 2 = true → exec (.busFail n) s = .next (s.land s)) ∧
      (s.regBit pg 0x048 2 = false → exec (.busFailClear n) s = .next (s.land s) ∧ Lands (.busFail n) s fun t =>
        t.regBit pg 0x048 2 = true ∧ t.regBit pg 0x010 1 = true ∧ (s.busDown ch = false → emptied t) ∧
        (s.busDown ch = true → t.bus = s.bus)) ∧
      (s.regBit pg 0x048 2 = true → Lands (.busFailClear n) s fun t =>
        t.regBit pg 0x048 2 = false ∧ t.regBit pg 0x010 1 = true ∧ OnlyPages [pg] s t) ∧
      (Lands (.overvolt n) s fun t =>
        t.regBit pg 0x04C 0 = true ∧ t.regBit pg 0x010 0 = true ∧ t.daliSupplyOn ch = false ∧ (s.busDown ch = false → emptied t)) ∧
      (s.mayWrite p pg → Ends (.overvoltClear p n) s fun t =>
        t.regBit pg 0x04C 0 = false ∧ t.answered p = ⟨stOk, 0⟩ ∧ OnlyPages [pg] { s with last := t.last, ports := [pg] } t) ∧
      (s.daliSupplyOn ch = false → exec (.daliSupplyCutoff n) s = .next (s.land s)) ∧
      (s.daliSupplyOn ch = true → Lands (.daliSupplyCutoff n) s fun t =>
        t.daliSupplyOn ch = false ∧ t.regBit pg 0x048 1 = true ∧ OnlyPages [pg] s t) ∧
      let u := s.setBus ch { s.busCh ch with sched := true }
      let on := s.owes (genDali n) = true ∨ s.ridge.locked = true ∧ s.regBit pg 0x050 31 = true
      (¬ on → exec (.anchorOccurrence (.daliSlot n)) s = .next (s.land s)) ∧
      (on → u.busSends ch = false → Lands (.anchorOccurrence (.daliSlot n)) s fun t => t.bus = u.bus) ∧
      (on → u.busSends ch = true →
        ((s.busCh ch).open_ = true → Lands (.anchorOccurrence (.daliSlot n)) s fun t =>
          t.bus = u.bus ∧ t.reg pg 0x12C = s.reg pg 0x12C + 1) ∧
        ((s.busCh ch).open_ = false → ∀ x, (s.busCh ch).flight = some x → Lands (.anchorOccurrence (.daliSlot n)) s fun t =>
          t.busCh ch = { s.busCh ch with open_ := true, sched := true }))

/-- O50. Configuration of the field buses (R75, R180, R356, R358, R361, R363, R367, R378, R379): each write settles and applies whole, or
is refused with its status, table and entry in the page's refusal register and changes nothing else. -/
def Obligations.BusConfiguration : Prop :=
  ∀ (p : Path) (data : Word) (s : State) (ch : Nat), ch < 14 → s.mayWrite p (busPage ch) →
    let pg := busPage ch
    let refuses := fun (c : Instr) (st tab e : Nat) => Ends c s fun t =>
      t.answered p = ⟨st, 0⟩ ∧ t.reg pg 0x07C = word (st + 256 * tab + 65536 * e) ∧ t.regBit pg 0x010 4 = true ∧
      t = { s with regs := t.regs, dirty := t.dirty, intc := t.intc, entry := t.entry, last := t.last, ports := [pg] } ∧
      ∀ k, k ≠ rkey pg 0x07C → k ≠ rkey pg 0x010 → keyPage k ≠ pgPWR → t.getKey k = s.getKey k
    let held := fun (sp a o : Nat) => s.latchedWord p sp a o (s.ind pg (a + o))
    (∀ k, k < 16 →
      let c := Instr.qcfgWrite p ch k data
      let w := settled pg 0x200 (qcfgRow ch k) .plain 0 data
      let old := s.qcfg ch k
      let locked := s.busQueue ch k ≠ [] ∧ (fld w 0 9 ≠ fld old 0 9 ∨ bit old 15 = true ∧ bit w 15 = false)
      (locked → refuses c stInUse 0 k) ∧
      (¬ locked → Ends (.qcfgWrite p ch k data) s fun t =>
        t.qcfg ch k = w ∧ t.answered p = ⟨stOk, 0⟩ ∧ ∀ x, x ≠ rkey pg (0x200 + 4 * k) → x ≠ rkey pg 0x00C → t.getKey x = s.getKey x)) ∧
    (ch = 0 → ∀ c,
      let cmd := Instr.crdAllocWrite p c data
      let new := fld data 0 13
      let old := s.crdAlloc c
      (ctxLimit s.small ≤ c → Answers (.crdAllocWrite p c data) p pg s stOk) ∧
      (c < ctxLimit s.small →
        (s.ctxState c = 0 → refuses cmd stInvalid 6 c) ∧
        (s.ctxState c ≠ 0 → old + s.crd crFree < new → refuses cmd stCapacity 6 c) ∧
        (s.ctxState c ≠ 0 → new + s.crdAvail c < old → refuses cmd stInUse 6 c) ∧
        (s.ctxState c ≠ 0 → new ≤ old + s.crd crFree → old ≤ new + s.crdAvail c → s.creditsOk → Ends (.crdAllocWrite p c data) s fun t =>
          t.answered p = ⟨stOk, 0⟩ ∧ t.crdAlloc c = new ∧ t.crdAvail c = s.crdAvail c + new - old ∧
          t.crd crFree = s.crd crFree + old - new ∧ t.crd crQuota = s.crd crQuota + new - old ∧
          t.crd 0x318 = max (s.crd 0x318) (creditTotal s.small - t.crd crFree) ∧
          (t.crd crFree < (s.reg pgPool 0x314).toNat → (s.reg pgPool 0x314).toNat ≤ s.crd crFree → t.regBit pgPool 0x010 5 = true)))) ∧
    (ch < 6 → ∀ which r,
      let c := Instr.bitTimingWrite p ch which data
      let o := timingOfs which
      RegMap.rowOf pg o = some r →
        (s.busMode ch ≠ 0 → refuses c stInUse 7 o) ∧
        (s.busMode ch = 0 → Ends (.bitTimingWrite p ch which data) s fun t =>
          t.answered p = ⟨stOk, 0⟩ ∧ t.reg pg o = clampBrp which (nbtDiv (s.reg pg 0x048)) (settled pg o r .plain (s.reg pg o) data) ∧
          ∀ x, x ≠ rkey pg o → x ≠ rkey pg 0x00C → t.getKey x = s.getKey x)) ∧
    (ch < 10 → ∀ f, f < filterCount ch →
      let w := clampAct ch (entSettle pg RegMap.entFilter 8 .plain 0 data)
      let a := 16 * f
      Ends (.fltActWrite p ch f data) s fun t =>
        t.answered p = ⟨stOk, 0⟩ ∧ t.ind pg (a + 8) = w ∧ t.ind pg a = held (spBus pg 0) a 0 ∧ t.ind pg (a + 4) = held (spBus pg 0) a 4 ∧
        t.reg pg 0x070 = s.reg pg 0x070 + word (b2n (decide (fld w 0 2 ≠ 0))) - word (b2n (decide (fld (s.ind pg (a + 8)) 0 2 ≠ 0)))) ∧
    (ch < 10 → ∀ o, o < 64 →
      let c := Instr.ofCfgWrite p ch o data
      let w := entSettle pg RegMap.entOut 8 .plain 0 data
      let a := 0x030000 + 16 * o
      let locked := fld w 0 3 ≠ fld (s.ind pg (a + 8)) 0 3 ∧ s.mapped ch o true = true
      (locked → refuses c stInUse 3 o) ∧
      (¬ locked → Ends (.ofCfgWrite p ch o data) s fun t =>
        t.answered p = ⟨stOk, 0⟩ ∧ t.ind pg (a + 8) = w ∧ t.ind pg a = held (spBus pg 1) a 0 ∧ t.ind pg (a + 4) = held (spBus pg 1) a 4 ∧
        ∀ x, x ≠ ikey pg a → x ≠ ikey pg (a + 4) → x ≠ ikey pg (a + 8) → t.getKey x = s.getKey x)) ∧
    (ch < 10 → ∀ m, m < mapCount ch →
      let c := Instr.mapDefWrite p ch m data
      let w := entSettle pg RegMap.entMap 4 .plain 0 data
      let a := 0x040000 + 8 * m
      let ptw := held (spBus pg 2) a 0
      let pt := fld ptw 0 13
      let wasInput := bit (s.mapDef ch m) 31 && !mapOut (s.mapDef ch m)
      let applied := fun t : State => t.answered p = ⟨stOk, 0⟩ ∧ t.mapDef ch m = w ∧ t.ind pg a = ptw
      (bit w 31 = false → Ends (.mapDefWrite p ch m data) s fun t => applied t ∧ (wasInput = true → t.ptKind (s.mapPt ch m) = wkNone)) ∧
      (bit w 31 = true → s.mapInvalid ch m pt w = true → refuses c stInvalid 4 m) ∧
      (bit w 31 = true → s.mapInvalid ch m pt w = false →
        (mapOut w = true → Ends (.mapDefWrite p ch m data) s applied) ∧
        (mapOut w = false →
          let kept := s.dropLatch p (spBus pg 2)
          let cleared := if wasInput then kept.setWriter (s.mapPt ch m) wkNone 0 else kept
          let taken := cleared.ptKind pt ≠ wkNone ∨ s.comingWriter pt = true
          let staged := (cleared.setInd pg a ptw).setInd pg (a + 4) w
          (taken → refuses c stWriterConflict 4 m) ∧
          (¬ taken → staged.budgetOk = false → refuses c stBudget 4 m) ∧
          (¬ taken → staged.budgetOk = true → Ends (.mapDefWrite p ch m data) s fun t => applied t ∧ t.ptKind pt = wkBus)))) ∧
    (∀ port, ch = 10 + port → ∀ e, e < 16 →
      let c := Instr.pollDefWrite p port e data
      let sp := spBus pg 3
      let a := 0x050000 + 16 * e
      let w := entSettle pg RegMap.entPoll 8 .plain 0 data
      let adr :=
        if s.hasLatched p sp a 0 then entSettle pg RegMap.entPoll 0 .plain 0 (s.latchedWord p sp a 0 0) else s.pollWord ch e 0
      let key := held sp a 4
      let slot := fld key 0 10
      let bad := keyLimit s.small ≤ slot ∨ s.keyOwner slot ≠ 0 ∧ s.keyOwner slot ≠ fld (s.qcfg ch (fld w 8 4)) 0 9
      (bad → refuses c stInvalid 5 e) ∧
      (¬ bad → Ends (.pollDefWrite p port e data) s fun t =>
        t.answered p = ⟨stOk, 0⟩ ∧ t.pollWord ch e 0 = adr ∧ t.pollWord ch e 1 = key ∧ t.pollWord ch e 2 = w ∧ t.pollWord ch e 3 = 0)) ∧
    ∀ n, ch = 6 + n → n < 4 →
      let c := Instr.daliSupplySetting p n data
      let w := settled pg 0x044 daliPwrRow .plain 0 data
      let need := s.budgetWith (s.daliCurrent - s.regFld pg 0x044 0 7 + fld w 0 7)
      (inputLimit s.small < need → refuses c stCapacity 7 0x044 ∧ Ends (.daliSupplySetting p n data) s fun t => t.regBit pgPWR 0x010 5 = true) ∧
      (need ≤ inputLimit s.small → Ends (.daliSupplySetting p n data) s fun t =>
        t.answered p = ⟨stOk, 0⟩ ∧ t.reg pg 0x044 = w ∧ t.regBit pg 0x048 1 = false ∧ t.reg pgPWR 0x060 = word need)

/-! ### Ethernet and the register tunnel -/

/-- O51. Ethernet ports (R56, R382, R384 to R391): links come and go on ready uplinks with their speed and EEE; the wake time resolves to
the larger of TW_MIN and the partner's request; only an optical transceiver is accepted; collisions, PLCA and frames count as Table NET-3
says. -/
def Obligations.EthernetPorts : Prop :=
  ∀ s : State,
    (∀ port gigabit eee, port < 4 →
      let pg := netPage port
      (s.portReady port = false → exec (.ethLinkChange port true gigabit eee) s = .next (s.land s) ∧
        exec (.ethLinkChange port false gigabit eee) s = .next (s.land s)) ∧
      let speed := s.regFld pg 0x040 2 2
      let fast := port = 2 ∨ speed = 2 ∨ speed = 0 ∧ gigabit = true
      (s.portReady port = true → s.regBit pg 0x044 0 = false → exec (.ethLinkChange port false gigabit eee) s = .next (s.land s) ∧
        Lands (.ethLinkChange port true gigabit eee) s fun t =>
        t.regBit pg 0x044 0 = true ∧ (fast → t.regFld pg 0x044 1 2 = 2) ∧ (¬ fast → t.regFld pg 0x044 1 2 = 1) ∧ t.regBit pg 0x010 0 = true ∧
        (t.regBit pg 0x044 3 = true ↔ eee = true ∧ port = 3 ∧ s.regBit pg 0x040 4 = true ∧ s.regBit pg 0x040 1 = true) ∧
        (port = 3 → t.net.partnerTw = none ∧
          t.regFld (pgUPL 1) 0x04C 0 16 =
            max (s.regFld (pgUPL 1) 0x048 16 16) (if t.regFld pg 0x044 1 2 = 2 then 17 else 30))) ∧
      (s.portReady port = true → s.regBit pg 0x044 0 = true → exec (.ethLinkChange port true gigabit eee) s = .next (s.land s) ∧
        Lands (.ethLinkChange port false gigabit eee) s fun t =>
        t.regFld pg 0x044 0 6 = 0 ∧ t.reg pg 0x120 = s.reg pg 0x120 + 1 ∧ t.regBit pg 0x010 0 = true ∧
        (port ≠ 3 → OnlyPages [pg] s t)) ∧
      ∀ octets fcs,
        let listens := if port < 2 then s.t1sUp port = true else s.regBit pg 0x044 0 = true
        (¬ listens → exec (.ethFrameReceived port octets fcs) s = .next (s.land s)) ∧
        (listens → fcs = false → exec (.ethFrameReceived port octets fcs) s = .next (s.land (s.bump pg 0x110))) ∧
        (listens → fcs = true → 1522 < octets → exec (.ethFrameReceived port octets fcs) s = .next (s.land (s.bump pg (if port < 2 then 0x12C else 0x114)))) ∧
        (listens → fcs = true → octets ≤ 1522 → Lands (.ethFrameReceived port octets fcs) s fun t =>
          let total := Tbl.get (fun _ => 0) s.net.octets port + octets
          t.reg pg 0x108 = s.reg pg 0x108 + 1 ∧ t.reg pg 0x10C = s.reg pg 0x10C + word (total / 256) ∧
          Tbl.get (fun _ => 0) t.net.octets port = total % 256 ∧ OnlyPages [pg] { s with net := t.net } t)) ∧
    (∀ wake, (s.regBit (pgUPL 1) 0x044 0 = false → exec (.lldpEeeTlv wake) s = .next (s.land s)) ∧
      (s.regBit (pgUPL 1) 0x044 0 = true → Lands (.lldpEeeTlv wake) s fun t =>
        let tw := max (s.regFld (pgUPL 1) 0x048 16 16) wake % 65536
        t.net.partnerTw = some wake ∧ t.regFld (pgUPL 1) 0x04C 0 16 = tw ∧
        (tw ≠ s.regFld (pgUPL 1) 0x04C 0 16 → t.regBit (pgUPL 1) 0x010 2 = true))) ∧
    (let idle := s.regBit (pgUPL 1) 0x044 0 = true ∧ s.regBit (pgUPL 1) 0x044 3 = true ∧ s.regBit (pgUPL 1) 0x040 4 = true ∧
        s.regBit (pgUPL 1) 0x044 4 = false
     (¬ idle → exec .lpiEntry s = .next (s.land s)) ∧
     (idle → Lands .lpiEntry s fun t =>
       t.regBit (pgUPL 1) 0x044 4 = true ∧ t.reg (pgUPL 1) 0x124 = s.reg (pgUPL 1) 0x124 + 1 ∧ OnlyPages [pgUPL 1] s t)) ∧
    (∀ p u data, u < 2 → s.mayWrite p (pgUPL u) →
      let old := s.reg (pgUPL u) 0x040
      let new := portCtlOf u (settled (pgUPL u) 0x040 portCtlRow .plain old data)
      Ends (.portCtlWrite p u data) s fun t =>
        t.answered p = ⟨stOk, 0⟩ ∧ t.reg (pgUPL u) 0x040 = new ∧
        (fld (portCtlOf u old) 1 3 ≠ fld new 1 3 ∨ bit new 0 = false → t.regBit (pgUPL u) 0x044 0 = false) ∧
        (fld (portCtlOf u old) 1 3 = fld new 1 3 → bit new 0 = true → t.reg (pgUPL u) 0x044 = s.reg (pgUPL u) 0x044)) ∧
    (∀ present optical, Lands (.sfpPresenceChange present optical) s fun t =>
      t.net.accepted = (present && optical) ∧ t.net.cache = [] ∧ t.regBit (pgUPL 0) 0x010 1 = true ∧
      (t.regBit (pgUPL 0) 0x044 8 = true ↔ present = false) ∧ (t.regBit (pgUPL 0) 0x044 11 = true ↔ present = true ∧ optical = false) ∧
      ((present && optical) = false → t.regBit (pgUPL 0) 0x044 0 = false)) ∧
    (∀ bytes, (s.net.accepted = false → exec (.sfpCacheRefresh bytes) s = .next (s.land s)) ∧
      (s.net.accepted = true → Lands (.sfpCacheRefresh bytes) s fun t =>
        t.tick = max s.tick (s.net.refreshed + ftPerS) ∧ t.net.refreshed = t.tick ∧
        ∀ a, a < 512 → Tbl.get (fun _ => 0) t.net.cache a = (bytes[a]?).getD 0)) ∧
    ∀ port, port < 2 →
      let pg := pgT1S port
      (s.t1sSends port = false → ∀ late, exec (.t1sCollision port late) s = .next (s.land s)) ∧
      (s.t1sSends port = true →
        (Lands (.t1sCollision port true) s fun t =>
          t.attempts port = 0 ∧ t.reg pg 0x118 = s.reg pg 0x118 + 1 ∧ t.reg pg 0x120 = s.reg pg 0x120 + 1 ∧ t.regBit pg 0x010 1 = true) ∧
        (Lands (.t1sCollision port false) s fun t =>
          t.reg pg 0x114 = s.reg pg 0x114 + 1 ∧ ∃ n, (n = 1 ∨ n = s.attempts port + 1) ∧
            (n < 16 → t.attempts port = n ∧ Tbl.get (fun _ => 0) t.net.backoff port < 2 ^ min n 10 ∧ t.fresh = s.fresh + 2 ∧
              t.reg pg 0x11C = s.reg pg 0x11C) ∧
            (16 ≤ n → t.attempts port = 0 ∧ t.fresh = s.fresh + 1 ∧ t.reg pg 0x11C = s.reg pg 0x11C + 1 ∧ t.reg pg 0x120 = s.reg pg 0x120 ∧
              t.regBit pg 0x010 2 = true))) ∧
      (∀ p burst data, s.mayWrite p pg →
        let o := if burst then 0x048 else 0x044
        (s.regFld pg 0x040 0 2 ≠ 0 → Ends (.plcaWrite p port burst data) s fun t =>
          t.answered p = ⟨stInUse, 0⟩ ∧ t.regBit pg 0x010 3 = true ∧
          ∀ k, k ≠ rkey pg 0x010 → t.getKey k = s.getKey k) ∧
        (s.regFld pg 0x040 0 2 = 0 → Ends (.plcaWrite p port burst data) s fun t =>
          t.answered p = ⟨stOk, 0⟩ ∧ t.reg pg o = settled pg o (plcaRow burst) .plain (s.reg pg o) data ∧
          ∀ k, k ≠ rkey pg o → k ≠ rkey pg 0x00C → t.getKey k = s.getKey k)) ∧
      ∀ ok,
        let changes := s.t1sUp port = true ∧ s.regFld pg 0x040 0 2 = 2 ∧ s.regBit pg 0x04C 0 ≠ ok
        (¬ changes → exec (.plcaStatusChange port ok) s = .next (s.land s)) ∧
        (changes → Lands (.plcaStatusChange port ok) s fun t =>
          t.regBit pg 0x04C 0 = ok ∧ t.regBit pg 0x010 0 = true ∧ t.reg pg 0x128 = s.reg pg 0x128 + word (b2n (!ok)))

/-- O52. The register tunnel (R393 to R400, R404): a datagram is discarded and counted by its first defect, or enters the ingress queue,
decrypted, and opens its session with its key; a request is handled by its place in the sequence, with its replies; a session closes when
it idles, on a command, or when it is disabled, with the cause; SES_DEF applies whole or is refused. -/
def Obligations.TunnelSessions : Prop :=
  ∀ s : State,
    (∀ g : Gram,
      let via := g.via
      let bytes := g.bytes
      let addr := g.addr
      let port := g.port
      let n := gramSession bytes
      let hears := s.tunnelRuns = true ∧ s.regBit pgTUN 0x044 via = true ∧ s.portUp via = true
      let isOpen := s.sesState n = sesOpen
      let stranger := isOpen ∧ s.sesPeerLock n = true ∧ ((s.session n).addr ≠ addr ∨ (s.session n).port ≠ port)
      (¬ hears → exec (.tunnelDatagram g) s = .next (s.land s)) ∧
      (hears → s.badHeader bytes = true → exec (.tunnelDatagram g) s = .next (s.land (s.bump pgTUN 0x108))) ∧
      (hears → s.badHeader bytes = false →
        (stranger → exec (.tunnelDatagram g) s = .next (s.land (s.bump pgTUN 0x10C))) ∧
        (¬ stranger → s.authFails bytes = true → Lands (.tunnelDatagram g) s fun t =>
          t.reg pgTUN 0x110 = s.reg pgTUN 0x110 + 1 ∧ t.regBit pgTUN 0x010 0 = true ∧ OnlyPages [pgTUN] s t) ∧
        (¬ stranger → s.authFails bytes = false → ∃ t, exec (.tunnelDatagram g) s = .next (s.land t) ∧
          t.reg pgTUN 0x100 = s.reg pgTUN 0x100 + 1 ∧ t.sesState n = sesOpen ∧ (t.session n).lastAt = s.tick ∧
          (¬ isOpen → (t.session n).addr = addr ∧ (t.session n).port = port ∧ (t.session n).key = s.keyMat (s.sesKey n) ∧
            t.reg pgTUN 0x04C = s.reg pgTUN 0x04C + 1 ∧ t.regBit pgTUN 0x010 1 = true) ∧
          (s.tun.ingress.length < 64 → t.tun.ingress = s.tun.ingress ++ [s.gramOpened bytes addr port] ∧
            t.reg pgTUN 0x050 = word (s.tun.ingress.length + 1)) ∧
          (64 ≤ s.tun.ingress.length → t.tun.ingress = s.tun.ingress ∧ t.reg pgTUN 0x104 = s.reg pgTUN 0x104 + 1 ∧
            t.regBit pgTUN 0x010 2 = true)))) ∧
    (s.closed ≠ some s.tick → s.tun.ingress = [] → exec .tunnelRequest s = .next (s.commit s)) ∧
    (∀ d rest, s.closed ≠ some s.tick → s.tun.ingress = d :: rest →
      let n := d.session
      let x := s.session n
      let next := s.sesNext n
      (s.tunnelRuns = false ∨ s.tun.run.isSome = true → exec .tunnelRequest s = .next (s.commit s)) ∧
      (s.tunnelRuns = true → s.tun.run = none →
        let fresh := fun (t : State) (status : Nat) (nextNow : Nat) (ops : List (Nat × Word)) =>
          t.tun.sent = some ⟨n, d.flags, status, s.sesReply n, d.seq, nextNow, ops,
            replyBytes (s.sesKeyBytes n) n d.flags status (s.sesReply n) d.seq nextNow ops⟩ ∧ t.tun.ingress = rest ∧
          t.reg pgTUN 0x050 = word rest.length ∧ t.sesReply n = (s.sesReply n + 1) % 2 ^ 64 ∧
          t.reg pgTUN 0x12C = s.reg pgTUN 0x12C + 1
        (next + 3 < d.seq → Ends .tunnelRequest s fun t =>
          fresh t tsWindow next [] ∧ t.reg pgTUN 0x120 = s.reg pgTUN 0x120 + 1) ∧
        (next < d.seq → d.seq ≤ next + 3 → x.held.any (fun e => e.1.seq = d.seq) = true → Ends .tunnelRequest s fun t =>
          t.tun.ingress = rest ∧ t.reg pgTUN 0x114 = s.reg pgTUN 0x114 + 1 ∧ t.session n = x) ∧
        (next < d.seq → d.seq ≤ next + 3 → x.held.any (fun e => e.1.seq = d.seq) = false → Ends .tunnelRequest s fun t =>
          t.tun.ingress = rest ∧ t.session n = { x with held := x.held ++ [(d, s.tick)] }) ∧
        (d.seq < next → ∀ r, x.cache.find? (fun r => r.1 = d.seq) = some r → Ends .tunnelRequest s fun t =>
          t.tun.sent = some r.2 ∧ t.tun.ingress = rest ∧ t.reg pgTUN 0x118 = s.reg pgTUN 0x118 + 1 ∧ t.session n = x) ∧
        (d.seq < next → x.cache.find? (fun r => r.1 = d.seq) = none → Ends .tunnelRequest s fun t =>
          fresh t tsStale next [] ∧ t.reg pgTUN 0x11C = s.reg pgTUN 0x11C + 1) ∧
        (d.seq = next → next + 1 < 2 ^ 64 → d.flags = 0 → x.held = [] → (∀ o ∈ d.ops, o.opcode ≠ 1 ∧ o.opcode ≠ 2) →
          Ends .tunnelRequest s fun t =>
            fresh t 0 (next + 1) (d.ops.map fun _ => (tsBadOp, 0)) ∧ t.sesNext n = next + 1 ∧
            (t.session n).cache.head?.map (·.1) = some d.seq ∧ (t.session n).cache.length ≤ 4 ∧
            t.reg pgTUN 0x128 = s.reg pgTUN 0x128))) ∧
    ∀ n, 1 ≤ n → n < 512 →
      let x := s.session n
      let closed := fun (t : State) (cause : Nat) =>
        t.sesState n = sesClosed ∧ fld (t.sesWord n 0x08) 8 3 = cause ∧ (t.session n).held = [] ∧ (t.session n).cache = [] ∧
        t.reg pgTUN 0x04C = s.reg pgTUN 0x04C - 1 ∧ t.regBit pgTUN 0x010 1 = true
      (oldestHeld x.held = none → exec (.reorderTimeout n) s = .next (s.land s)) ∧
      (∀ d at_, oldestHeld x.held = some (d, at_) → Lands (.reorderTimeout n) s fun t =>
        t.tick = max s.tick (at_ + s.regFld pgTUN 0x048 16 8 * ftPerMs + 1) ∧
        (t.session n).held = x.held.filter (fun e => e.1.seq < d.seq) ∧
        t.reg pgTUN 0x124 = s.reg pgTUN 0x124 + word (x.held.filter fun e => d.seq ≤ e.1.seq).length) ∧
      (s.sesState n ≠ sesOpen → exec (.sessionIdle n) s = .next (s.land s)) ∧
      (s.sesState n = sesOpen → Lands (.sessionIdle n) s fun t =>
        closed t 2 ∧ t.tick = max s.tick (x.lastAt + s.regFld pgTUN 0x048 0 16 * ftPerS + 1)) ∧
      ∀ p, s.mayWrite p pgTUN →
        (s.sesState n ≠ sesOpen → Answers (.sesCtlClose p n) p pgTUN s stOk) ∧
        (s.sesState n = sesOpen → Ends (.sesCtlClose p n) s fun t => closed t 3 ∧ t.answered p = ⟨stOk, 0⟩) ∧
        ∀ data,
          let w := entSettle pgTUN RegMap.entSession 4 .plain 0 data
          let key := s.latchedWord p spSession (32 * n) 0 (s.sesWord n 0)
          let c := fld w 0 9
          let k := fld key 0 10
          let bad := ctxLimit s.small ≤ c ∨ s.ctxState c = 0 ∨ s.sesKeyOk c k = false
          let moved := s.sesState n = sesOpen ∧ (c ≠ s.sesCtx n ∨ k ≠ s.sesKey n)
          let refuses := fun st => Ends (.sesDefWrite p n data) s fun t =>
            t.answered p = ⟨st, 0⟩ ∧ t.regBit pgTUN 0x010 3 = true ∧
            ∀ x, x ≠ rkey pgTUN 0x010 → t.getKey x = s.getKey x
          (bad → refuses stInvalid) ∧ (¬ bad → moved → refuses stInUse) ∧
          (¬ bad → ¬ moved → Ends (.sesDefWrite p n data) s fun t =>
            t.answered p = ⟨stOk, 0⟩ ∧ t.sesWord n 0 = key ∧ t.sesWord n 4 = w ∧
            (bit w 16 = false → t.sesState n = sesDisabled) ∧
            (bit w 16 = true → t.sesState n = if s.sesState n = sesDisabled then sesClosed else s.sesState n))

/-! ### The Saddle fabric, Cairn's clock and the keys -/

/-- O53. Fabric (R407 to R420, R424 to R427): a request takes the path parked on its master at once or enters the queue behind the last
one that goes before it; a decision gives the head of the queue a path that is free behind the beats of its ft, D0 before D1; a master
that still waits past the limit starves; a masked master holds nothing; banks change by BANK_PWR, which a section refuses; the scrubber
reads the next word DIV ft after the last, corrects, reports and poisons; the background test walks its regions. The clauses on requests,
grants and starvation speak of a fabric whose beats are accounted for up to the present ft. -/
def Obligations.FabricAndBanks : Prop :=
  ∀ s : State,
    let f := s.fabric
    (∀ m beats addr, m < 16 →
      let waiting := f.queue.any (fun e => e.m = m) = true
      let owns := fun x : FabPath => x.owner = m ∧ x.busy = true
      let stays := fun (now then_ : FabPath) => now.parkedOn m && then_.parkedOn m
      let on0 := stays f.d0 s.fabSync.fabric.d0
      let on1 := stays f.d1 s.fabSync.fabric.d1
      let r : FabReq := { m := m, beats := min beats (s.burstLimit m), addr := addr / 32 * 32, since := s.tick }
      let x : FabPath := { owner := m, busy := true, start := s.tick, left := r.beats, addr := r.addr }
      let before := fun e : FabReq => s.prioOf e.m ≤ s.prioOf m ∨ e.passedBy.contains m = true
      (s.fabMasked m = true → exec (.fabricRequest m beats addr) s = .next (s.land s)) ∧
      (s.fabMasked m = false → f.upTo = s.tick → Tbl.get (fun _ => 0) f.mayAt m ≤ s.tick →
        (waiting ∨ owns f.d0 ∨ owns f.d1 → exec (.fabricRequest m beats addr) s = .next (s.land s)) ∧
        (¬ (waiting ∨ owns f.d0 ∨ owns f.d1) → on0 = true ∨ on1 = true → Lands (.fabricRequest m beats addr) s fun t =>
          t.reg pgFAB (0x200 + 4 * m) = s.reg pgFAB (0x200 + 4 * m) + 1 ∧ Tbl.get (fun _ => 0) t.fabric.mayAt m = s.tick + 12 ∧
          t.fabric.queue.map (·.m) = f.queue.map (·.m) ∧ (on0 = true → t.fabric.d0 = x ∧ t.fabric.d1 = f.d1) ∧
          (on0 = false → t.fabric.d1 = x ∧ t.fabric.d0 = f.d0) ∧ ∀ e ∈ t.fabric.queue, e.passedBy.contains m = true) ∧
        (¬ (waiting ∨ owns f.d0 ∨ owns f.d1) → on0 = false → on1 = false → Lands (.fabricRequest m beats addr) s fun t =>
          t.tick = s.tick ∧ t.fabric.d0 = f.d0 ∧ t.fabric.d1 = f.d1 ∧
          ∃ l₁ l₂, f.queue = l₁ ++ l₂ ∧ t.fabric.queue = l₁ ++ r :: l₂ ∧ (∀ e ∈ l₂, ¬ before e) ∧
            (∀ e, l₁.getLast? = some e → before e)))) ∧
    (f.queue = [] → f.upTo = s.tick → exec .pathGrant s = .next (s.land s)) ∧
    (∀ r rest, f.queue = r :: rest → r.m < 16 → f.upTo = s.tick → r.since < s.tick →
      let u := (s.fabFt s.tick).fabric
      let x : FabPath := { owner := r.m, busy := true, start := s.tick + 1, left := r.beats, addr := r.addr }
      u.d0.busy = false ∨ u.d1.busy = false → Lands .pathGrant s fun t =>
        t.tick = s.tick ∧ (u.d0.busy = false → t.fabric.d0 = x) ∧ (u.d0.busy = true → t.fabric.d1 = x ∧ t.fabric.d0 = u.d0) ∧
        (rest = [] → t.fabric.queue = [] ∧ t.reg pgFAB (0x200 + 4 * r.m) = s.reg pgFAB (0x200 + 4 * r.m) + 1 ∧
          (u.d0.busy = false → t.fabric.d1 = u.d1) ∧ OnlyPages [pgFAB] { s with fabric := t.fabric } t)) ∧
    (∀ m, m < 16 →
      (f.upTo = s.tick → f.queue.find? (fun e => e.m = m && !e.counted) = none → exec (.starvation m) s = .next (s.land s)) ∧
      (∀ r, f.upTo = s.tick → f.queue.find? (fun e => e.m = m && !e.counted) = some r →
        let u := (s.until (r.since + s.regFld pgFAB 0x044 0 16 + 1)).fabSync
        (u.fabric.queue.any (fun e => e.m = m) = false → exec (.starvation m) s = .next (s.land u)) ∧
        (u.fabric.queue.any (fun e => e.m = m) = true → Lands (.starvation m) s fun t =>
          t.tick = max s.tick (r.since + s.regFld pgFAB 0x044 0 16 + 1) ∧ t.regBit pgFAB 0x048 m = true ∧
          t.regBit pgFAB 0x010 0 = true ∧ t.reg pgFAB (0x280 + 4 * m) = u.reg pgFAB (0x280 + 4 * m) + 1 ∧
          ∀ e ∈ t.fabric.queue, e.m = m → e.counted = true)) ∧
      (Lands (.sidebandAssert m true) s fun t =>
        t.regBit pgFAB 0x04C m = true ∧ t.fabMasked m = true ∧ (∀ e ∈ t.fabric.queue, e.m ≠ m) ∧
        (t.fabric.d0.owner = m → t.fabric.d0.busy = false) ∧ (t.fabric.d1.owner = m → t.fabric.d1.busy = false)) ∧
      (s.small && ((8 ≤ m && m ≤ 11) || m = 15) → Lands (.sidebandAssert m false) s fun t => t.fabMasked m = true) ∧
      (¬ (s.small && ((8 ≤ m && m ≤ 11) || m = 15)) → Lands (.sidebandAssert m false) s fun t =>
        t.fabMasked m = false ∧ Tbl.get (fun _ => 0) t.fabric.mayAt m = max (Tbl.get (fun _ => 0) s.fabPast.fabric.mayAt m) (s.tick + 1))) ∧
    (∀ p which data, which < 2 → s.mayWrite p pgFAB →
      let o := 0x0E0 + 4 * which
      let new := bankClamp data 16
      let old := s.reg pgFAB o
      let refused := ∃ j, j < 16 ∧ fld old (2 * j) 2 = 0 ∧ fld new (2 * j) 2 ≠ 0 ∧ s.bankAlloc (16 * which + j) = true
      (refused → Answers (.bankPwrWrite p which data) p pgFAB s stInUse) ∧
      (¬ refused → Ends (.bankPwrWrite p which data) s fun t =>
        t.answered p = ⟨stOk, 0⟩ ∧ t.reg pgFAB o = new ∧ ∀ j, j < 16 →
          let b := 16 * which + j
          let a := fld old (2 * j) 2
          let n := fld new (2 * j) 2
          (a = n → t.bankStat b = s.bankStat b) ∧ (a ≠ n → n = 0 → t.bankStat b = 3) ∧
          (a ≠ n → n ≠ 0 → t.bankStat b = n ∧ t.regBit pgFAB 0x010 4 = true) ∧
          (a ≠ n → n = 2 → ∀ adr, bankOf adr = b → t.byte adr = 0))) ∧
    (∀ b, b < 32 →
      (s.bankStat b ≠ 3 → exec (.bankStateReached b) s = .next (s.land s)) ∧
      (s.bankStat b = 3 → Lands (.bankStateReached b) s fun t =>
        t.bankStat b = 0 ∧ t.regBit pgFAB 0x010 4 = true ∧ t.sram = s.sram ∧
        t.tick = max s.tick (Tbl.get (fun _ => 0) s.fabric.changing b))) ∧
    (∀ e, s.power.powered = false → exec (.scrub e) s = .next (s.land s)) ∧
    (s.power.powered = true → f.struck = [] →
      let w := (s.regFld pgFAB 0x0F8 0 14 + 1) % 16384
      let moved := fun t : State =>
        t.reg pgFAB 0x0F8 = word (w + 65536 * ((s.regFld pgFAB 0x0F8 16 16 + b2n (decide (w = 16383))) % 65536)) ∧
        t.tick = max s.tick (f.scrubAt + s.regFld pgFAB 0x0F4 0 16) ∧ t.fabric.scrubAt = t.tick
      (Lands (.scrub {}) s fun t =>
        moved t ∧ OnlyPages [pgFAB, pgINT] { s with fabric := t.fabric, tick := t.tick, ridge := t.ridge, ports := t.ports } t) ∧
      ∀ b n, b < 32 → s.bankStat b = 0 →
        (n = 1 ∨ n = 2 → Lands (.scrub { flips := [(b, n)] }) s fun t =>
          moved t ∧ t.reg pgFAB 0x30C = s.reg pgFAB 0x30C + 1 ∧ fld (t.reg pgFAB 0x100) 0 8 = 8 * n ∧
          fld (t.reg pgFAB 0x100) 12 20 = bankWord b w ∧ t.sram = s.sram ∧ t.fabric = { f with scrubAt := t.tick } ∧
          (n = 1 → t.reg pgFAB 0x300 = s.reg pgFAB 0x300 + 1) ∧
          (n = 2 → t.reg pgFAB 0x304 = s.reg pgFAB 0x304 + 1 ∧ t.regBit pgFAB 0x010 1 = true)) ∧
        (2 < n → Lands (.scrub { flips := [(b, n)] }) s fun t =>
          moved t ∧ Tbl.get (fun _ => false) t.fabric.poison (bankWord b w) = true ∧ t.reg pgFAB 0x308 = s.reg pgFAB 0x308 + 1 ∧
          t.regBit pgFAB 0x010 2 = true ∧ t.sram = s.sram)) ∧
    let idle := s.small = false ∧ s.power.powered = true ∧ s.regBit pgFAB 0x120 0 = true ∧ s.btPaused = false ∧ f.bt = none
    let g := s.btRegion / 256
    let on := s.bankStat (4 * g) = 0 ∧ s.bankStat (4 * g + 1) = 0 ∧ s.bankStat (4 * g + 2) = 0 ∧ s.bankStat (4 * g + 3) = 0
    let due := match f.btAt with | some t => t + s.btPeriod | none => 0
    (¬ idle → exec .btRegionStart s = .next (s.land s)) ∧
    (idle → on → Lands .btRegionStart s fun t =>
      t.tick = max s.tick due ∧ t.btStep = 1 ∧ t.btRegion = s.btRegion ∧ t.fabric.btAt = some t.tick ∧
      ∃ x, t.fabric.bt = some x ∧ x.start = t.tick ∧ x.start + 256 ≤ x.march ∧ x.march + 2560 ≤ x.back) ∧
    (idle → ¬ on → Lands .btRegionStart s fun t =>
      t.tick = max s.tick due ∧ t.reg pgFAB 0x31C = s.reg pgFAB 0x31C + 1 ∧ t.btRegion = (s.btRegion + 1) % 2048 ∧
      t.fabric.bt = none ∧ t.fabric.btAt = some t.tick) ∧
    ∀ fail,
      (f.bt = none → exec (.btRegionEnd fail) s = .next (s.land s)) ∧
      (∀ x, f.bt = some x → Lands (.btRegionEnd fail) s fun t =>
        t.fabric.bt = none ∧ t.btStep = 0 ∧ t.tick = max s.tick (x.start + 8960) ∧ t.reg pgFAB 0x314 = s.reg pgFAB 0x314 + 1 ∧
        t.btRegion = (s.btRegion + 1) % 2048 ∧ t.sram = s.sram ∧
        (fail = none →
          OnlyPages [pgFAB, pgINT] { s with fabric := t.fabric, tick := t.tick, ridge := t.ridge, ports := t.ports } t) ∧
        ∀ w b, fail = some (w, b) → t.reg pgFAB 0x318 = s.reg pgFAB 0x318 + 1 ∧ t.regBit pgFAB 0x010 3 = true ∧
          t.reg pgFAB 0x128 = word (s.btRegion + 2048 * (w % 256) + 524288 * (b % 512)))


/-- O54. The clock (R439 to R445, R447 to R450): a second counts on the calendar, but in the ft of a commit, is held by a freeze, and the
eighth held one ends it; reads freeze and CENT ends the freeze; writes go to shadows until a commit's instant; an alarm that is due fires;
the compensation is the table's value at its points. -/
def Obligations.TimeOfDay : Prop :=
  ∀ s : State,
    let digits := ∀ o ∈ timeOfs, (s.reg pgRTC o).toNat < 256
    (s.rtc.lost = true ∨ s.rtc.setAt = some s.tick → exec .secondRollover s = .next (s.land s)) ∧
    (s.rtc.lost = false → s.rtc.setAt ≠ some s.tick → s.rtc.frozen = none → digits → Lands .secondRollover s fun t =>
      t.clock = s.clock.tick ∧ t.rtc.frozen = none ∧
      (s.clock.seconds ≤ s.clock.tick.seconds → ∀ a, a < 2 →
        (∀ n, s.alNext a = some n → n ≤ s.clock.tick.seconds → s.power.powered = true →
          t.regBit pgRTC 0x010 a = true ∧ t.regBit pgRTC (alOfs a + 12) 0 = true) ∧
        ((∀ n, s.alNext a = some n → s.clock.tick.seconds < n) →
          t.alNext a = s.alNext a ∧ t.reg pgRTC (alOfs a + 12) = s.reg pgRTC (alOfs a + 12)))) ∧
    (s.rtc.lost = false → s.rtc.setAt ≠ some s.tick → s.rtc.frozen ≠ none →
      let held := s.regFld pgRTC 0x064 1 3
      (held < 7 → Lands .secondRollover s fun t =>
        t.regFld pgRTC 0x064 1 3 = held + 1 ∧ t.rtc = s.rtc ∧ ∀ k, k ≠ rkey pgRTC 0x064 → t.getKey k = s.getKey k) ∧
      (held = 7 → digits → Lands .secondRollover s fun t =>
        t.clock = (List.range 8).foldl (fun (c : Cal) _ => c.tick) s.clock ∧ t.rtc.frozen = none ∧ t.regBit pgRTC 0x068 0 = true ∧
        t.reg pgRTC 0x204 = s.reg pgRTC 0x204 + 1 ∧ t.regBit pgRTC 0x010 2 = true)) ∧
    (∀ p, s.early → s.gate p pgRTC false false = some stOk →
      (∀ k, k < 8 → Ends (.timeRead p (0x040 + 4 * k)) s fun t =>
        t.rtc.frozen ≠ none ∧ (t.answered p).status = stOk ∧
        (∀ l, s.rtc.frozen = some l → t.rtc.frozen = some l ∧ (t.answered p).data = (l[k]?).getD 0) ∧
        (s.rtc.frozen = none → 0 < k → (t.answered p).data = s.reg pgRTC (0x040 + 4 * k) ∧ t.regBit pgRTC 0x064 0 = true) ∧
        (s.rtc.frozen = none → k = 0 → (t.answered p).data.toNat < 32768 ∧ t.fresh = s.fresh + 1)) ∧
      (Ends (.centRead p) s fun t =>
        t.rtc.frozen = none ∧ (t.answered p).status = stOk ∧ t.regFld pgRTC 0x064 0 4 = 0 ∧
        (∀ l, s.rtc.frozen = some l → (t.answered p).data = (l[8]?).getD 0) ∧
        (s.rtc.frozen = none → (t.answered p).data = s.reg pgRTC 0x060))) ∧
    (∀ p data, s.mayWrite p pgRTC →
      (∀ o ∈ timeOfs, Ends (.timeRegisterWrite p o data) s fun t =>
        let old := if s.rtc.touched then s.getShadow pgRTC o else s.reg pgRTC o
        t.rtc.touched = true ∧ t.answered p = ⟨stOk, 0⟩ ∧ t.getShadow pgRTC o = settled pgRTC o (rtcRow o) .plain old data ∧
        (∀ k, k ≠ rkey pgRTC 0x00C → t.getKey k = s.getKey k) ∧
        ∀ o' ∈ timeOfs, o' ≠ o → t.getShadow pgRTC o' = if s.rtc.touched then s.getShadow pgRTC o' else s.reg pgRTC o') ∧
      ∀ a, a < 2 → Ends (.alarmCtlWrite p a data) s fun t =>
        t.answered p = ⟨stOk, 0⟩ ∧ t.regBit pgRTC (alOfs a + 12) 2 = false ∧
        t.getShadow pgRTC (alOfs a + 8) =
          settled pgRTC (alOfs a + 8) (rtcRow (alOfs a + 8)) .plain (s.getShadow pgRTC (alOfs a + 8)) data ∧
        t.reg pgRTC (alOfs a + 8) = s.reg pgRTC (alOfs a + 8) ∧ t.rtc = s.rtc) ∧
    (s.rtc.commit = none → exec .rtcCommitInstant s = .next (s.land s)) ∧
    (∀ l, s.rtc.commit = some l → Lands .rtcCommitInstant s fun t =>
      t.rtc.commit = none ∧ t.rtc.frozen = none ∧ t.rtc.setAt = some s.tick ∧ t.reg pgRTC 0x200 = s.reg pgRTC 0x200 + 1 ∧
        t.regFld pgRTC 0x064 0 5 = 0 ∧
      ∀ o w, (o, w) ∈ (shadowOfs pgRTC).zip l → o < 0x140 → t.reg pgRTC o = w) ∧
    (Lands .backupSupplyLost s fun t =>
      t.rtc = { s.rtc with lost := true, frozen := none, commit := none, next := [] } ∧ t = { s with rtc := t.rtc }) ∧
    (∀ mV, (s.power.powered = false → exec (.vbakLow mV) s = .next (s.land s)) ∧
      (s.power.powered = true → Lands (.vbakLow mV) s fun t =>
        t.reg pgRTC 0x070 = word (min mV 4095) ∧ (t.regBit pgRTC 0x064 5 = true ↔ mV < 2200) ∧
        (mV < 2200 → s.regBit pgRTC 0x064 5 = false → t.regBit pgRTC 0x010 3 = true) ∧
        (¬ (mV < 2200 ∧ s.regBit pgRTC 0x064 5 = false) → OnlyPages [pgRTC] s t))) ∧
    ∀ temp, (s.power.powered = false → exec (.tempCompensation temp) s = .next (s.land s)) ∧
      (s.power.powered = true → Lands (.tempCompensation temp) s fun t =>
        OnlyKeys [rkey pgRTC 0x078] s t ∧ t.regFld pgRTC 0x078 0 16 = wrapInt 16 temp ∧
        (s.regBit pgRTC 0x074 0 = false → t.regFld pgRTC 0x078 16 16 = 0) ∧
        (s.regBit pgRTC 0x074 0 = true → t.regFld pgRTC 0x078 16 16 = wrapInt 16 (s.compensation temp) ∧
          ∀ n : Nat, n ≤ 32 → temp = 40 * (n : Int) - 400 →
            s.compensation temp = sext 16 (s.reg pgRTC (0x080 + 4 * n)).toNat + sext 16 (s.regFld pgRTC 0x074 16 16)))

/-- O55. Lifecycle, key vault and fuses (R466 to R481, R483): an advance is checked in order, makes the root of its state, and takes place
at its end, which frees the slots that do not survive, keeps the keys of the others, shows the identity and blows its fuse; a message
waits in the queue and is applied whole or refused with the first failed check; attestations sign what stood at their command and answer
in order, in FIELD only; a plain key is checked in order; a blow is refused or takes effect at its completion. -/
def Obligations.KeysAndFuses : Prop :=
  ∀ s : State,
    (∀ p data, s.mayWrite p pgKEY →
      let refuses := fun (c : Instr) (st : Nat) => Ends c s fun t =>
        t.answered p = ⟨st, 0⟩ ∧ t.regBit pgKEY 0x010 1 = true ∧ t.keys = s.keys ∧ t.fuse = s.fuse ∧
        ∀ k, k ≠ rkey pgKEY 0x010 → t.getKey k = s.getKey k
      let own := vaultPath p = true
      let adv := Instr.lcAdv p data
      let target := fld data 0 2
      let legal := fld data 16 16 = 0x4C43 ∧ target = s.lifecycle + 1 ∧ (target = lcCommission ∨ target = lcField)
      let ready := s.pwrState = pwNormal ∧ s.regBit pgPWR 0x050 16 = true
      let go := Instr.plainKeyGo p data
      let k := fld data 0 10
      let attr := word (fld data 11 4 + 16 * fld data 15 1)
      (¬ own → refuses adv stDenied ∧ refuses go stDenied) ∧
      (own →
        (¬ legal → refuses adv stLifecycle) ∧
        (legal → ¬ ready → refuses adv stNotReady) ∧
        (legal → ready → s.keys.transition ≠ none → refuses adv stVaultBusy) ∧
        (legal → ready → s.keys.transition = none → Ends (.lcAdv p data) s fun t =>
          t.answered p = ⟨stOk, 0⟩ ∧ t.keys = { (s.makeRoot target).keys with transition := some target } ∧
          t.lifecycle = s.lifecycle) ∧
        (lcCommission < s.lifecycle → refuses go stLifecycle) ∧
        (s.lifecycle ≤ lcCommission →
          (s.keys.transition ≠ none → refuses go stVaultBusy) ∧
          (s.keys.transition = none →
            (keyLimit s.small ≤ k ∨ attrOk attr = false → refuses go stInvalid) ∧
            (k < keyLimit s.small → attrOk attr = true →
              (s.keyState k ≠ ksFree → refuses go stInUse) ∧
              (s.keyState k = ksFree → s.keyLocked k = true → refuses go stSlotLocked) ∧
              (s.keyState k = ksFree → s.keyLocked k = false → Ends (.plainKeyGo p data) s fun t =>
                t.answered p = ⟨stOk, 0⟩ ∧ t.keyState k = ksLoaded ∧ t.keyOwner k = fld data 16 9 ∧ t.keyUses k = 0xFFFFFFFF ∧
                t.keyUseBits k = fld data 11 4 ∧ t.keys.plain = [] ∧ t.keyCtr k = s.keyCtr k ∧
                let key := (List.range 8).foldr (fun i a => a * 2 ^ 32 + (Tbl.get (fun _ => 0) s.keys.plain i : Word).toNat) 0
                t.keyMat k = BitVec.ofNat 256 (if bit attr 4 then key else key % 2 ^ 128))))))) ∧
    (∀ r, s.keys.transition = none → exec (.lifecycleTransitionEnd r) s = .next (s.land s)) ∧
    (∀ r x, s.keys.transition = some x → s.lifecycle < x → x ≤ lcReturn →
      ∃ t, exec (.lifecycleTransitionEnd r) s = .next { s.land t with fuse := t.fuse } ∧
        t.lifecycle = x ∧ t.keys.transition = none ∧ t.keys.roots = (s.makeRootOf x r).keys.roots ∧ t.regBit pgKEY 0x010 4 = true ∧ s.fuse.within t.fuse ∧
        (x = lcField → bit (t.fuseReg 0x044) 0 = true) ∧
        (∀ i, i < 16 → t.reg pgKEY (0x080 + 4 * i) = (t.idWords[i]?).getD 0) ∧
        ∀ k, k < keyLimit s.small →
          (x = lcCommission ∨ x = lcReturn ∧ s.keyOwner k ≠ 0 → t.keyState k = ksFree) ∧
          (x = lcField ∨ x = lcReturn ∧ s.keyOwner k = 0 → t.keyInfo k = s.keyInfo k ∧ t.keyMat k = s.keyMat k) ∧
          t.keyCtr k = s.keyCtr k) ∧
    (∀ p, s.mayWrite p pgKEY true →
      let i := pathIdx p
      let m : Submission := ⟨i, s.ctxOf p, s.kumBytes i⟩
      let busy := bit (s.kumStat i) 0 = true
      (busy ∨ s.keys.transition ≠ none → Ends (.submit p) s fun t =>
        t.answered p = ⟨stVaultBusy, 0⟩ ∧ t.keys = s.keys ∧ t.reg pgKEY 0x204 = s.reg pgKEY 0x204 + 1 ∧ t.regBit pgKEY 0x010 1 = true) ∧
      (¬ busy → s.keys.transition = none → Ends (.submit p) s fun t =>
        t.answered p = ⟨stOk, 0⟩ ∧ t.keys = { s.keys with queue := s.keys.queue ++ [m] } ∧ bit (t.kumStat i) 0 = true) ∧
      (s.lifecycle ≠ lcField → Answers (.attest p) p pgKEY s stLifecycle) ∧
      (s.lifecycle = lcField → Ends (.attest p) s fun t =>
        t.answered p = ⟨stOk, 0⟩ ∧ t = { s with last := t.last, ports := [pgKEY], keys := { s.keys with attesting := s.keys.attesting ++ [(i, s.attestMessage i)] } })) ∧
    (∀ z, s.keys.queue = [] ∨ s.keys.transition ≠ none → exec (.keyUpdateComplete z) s = .next (s.land s)) ∧
    (∀ m q z, s.keys.queue = m :: q → s.keys.transition = none →
        let k := kumOf m.bytes
        let r := s.vaultFacts m.bytes
        let st := s.kumStatus m.ctx k r
        let stat := fun t : State => t.kumStat m.path = word (256 * st + 65536 * (k.slot % 1024)) ∧ t.keys.queue = q
        (st ≠ stOk → Lands (.keyUpdateComplete z) s fun t =>
          stat t ∧ t.keys = { s.keys with queue := q } ∧ t.reg pgKEY 0x204 = s.reg pgKEY 0x204 + 1 ∧ t.regBit pgKEY 0x010 1 = true ∧
          ∀ n, t.keyInfo n = s.keyInfo n ∧ t.keyCtr n = s.keyCtr n ∧ t.keyUses n = s.keyUses n) ∧
        (st = stOk → k.op = kmLoad ∨ k.op = kmDerive → Lands (.keyUpdateComplete z) s fun t =>
          stat t ∧ t.keyState k.slot = (if k.op = kmLoad then ksLoaded else ksDerived) ∧ t.keyOwner k.slot = k.ctx ∧
          t.keyUses k.slot = k.uses ∧ t.keyMat k.slot = r.key ∧
          (k.op = kmDerive → t.keyMat k.slot = BitVec.ofNat 256 (ofLeBytes
            (s.derivedKey r.master k.ctx (((s.kumBody m.bytes k).drop 4).take 32) (bit k.attr 4)))) ∧ t.keyCtr k.slot = k.ctr ∧
          t.keyCtr k.auth = k.ctr ∧ t.reg pgKEY 0x200 = s.reg pgKEY 0x200 + 1 ∧ t.regBit pgKEY 0x010 0 = true) ∧
        (st = stOk → k.op = kmErase → Lands (.keyUpdateComplete z) s fun t =>
          stat t ∧ t.keyState k.slot = ksFree ∧ t.keyOwner k.slot = 0 ∧ Tbl.get (fun _ => 0) t.keys.mat k.slot = 0 ∧
          t.keyCtr k.slot = k.ctr ∧ t.keyCtr k.auth = k.ctr) ∧
        (st = stOk → k.op = kmReturn → Lands (.keyUpdateComplete z) s fun t =>
          t.keys.transition = some lcReturn ∧ t.keys.roots = (s.makeRootOf lcReturn z).keys.roots ∧ t.keys.queue = s.keys.queue ∧
            t.keyCtr k.auth = k.ctr ∧ t.lifecycle = s.lifecycle)) ∧
    (∀ z, s.keys.attesting = [] → exec (.attestComplete z) s = .next (s.land s)) ∧
    (∀ i m rest z, s.keys.attesting = (i, m) :: rest → Lands (.attestComplete z) s fun t =>
        t.keys = { s.keys with attesting := rest } ∧
        (s.lifecycle ≠ lcField → t = { s with keys := t.keys }) ∧
        (s.lifecycle = lcField → t = { s with keys := t.keys, bank := t.bank } ∧
          ∀ j, j < 16 → t.getBank i (dkey pgKEY (0x100 + 4 * j)) = ((s.attestation z m)[j]?).getD 0)) ∧
    (∀ p ofs data, s.mayWrite p pgFUS →
      let o := ofs / 4 * 4
      (RegMap.rowOf pgFUS o = none → Answers (.fuseBlow p ofs data) p pgFUS s stOk) ∧
      (∀ r, RegMap.rowOf pgFUS o = some r →
        let bits := data &&& word r.mask
        let kill := o = 0x04C ∧ bits ≠ 0 ∧ bits &&& 0x5 = 0
        let refuses := fun st => Ends (.fuseBlow p ofs data) s fun t =>
          t.answered p = ⟨st, 0⟩ ∧ t.fuse = s.fuse ∧ t.keys = s.keys ∧ t.regBit pgFUS 0x010 1 = true
        (s.keys.blowing ≠ none → refuses stVaultBusy) ∧
        (s.keys.blowing = none → bit (s.fuseReg 0x044) 0 = true → ¬ kill → refuses stFuseLocked) ∧
        (s.keys.blowing = none → bit (s.fuseReg 0x044) 0 = false ∨ kill → Ends (.fuseBlow p ofs data) s fun t =>
          t.answered p = ⟨stOk, 0⟩ ∧ t.keys = { s.keys with blowing := some (o, bits) } ∧ t.fuse = s.fuse ∧
          t.reg pgFUS 0x064 = word (1 + 65536 * (o / 4))))) ∧
    (s.keys.blowing = none → exec .fuseBlowComplete s = .next (s.land s)) ∧
    ∀ o bits, s.keys.blowing = some (o, bits) → ∃ t, exec .fuseBlowComplete s = .next { s.land t with fuse := t.fuse } ∧
      (o ≠ 0x048 → t.fuseReg o = s.fuseReg o ||| bits) ∧ (∀ x, x ≠ o → t.fuseReg x = s.fuseReg x) ∧
      t.keys = { s.keys with blowing := none } ∧ t.regBit pgFUS 0x010 0 = true ∧ t.reg pgFUS 0x064 = word (65536 * (o / 4))

/-- O56. The update engine (R488 to R497, R499, Table UPD-3): the owner of the buffer, then BUSY, then the stage decide whether a command
is taken; the commands move the stage, store manifest and chunks, and show what they hold; a chunk counts as had once it is written and
reads back; a complete image is checked; a trial confirms itself when it is healthy, and falls back when its time is up. -/
def Obligations.UpdateEngine : Prop :=
  ∀ s : State,
    (∀ p, s.mayWrite p pgUPD →
      let own := s.ownsBuffer p = true
      let free := s.updBusy = false
      let refuses := fun (c : Instr) (st irq : Nat) => Ends c s fun t =>
        t.answered p = ⟨st, 0⟩ ∧ t.regFld pgUPD 0x040 8 8 = st ∧ t.regBit pgUPD 0x010 irq = true ∧ t.updStage = s.updStage ∧
        t.reg pgUPD 0x068 = s.reg pgUPD 0x068 ∧ t.upd.have_ = s.upd.have_ ∧ t.upd.manHave = s.upd.manHave ∧ t.pair = s.pair
      let taken := fun t : State =>
        t.answered p = ⟨stOk, 0⟩ ∧ t.regFld pgUPD 0x040 8 8 = stOk ∧ t.updBusy = true
      let emptied := fun t : State => t.upd.have_ = [] ∧ t.upd.manHave = [] ∧ t.reg pgUPD 0x060 = 0 ∧ t.reg pgUPD 0x05C = 0
      (s.updBusy = true → refuses (.claim p) stUpdBusy 5) ∧
      (free → s.regBit pgUPD 0x068 15 = true → refuses (.claim p) stDenied 5) ∧
      (free → s.regBit pgUPD 0x068 15 = false → Ends (.claim p) s fun t => taken t ∧ t.ownsBuffer p = true ∧ t.upd.usedAt = s.tick) ∧
      (∀ i ok, (∀ c ∈ [Instr.manifestChunk p i ok, .chunk p i ok],
          (¬ own → refuses c stDenied 0) ∧ (own → ¬ free → refuses c stUpdBusy 0)) ∧
        (own → free →
          let u := s.upd
          let st : State := { s with upd :=
            { u with manifs := Tbl.set (fun _ => []) u.manifs (128 * u.staging + i) (s.keptWords ok),
                     manHave := Tbl.set (fun _ => false) u.manHave i true } }
          let whole := st.hasManifest 0 = true ∧ ∀ j, j < manifestChunks st.manChunks → st.hasManifest j = true
          let limit := if s.hasManifest 0 then min (manifestChunks s.manChunks) manifestMost else manifestMost
          let digest := sha256 (st.manBytes 0 st.manLen)
          let wrong := (s.reg pgUPD 0x05C).toNat ≤ i ∨ sha256 (wordBytes s.bufferWords) ≠ s.chunkDigest i
          (s.updStage ≠ sgManifest → refuses (.manifestChunk p i ok) stUpdState 0) ∧
          (s.updStage = sgManifest → limit ≤ i → refuses (.manifestChunk p i ok) stManFormat 0) ∧
          (s.updStage = sgManifest → i < limit →
            (¬ whole → Ends (.manifestChunk p i ok) s fun t => taken t ∧ t.updStage = sgManifest ∧ t.hasManifest i = true) ∧
            (whole → st.manStatus = stOk → Ends (.manifestChunk p i ok) s fun t =>
              taken t ∧ t.updStage = sgChunks ∧ t.reg pgUPD 0x054 = st.manWord 4 ∧ t.reg pgUPD 0x05C = word st.manChunks ∧
              ∀ n, n < 8 → t.reg pgUPD (0x070 + 4 * n) = word (ofLeBytes ((digest.drop (4 * n)).take 4))) ∧
            (whole → st.manStatus ≠ stOk → Ends (.manifestChunk p i ok) s fun t =>
              t.answered p = ⟨st.manStatus, 0⟩ ∧ t.updStage = sgEmpty ∧ emptied t ∧ t.regBit pgUPD 0x010 0 = true)) ∧
          (s.updStage ≠ sgChunks → refuses (.chunk p i ok) stUpdState 0) ∧
          (s.updStage = sgChunks → wrong → refuses (.chunk p i ok) stChunkHash 0 ∧
            Ends (.chunk p i ok) s fun t => t.reg pgUPD 0x108 = s.reg pgUPD 0x108 + 1) ∧
          (s.updStage = sgChunks → ¬ wrong → Ends (.chunk p i ok) s fun t =>
            taken t ∧ t.upd.have_ = s.upd.have_ ∧ t.upd.chunks = s.upd.chunks ∧
            (s.hasChunk i = true → t.upd.writing = s.upd.writing ∧ t.reg pgUPD 0x104 = s.reg pgUPD 0x104 + 1) ∧
            (s.hasChunk i = false → t.upd.writing = some (i, s.bufferWords, ok))))) ∧
      (∀ c ∈ [Instr.release p, .updBegin p, .install p, .updAbort p, .confirm p, .revert p],
        (¬ own → refuses c stDenied 5) ∧ (own → ¬ free → refuses c stUpdBusy 5)) ∧
      (own → free →
        (Ends (.release p) s fun t => taken t ∧ t.reg pgUPD 0x068 = 0 ∧ t.updStage = s.updStage) ∧
        (Ends (.updBegin p) s fun t => taken t ∧ t.updStage = sgManifest ∧ emptied t) ∧
        (s.updStage = sgEmpty → refuses (.updAbort p) stUpdState 5) ∧
        (s.updStage ≠ sgEmpty → Ends (.updAbort p) s fun t => taken t ∧ t.updStage = sgEmpty ∧ emptied t) ∧
        (s.updStage ≠ sgComplete ∨ s.onTrial = true → refuses (.install p) stUpdState 5) ∧
        (s.updStage = sgComplete → s.onTrial = false → Ends (.install p) s fun t => taken t ∧ t.updStage = sgArmed) ∧
        (s.onTrial = false → refuses (.confirm p) stUpdState 5 ∧ refuses (.revert p) stUpdState 5) ∧
        (s.onTrial = true → (Ends (.confirm p) s fun t => taken t ∧ t.upd.confirm = true ∧ t.onTrial = true) ∧
          Ends (.revert p) s fun t =>
            t.answered p = ⟨stOk, 0⟩ ∧ t.upd.active = s.upd.fallback ∧ t.onTrial = false ∧ t.reg pgUPD 0x06C = 3 ∧
            max t.upd.dirA.seq t.upd.dirB.seq = max s.upd.dirA.seq s.upd.dirB.seq + 1))) ∧
    (∀ unread bad,
      let due := s.updStage = sgChunks ∧ s.reg pgUPD 0x060 = s.reg pgUPD 0x05C
      let good := unread = [] ∧ s.imageMatches = true
      (¬ due → exec (.imageDigestCheck unread bad) s = .next (s.land s)) ∧
      (due → good → Lands (.imageDigestCheck unread bad) s fun t => t.updStage = sgComplete ∧ t.regBit pgUPD 0x010 1 = true ∧ t.upd = s.upd) ∧
      (due → ¬ good → Lands (.imageDigestCheck unread bad) s fun t =>
        t.updStage = sgChunks ∧ ∀ i, t.hasChunk i = (s.hasChunk i && !bad.contains i))) ∧
    (s.regBit pgUPD 0x068 15 = false → exec .bufferOwnerTimeout s = .next (s.land s)) ∧
    (s.regBit pgUPD 0x068 15 = true → Lands .bufferOwnerTimeout s fun t =>
      t.reg pgUPD 0x068 = 0 ∧ t.tick = max s.tick (s.upd.usedAt + 60 * ftPerS + 1) ∧ t.upd = s.upd) ∧
    (s.upd.writing = none → Lands .updCommandComplete s fun t =>
      t.updBusy = false ∧ t.updStage = s.updStage ∧ OnlyKeys [rkey pgUPD 0x040] s t) ∧
    (∀ i ws ok, s.upd.writing = some (i, ws, ok) → Lands .updCommandComplete s fun t =>
      t.updBusy = false ∧ t.updStage = s.updStage ∧ t.upd.writing = none ∧
      Tbl.get (fun _ => []) t.upd.chunks (8192 * s.upd.staging + i) = ws ∧ (∀ j, j ≠ i → t.hasChunk j = s.hasChunk j) ∧
      (ok = true → t.hasChunk i = true ∧ t.reg pgUPD 0x060 = word (t.upd.have_.filter (·.2)).length ∧
        t.reg pgUPD 0x100 = s.reg pgUPD 0x100 + 1) ∧
      (ok = false → t.hasChunk i = s.hasChunk i ∧ t.regFld pgUPD 0x040 8 8 = stChunkHash ∧ t.regBit pgUPD 0x010 0 = true)) ∧
    let confirmed := fun t : State =>
      t.onTrial = false ∧ t.reg pgUPD 0x064 = word s.activeImage.sec ∧ t.regBit pgUPD 0x010 3 = true ∧
      t.reg pgUPD 0x110 = s.reg pgUPD 0x110 + 1 ∧ t.upd.active = s.upd.active ∧ t.upd.oldArea = none
    (s.trialHealthy = false → exec .trialConfirmation s = .next (s.land s)) ∧
    (s.trialHealthy = true → Lands .trialConfirmation s fun t => confirmed t ∧ t.tick = s.tick) ∧
    let counts := s.onTrial = true ∧ s.sys.released = true ∧ s.power.powered = true ∧ s.pwrState ≠ pwRide ∧ s.saving = false
    let left := (s.reg pgUPD 0x050).toNat
    let spent := ¬ 1 < left
    let alone := s.role = rolePrimary ∧ s.pairState ≠ psSync
    (¬ counts → exec .healthLeftTick s = .next (s.land s)) ∧
    (counts → ¬ spent → Lands .healthLeftTick s fun t =>
      t.reg pgUPD 0x050 = word (left - 1) ∧ t.tick = max s.tick s.upd.secondAt ∧ t.onTrial = true) ∧
    (counts → spent → s.trialHealthy = true → Lands .healthLeftTick s confirmed) ∧
    (counts → spent → s.trialHealthy = false → alone → Lands .healthLeftTick s fun t =>
      t.regBit pgUPD 0x040 5 = true ∧ t.onTrial = true ∧ t.upd.active = s.upd.active) ∧
    (counts → spent → s.trialHealthy = false → ¬ alone → Lands .healthLeftTick s fun t =>
      t.upd.active = s.upd.fallback ∧ t.upd.fallback = s.upd.active ∧ t.onTrial = false ∧ t.reg pgUPD 0x06C = 1 ∧
      t.regBit pgUPD 0x010 4 = true)

/-! ### The redundant pair -/

/-- O57. Pair: link, roles, heartbeat (R56, R505 to R512, R516 to R521, Table PAR-4): training, loss and frames of the link; the first
HEALTH in SOLO brings JOIN with its role decision, or MISMATCH; TIME aligns; a primary without its partner is SOLO; a standby takes over
for a cause, or is an orphan where the guard sees the primary. -/
def Obligations.PairLinkAndRoles : Prop :=
  ∀ s : State,
    (∀ rounds,
      (s.alive = false ∨ s.pair.accepted = false ∨ s.pair.up = true → exec (.colLinkTrained rounds) s = .next (s.land s)) ∧
      (s.alive = true → s.pair.accepted = true → s.pair.up = false → Lands (.colLinkTrained rounds) s fun t =>
        t.pair.up = true ∧ t.reg pgPAR 0x054 = word ((rounds.sum - 1600 + 8) / 16) ∧
        t.pairState = (if s.pairState = psOrphan then psJoin else s.pairState))) ∧
    (s.pair.up = false → exec .colLinkDown s = .next (s.land s)) ∧
    (s.pair.up = true → Lands .colLinkDown s fun t =>
      t.pair.up = false ∧ t.pair.rx = none ∧ t.reg pgPAR 0x118 = s.reg pgPAR 0x118 + 1 ∧ t.regBit pgPAR 0x010 2 = true ∧
      t.pairState = (if s.isStandby then s.pairState else psSolo) ∧ t.role = s.role) ∧
    (∀ metres present clc, Lands (.cablePresenceChange metres present clc) s fun t =>
      t.pair.accepted = (present && clc) ∧ (t.regBit pgPAR 0x050 8 = true ↔ present = false) ∧
      (present = true → clc = false → t.regBit pgPAR 0x010 5 = true) ∧
      (present = false ∨ clc = false → t.pair.up = false)) ∧
    exec .echo s = .next (s.land s) ∧
    (let whole := s.frameStruck = true ∧ ∀ i, s.struckBits (.col i) ≤ 2
     (s.pair.up = false ∨ s.alive = false → exec .colFrameError s = .next (s.land s)) ∧
     (s.pair.up = true → s.alive = true → whole → Lands .colFrameError s fun t =>
       t.pair = s.pair ∧ t.frameStruck = false ∧ ∀ o, t.reg pgPAR o = s.reg pgPAR o) ∧
     (s.pair.up = true → s.alive = true → ¬ whole → Lands .colFrameError s fun t =>
       t.pair.discards = s.pair.discards + 1 ∧ t.reg pgPAR 0x11C = s.reg pgPAR 0x11C + 1 ∧
       (∀ r, t.pair.rx = some r → r.bad = true) ∧
       t.pairState = (if s.isStandby && decide (16 ≤ s.pair.discards) then psFaulted else s.pairState))) ∧
    (let waits := s.pairOn = true ∧ s.ridge.locked = true ∧ s.role = roleNone ∧ s.pair.heard = false
     (¬ waits → exec .joinWaitExpiry s = .next (s.land s)) ∧
     (waits → Lands .joinWaitExpiry s fun t =>
       t.tick = max s.tick (s.ridge.lockAt + s.regFld pgPAR 0x048 24 8 * 10 * ftPerMs + 1) ∧
       OnlyPages [pgINT] { s with pair := { s.pair with solo := true }, tick := t.tick, ridge := t.ridge, ports := t.ports } t)) ∧
    (s.ridge.locked = true → s.role = rolePrimary → Lands (.anchorOccurrence .halfCycle) s fun t =>
      t.pair = { s.pair with silent := s.pair.silent + 1 }) ∧
    (let leads := s.alive = true ∧ s.role = rolePrimary ∧ s.pairState ≠ psSolo ∧ s.regFld pgPAR 0x048 16 8 ≤ s.pair.silent
     (¬ leads → exec .peerLost s = .next (s.land s)) ∧
     (leads → Lands .peerLost s fun t =>
       t.pairState = psSolo ∧ t.role = rolePrimary ∧ t.pair.silent = 0 ∧ t.reg pgPAR 0x114 = s.reg pgPAR 0x114 + 1 ∧
         t.regBit pgPAR 0x010 3 = true)) ∧
    (s.pair.advs = 0 → exec .gratuitousArpRepeat s = .next (s.land s)) ∧
    (s.pair.advs ≠ 0 → Lands .gratuitousArpRepeat s fun t =>
      t.tick = max s.tick (s.pair.advAt + ftPerS) ∧ t.pair = { s.pair with advs := s.pair.advs - 1, advAt := t.tick }) ∧
    (let on := s.alive = true ∧ s.pair.up = true ∧ s.pairOn = true
     (¬ on → ∀ h f, exec (.health h) s = .next (s.land s) ∧ exec (.time f) s = .next (s.land s)) ∧
     (on → (∀ h : HealthFrame,
        let peer := fld h.word 2 4
        let differs := h.proto.toNat ≠ s.activeImage.proto ∨ h.cfgSum ≠ s.cfgSum
        let pref := if s.regBit pgPAR 0x040 1 ≠ bit h.word hwPref then s.regBit pgPAR 0x040 1 else decide (s.devId < h.devId.toNat)
        let settledRoles := (s.role = rolePrimary ∧ fld h.word 0 2 = roleStandby) ∨ (s.role = roleStandby ∧ fld h.word 0 2 = rolePrimary)
        (Lands (.health h) s fun t => t.reg pgPAR 0x060 = h.word ∧ t.reg pgPAR 0x064 = h.fw ∧ t.reg pgPAR 0x070 = h.cfgSum ∧
          t.pair.heard = true ∧
          t.pair.healthAt = s.tick ∧ t.pair.devId = h.devId ∧ t.pair.silent = 0) ∧
        (s.pairState = psSolo → Lands (.health h) s fun t =>
          (differs → t.pairState = psMismatch ∧ t.regBit pgPAR 0x010 5 = true) ∧ (¬ differs → t.pairState = psJoin) ∧
          (settledRoles → t.role = s.role) ∧
          (¬ settledRoles → s.sys.firstDone = true → bit h.word hwRan = false → t.role = rolePrimary) ∧
          (¬ settledRoles → s.sys.firstDone = false → bit h.word hwRan = true → t.role = roleStandby) ∧
          (¬ settledRoles → s.sys.firstDone = false → bit h.word hwRan = false →
            t.role = if pref then rolePrimary else roleStandby) ∧
          (¬ settledRoles → s.sys.firstDone = true → bit h.word hwRan = true →
            (pref = true → t.role = rolePrimary) ∧ (pref = false → t.role = s.role ∧ t.pair.demote = true))) ∧
        (s.pairState ≠ psSolo → Lands (.health h) s fun t =>
          t.role = s.role ∧ t.pairState =
            if peer = psResync ∧ ((s.role = roleStandby ∧ s.pairState = psArchive) ∨
              (s.role = rolePrimary ∧ (s.pairState = psSync ∨ s.pairState = psLag))) then psResync else s.pairState)) ∧
      ∀ f : TimeFrame, Lands (.time f) s fun t =>
        let same := f.cycle = s.reg pgPHT 0x050 ∧ f.epoch.toNat = s.regFld pgPHT 0x054 0 16
        (s.phtState = stLock → t.reg pgPAR 0x058 =
          word (wrapInt 32 ((f.arrival : Int) - s.ownHalf - f.lag.toNat - (s.reg pgPAR 0x054).toNat))) ∧
        (s.role = roleStandby → t.pair.turn = some f.turn ∧
          (¬ same → t.ridge.ann = some ((f.epoch.toNat * turn + f.cycle.toNat + 1) % 2 ^ 48) ∧
            t.reg pgPAR 0x124 = s.reg pgPAR 0x124 + 1)) ∧
        (s.pairState = psMismatch → t.pairState = if t.pairDiffers then psMismatch else psJoin) ∧
        (s.pairState = psJoin → t.pairState =
          if t.pairDiffers then psMismatch
          else if same ∧ s.phtState = stLock ∧ s.peerBit hwLocked = true ∧ s.pair.demote = false then psArchive else psJoin) ∧
        (s.pairState ≠ psMismatch → s.pairState ≠ psJoin → t.pairState = s.pairState))) ∧
    (s.pair.anchorAt = none ∨ s.alive = false ∨ s.role ≠ roleStandby ∨ s.pair.applying = true →
      exec .heartbeatDecision s = .next (s.land s)) ∧
    ∀ a, s.pair.anchorAt = some a → s.alive = true → s.role = roleStandby → s.pair.applying = false →
      let heard := s.healthIn a = true ∧ s.pair.up = true
      let stays := fun (t : State) (st : Nat) => t.role = roleStandby ∧ t.pairState = st ∧ t.pair.anchorAt = none
      let takes := fun (t : State) (cause : Nat) =>
        t.reg pgPAR 0x094 = word (cause + 256 * b2n (!s.pair.applied)) ∧ t.pair.anchorAt = none ∧
        (s.pair.applied = true → t.role = rolePrimary ∧ t.pairState = psSolo)
      let guarded := s.regBit pgPAR 0x040 3 = true ∧ s.pair.anchorDue ≠ []
      (s.pairState = psFaulted → Lands .heartbeatDecision s fun t => stays t psFaulted) ∧
      (s.pairState ≠ psFaulted → heard →
        (s.peerBit hwFault = true → Lands .heartbeatDecision s fun t => takes t 2) ∧
        (s.peerBit hwFault = false → s.peerBit hwHandover = true → Lands .heartbeatDecision s fun t => takes t 3) ∧
        (s.peerBit hwFault = false → s.peerBit hwHandover = false → s.peerBit hwLeaving = true → Lands .heartbeatDecision s fun t => takes t 4) ∧
        (s.peerBit hwFault = false → s.peerBit hwHandover = false → s.peerBit hwLeaving = false →
          Lands .heartbeatDecision s fun t => stays t s.pairState)) ∧
      (s.pairState ≠ psFaulted → ¬ heard →
        (guarded → s.guardSees = true → Lands .heartbeatDecision s fun t =>
          stays t psOrphan ∧ t.reg pgPAR 0x128 = s.reg pgPAR 0x128 + 1 ∧ t.reg pgPAR 0x110 = s.reg pgPAR 0x110 + 1 ∧
          t.tick = max (max s.tick (a + s.hbWindow + 1)) (a + 800000)) ∧
        (¬ (guarded ∧ s.guardSees = true) → Lands .heartbeatDecision s fun t => takes t (if s.pair.up then 1 else 5)))

/-- O58. Pair: COPY, archive, mirror (R514 to R516, R522, R523): a primary captures dirty words of the first 13,312 in ascending address
and goes by their acknowledgement; a standby writes in place, or logs and applies; containers that it lacks travel; mirror accesses wait
for their answer and end with its status. -/
def Obligations.PairCopyAndMirror : Prop :=
  ∀ s : State,
    (let starts := fun y : Cycle => y.phase = 4 ∧ s.copyRuns = true ∧ s.pair.out = none
     ((∀ y, s.scan.cycle = some y → ¬ starts y) → exec .copyStart s = .next (s.land s)) ∧
     (∀ y, s.scan.cycle = some y → starts y → Lands .copyStart s fun t =>
       t.tick = max s.tick (y.x + 2 + y.tOut) ∧ t.reg pgPAR 0x104 = s.reg pgPAR 0x104 + 1 ∧ ∃ c, t.pair.out = some c ∧
         c.at_ = t.tick ∧ c.seq = s.pair.seq + 1 ∧ t.pair.seq = c.seq ∧ c.words.length ≤ 13312 ∧
         (c.final = false → c.words.length = 13312) ∧ ∀ e ∈ c.words, e.2 = (s.until (y.x + 2 + y.tOut)).copyWord e.1)) ∧
    (s.pair.out = none → exec .copyAckTimeout s = .next (s.land s) ∧ ∀ seq nak, exec (.copyAck seq nak) s = .next (s.land s)) ∧
    (∀ c, s.pair.out = some c →
      let partly := fun t : State => c.final = false → t.reg pgPAR 0x108 = s.reg pgPAR 0x108 + 1
      let failed := fun t : State =>
        t.pair.out = none ∧ t.pair.dirtyFrom = some 0 ∧ t.reg pgPAR 0x10C = s.reg pgPAR 0x10C + 1 ∧ t.regBit pgPAR 0x010 4 = true ∧
        (s.pairState = psSync → s.regFld pgPAR 0x060 2 4 ≠ psResync → t.pairState = psLag) ∧
        (s.pairState = psSync ∨ s.pairState = psLag → s.regFld pgPAR 0x060 2 4 = psResync → t.pairState = psResync)
      (Lands .copyAckTimeout s fun t => failed t ∧ partly t ∧ t.tick = max s.tick (c.at_ + 440001)) ∧
      ∀ seq,
        (word c.seq ≠ seq → ∀ nak, exec (.copyAck seq nak) s = .next (s.land s)) ∧
        (word c.seq = seq →
          (Lands (.copyAck seq true) s fun t => failed t ∧ partly t) ∧
          (c.final = false → Lands (.copyAck seq false) s fun t =>
            t.pair.out = none ∧ t.reg pgPAR 0x108 = s.reg pgPAR 0x108 + 1 ∧ t.regBit pgPAR 0x010 4 = true ∧
            t.pairState = if s.pairState = psSync then psLag else s.pairState) ∧
          (c.final = true → s.pairState = psResync ∨ s.pairState = psSync ∨ s.pairState = psLag → s.regBit pgUPD 0x040 5 = false →
            Lands (.copyAck seq false) s fun t =>
              t.pair.out = none ∧ t.pairState = psSync ∧ t.reg64 pgPAR 0x07C = c.seq % 2 ^ 64 ∧
              (s.pair.wish ≠ 0 → t.pair.flagged = true)))) ∧
    (s.copyTaken = false → ∀ seq i ws n final, exec (.copyData seq i ws) s = .next (s.land s) ∧
      exec (.copyEnd seq n final) s = .next (s.land s)) ∧
    (s.copyTaken = true → ∀ seq : Word,
      let r := s.rxOf seq
      (∀ i words,
        let r' : CopyIn := { r with next := i + 1, count := r.count + words.length, bad := r.bad || decide (i ≠ r.next) }
        (s.pairState ≠ psResync → s.pair.log.length + words.length ≤ 61440 → Lands (.copyData seq i words) s fun t =>
          t = { s with pair := { s.pair with rx := some r', log := s.pair.log ++ words } }) ∧
        (s.pairState ≠ psResync → 61440 < s.pair.log.length + words.length → Lands (.copyData seq i words) s fun t =>
          t.pairState = psResync ∧ t.pair.log = []) ∧
        (s.pairState = psResync → ∀ a v, words = [(a, v)] → a < 16777216 → Lands (.copyData seq i words) s fun t =>
          t.pair.rx = some r' ∧ t.load (32 * a) 32 = v.toNat ∧ ∀ b, b < 32 * a ∨ 32 * a + 32 ≤ b → t.byte b = s.byte b)) ∧
      ∀ n final,
        let whole := r.bad = false ∧ r.count = n
        (¬ whole → Lands (.copyEnd seq n final) s fun t =>
          t.pair.rx = none ∧ t.pair.acked = some (seq, true) ∧ t.upd.copies = 0 ∧
          t.pairState = if s.pairState = psSync then psLag else s.pairState) ∧
        (whole → final = false → Lands (.copyEnd seq n final) s fun t =>
          t.pair.rx = none ∧ t.pair.acked = some (seq, false) ∧ t.pairState = if s.pairState = psSync then psLag else s.pairState) ∧
        (whole → final = true → Lands (.copyEnd seq n final) s fun t =>
          t.pair.rx = none ∧ t.pair.acked = some (seq, false) ∧ t.pair.stamp = r.stamp ∧ t.reg pgPAR 0x07C = seq ∧
          (s.pairState = psResync → t.pairState = psSync ∧ t.pair.applied = true) ∧
          (s.pairState ≠ psResync → t.pairState = s.pairState ∧ t.pair.applying = true))) ∧
    (s.pair.applying = false → exec .logApplyComplete s = .next (s.land s)) ∧
    (s.pair.applying = true → Lands .logApplyComplete s fun t =>
      t.pair.applying = false ∧ t.pair.log = [] ∧ t.pair.applied = true ∧ t.pairState = psSync ∧ t.upd.copies = s.upd.copies + 1 ∧
      ∀ a v, s.pair.log = [(a, v)] → a < 16777216 → t.load (32 * a) 32 = v.toNat) ∧
    (∀ items,
      let serves := s.alive = true ∧ s.pair.up = true ∧ s.role = rolePrimary ∧ s.pairState = psArchive
      let lack := s.archiveItems.filter fun e => !items.contains e
      (¬ serves → exec (.archiveList items) s = .next (s.land s)) ∧
      (serves → Lands (.archiveList items) s fun t =>
        t.pair.archOut = lack.map (fun e => (e.1, e.2.1)) ∧ t.pairState = if lack = [] then psResync else psArchive)) ∧
    (∀ slot gen ofs bytes,
      let takes := s.alive = true ∧ s.pair.up = true ∧ s.role = roleStandby
      let base := (slot * 65536 + gen) * 65536
      let got := (blocksOf 64 (ofs / 32) bytes).foldl (fun t e => Tbl.set (fun _ => []) t (base + e.1) e.2) s.pair.arch
      (¬ takes → exec (.archiveData slot gen ofs bytes) s = .next (s.land s)) ∧
      (takes → wholeContainer got base = none → Lands (.archiveData slot gen ofs bytes) s fun t => t = { s with pair := { s.pair with arch := got } }) ∧
      (takes → ∀ raw, wholeContainer got base = some raw → Lands (.archiveData slot gen ofs bytes) s fun t =>
        ∃ g, g.raw = raw ∧ t.loader.archive = archiveAdd slot g s.loader.archive ∧ ∀ k, k / 65536 = slot * 65536 + gen →
          Tbl.get (fun _ => []) t.pair.arch k = [])) ∧
    (∀ p, s.mayWrite p pgPAR →
      let i := pathIdx p
      let waits := bit (s.getBank i mirResult) 9 = true
      let closed := ¬ (s.pair.up = true ∧ s.pair.accepted = true ∧ s.regBit pgPAR 0x040 2 = true)
      let refused := fun t : State => t.answered p = ⟨stOk, 0⟩ ∧ t.getBank i mirResult = word (stAbsent + 256) ∧ t.pair = s.pair
      let sent := fun (write : Bool) (t : State) =>
        t.answered p = ⟨stOk, 0⟩ ∧ bit (t.getBank i mirResult) 9 = true ∧ t.pair.reqNo = s.pair.reqNo + 1 ∧
        t.pair.mirror = s.pair.mirror ++ [⟨some i, s.pair.reqNo + 1, write, s.getBank i mirAddr, s.getBank i mirData, s.tick⟩] ∧
        t.reg pgPAR 0x12C = s.reg pgPAR 0x12C + 1
      (waits → Answers (.mirRead p) p pgPAR s stOk ∧ Answers (.mirWrite p) p pgPAR s stOk) ∧
      (¬ waits → closed → Ends (.mirRead p) s refused ∧ Ends (.mirWrite p) s refused) ∧
      (¬ waits → ¬ closed → Ends (.mirRead p) s (sent false) ∧ Ends (.mirWrite p) s (sent true))) ∧
    let ended := fun (t : State) (r : MirReq) (st : Nat) (data : Word) =>
      (∀ i, r.path = some i → t.getBank i mirResult = word (st + 256) ∧ (r.write = false → t.getBank i mirRdata = data)) ∧
      (r.path = none → t.reg pgUPD 0x090 = word st ∧ (st ≠ stOk → t.reg pgUPD 0x114 = s.reg pgUPD 0x114 + 1))
    (∀ req data status,
      (s.pair.mirror.find? (fun r => r.req = req) = none → exec (.mirrorRsp req data status) s = .next (s.land s)) ∧
      (∀ r, s.pair.mirror.find? (fun r => r.req = req) = some r → Lands (.mirrorRsp req data status) s fun t =>
        ended t r status.toNat data ∧ t.pair.mirror = s.pair.mirror.filter (fun x => x.req ≠ req))) ∧
    (s.pair.mirror = [] → exec .mirrorTimeout s = .next (s.land s)) ∧
    ∀ r rest, s.pair.mirror = r :: rest → Lands .mirrorTimeout s fun t =>
      ended t r stTimeout 0 ∧ t.pair.mirror = rest ∧ t.tick = max s.tick (r.at_ + 2 * ftPerMs + 1)

/-! ### Digital inputs and outputs -/

/-- O59. Digital inputs and outputs (R61 to R67): a state that has been stable for its filter's time is accepted, and an enabled edge is
stamped with its first tick and counted, fires its own source, and reading the stamp's high word counts as
read; a mapping applies whole or is refused; trips and open loads are held until they are cleared; a change of the supply is reported. -/
def Obligations.DigitalInputsAndOutputs : Prop :=
  ∀ s : State,
    (∀ n rising first, n < 16 → s.intc.took = [] →
      let code := s.diFilter n
      let at_ := max s.tick (first + stableTime code)
      let stamp := max first (at_ - (if code = 0 then 2 else stableTime code))
      let taken := s.sys.released = true ∧ s.regBit pgDIO 0x04C (if rising then n else n + 16) = true
      (s.regBit pgDIO 0x040 n = rising → exec (.diEdge n rising first) s = .next (s.land s)) ∧
      (s.regBit pgDIO 0x040 n ≠ rising → ¬ taken → Lands (.diEdge n rising first) s fun t =>
        t.tick = at_ ∧ t.regBit pgDIO 0x040 n = rising ∧ t.dio = s.dio ∧
        ∀ k, k ≠ rkey pgDIO 0x040 → keyPage k ≠ pgINT → t.getKey k = s.getKey k) ∧
      (s.regBit pgDIO 0x040 n ≠ rising → taken → Lands (.diEdge n rising first) s fun t =>
        t.tick = at_ ∧ t.regBit pgDIO 0x040 n = rising ∧ t.reg64 pgDIO (0x080 + 8 * n) = stamp % 2 ^ 64 ∧
        t.regBit pgDIO 0x058 n = rising ∧ t.regBit pgDIO 0x050 n = true ∧ t.reg pgDIO (0x100 + 4 * n) = s.reg pgDIO (0x100 + 4 * n) + 1 ∧
        t.regBit pgDIO 0x010 0 = true ∧ t.srcPend (64 + n) = true ∧ Tbl.get (fun _ => false) t.dio.unread n = true ∧
        (Tbl.get (fun _ => false) s.dio.unread n = true ∨ (Tbl.get (fun _ => none) s.dio.readAt n : Option Nat) = some at_ →
          t.regBit pgDIO 0x054 n = true))) ∧
    (∀ p n, n < 16 → s.early → s.gate p pgDIO false false = some stOk → Ends (.diStampRead p n) s fun t =>
      t.answered p = ⟨stOk, s.latchedHi p (dkey pgDIO (0x080 + 8 * n))⟩ ∧ Tbl.get (fun _ => false) t.dio.unread n = false ∧
      t = { s with dio := t.dio, last := t.last, ports := [pgDIO] }) ∧
    (∀ m, m < 8 →
      (Lands (.doTrip m) s fun t => t.regBit pgDIO 0x068 m = true ∧ t.doOn m = false ∧ t.regBit pgDIO 0x010 1 = true) ∧
      (s.doOn m = true → exec (.openLoad m) s = .next (s.land s)) ∧
      (s.doOn m = false → Lands (.openLoad m) s fun t =>
        t.regBit pgDIO 0x068 (m + 8) = true ∧ t.regBit pgDIO 0x010 1 = true ∧ OnlyPages [pgDIO] s t)) ∧
    (∀ p data, s.mayWrite p pgDIO →
      (Ends (.doFaultClear p data) s fun t =>
        t.answered p = ⟨stOk, 0⟩ ∧ (∀ k, k < 16 → t.regBit pgDIO 0x068 k = (s.regBit pgDIO 0x068 k && !bit data k)) ∧
        OnlyPages [pgDIO] { s with last := t.last, ports := [pgDIO] } t) ∧
      let w := data &&& 0x80071FFF
      let pt := fld w 0 13
      let refuses := fun (c : Instr) (st k : Nat) => Ends c s fun t =>
        t.answered p = ⟨st, 0⟩ ∧ t.reg pgDIO 0x078 = word (st + 256 * k) ∧ t.regBit pgDIO 0x010 3 = true ∧
        ∀ x, x ≠ rkey pgDIO 0x078 → x ≠ rkey pgDIO 0x010 → t.getKey x = s.getKey x
      (∀ m, m < 8 →
        (bit w 31 = true → s.mapPoint pt = false → refuses (.doMapWrite p m data) stInvalid (16 + m)) ∧
        (bit w 31 = false ∨ s.mapPoint pt = true → Ends (.doMapWrite p m data) s fun t =>
          t.answered p = ⟨stOk, 0⟩ ∧ t.reg pgDIO (0x1C0 + 4 * m) = w ∧ t.regBit pgDIO 0x070 m = bit w 31)) ∧
      ∀ n, n < 16 →
        let old := s.reg pgDIO (0x180 + 4 * n)
        (bit w 31 = false → Ends (.diMapWrite p n data) s fun t =>
          t.answered p = ⟨stOk, 0⟩ ∧ t.reg pgDIO (0x180 + 4 * n) = w ∧ (bit old 31 = true → t.ptKind (fld old 0 13) = wkNone)) ∧
        (bit w 31 = true → s.mapPoint pt = false → refuses (.diMapWrite p n data) stInvalid n) ∧
        (bit w 31 = true → s.mapPoint pt = true → bit old 31 = false →
          (s.ptKind pt ≠ wkNone ∨ s.comingWriter pt = true → refuses (.diMapWrite p n data) stWriterConflict n) ∧
          (s.ptKind pt = wkNone → s.comingWriter pt = false →
            ((s.setReg pgDIO (0x180 + 4 * n) w).budgetOk = false → refuses (.diMapWrite p n data) stBudget n) ∧
            ((s.setReg pgDIO (0x180 + 4 * n) w).budgetOk = true → Ends (.diMapWrite p n data) s fun t =>
              t.answered p = ⟨stOk, 0⟩ ∧ t.reg pgDIO (0x180 + 4 * n) = w ∧ t.ptKind pt = wkDi ∧ t.ptId pt = n)))) ∧
    ∀ ext sns limit,
      let w := word (b2n ext + 2 * b2n sns + 4 * b2n limit)
      (w = s.reg pgDIO 0x074 → exec (.dioSupplyChange ext sns limit) s = .next (s.land s)) ∧
      (w ≠ s.reg pgDIO 0x074 → Lands (.dioSupplyChange ext sns limit) s fun t =>
        t.reg pgDIO 0x074 = w ∧ t.regBit pgDIO 0x010 2 = true ∧ OnlyPages [pgDIO] s t)

/-! ### Reset -/

/-- O60. What the power-on reset leaves (R530, R531, Table SYS-2) of what the spec states: no command waits, no cycle, no lock, no run, no
session and no latch; Ridgeline has not locked and its counters are 0; the lifecycle is FACTORY while no fuse is blown; STATE is BOOT, the
role is NONE and the pair SOLO; and the tables are in canonical form. That memory that nothing has written reads 0 is log entry 6, a
DESIGN CHOICE; that the module of this reset is an unfused MF8192-A is log entry 1. -/
def Obligations.ResetState : Prop :=
  let s := State.reset
  s.pending = [] ∧ s.tick = 0 ∧ s.ridge.locked = false ∧ s.theta = 0 ∧ s.lifecycle = lcFactory ∧ s.fuse.blown = [] ∧ s.keys.queue = [] ∧
  s.scan.cycle = none ∧ s.locks = [] ∧ s.lanes = [] ∧ s.tun.ingress = [] ∧ s.entry = [] ∧ s.sys.fault = 0 ∧ s.sysState = ssBoot ∧
  s.role = roleNone ∧ s.pairState = psSolo ∧ s.pair.up = false ∧ s.reg pgPHT 0x050 = 0 ∧ s.regFld pgPHT 0x054 0 16 = 0 ∧
  s.reg pgSYS 0x010 = 0 ∧ s.regBit pgSCN 0x040 0 = false ∧ Memory.wf s.sram = true ∧ Tbl.wf (RegMap.resetWord s.small) s.regs = true ∧
  (∀ a, s.byte a = 0) ∧ ∀ t, step s = .next t → t.tick = 1 ∧ t.regs = s.regs
end

