-- ==== Sys2Proof/Laws/Table.lean ====
section
/-! SUPPORT. The laws of sparse tables: what a read gives after a write, and that every operation keeps the canonical form. -/

namespace Sys2Proof.Machine

theorem Tbl.get_drop_same {α : Type} (d : Nat → α) (t : Tbl α) (k : Nat) : Tbl.get d (Tbl.drop k t) k = d k := by
  induction t with
  | nil => rfl
  | cons e r ih => obtain ⟨a, v⟩ := e; simp only [Tbl.drop]; split <;> simp_all [Tbl.get]

theorem Tbl.get_drop_ne {α : Type} (d : Nat → α) (t : Tbl α) {k j : Nat} (h : j ≠ k) :
    Tbl.get d (Tbl.drop k t) j = Tbl.get d t j := by
  induction t with
  | nil => rfl
  | cons e r ih =>
    obtain ⟨a, v⟩ := e
    simp only [Tbl.drop]
    split
    · subst_vars; simp [Tbl.get, h, ih]
    · simp [Tbl.get, ih]

theorem Tbl.get_put_same {α : Type} (d : Nat → α) (t : Tbl α) (k : Nat) (v : α) :
    Tbl.get d (Tbl.put k v (Tbl.drop k t)) k = v := by
  induction t with
  | nil => simp [Tbl.drop, Tbl.put, Tbl.get]
  | cons e r ih =>
    obtain ⟨a, w⟩ := e
    by_cases h : k = a
    · simp [Tbl.drop, h] at ih ⊢; exact ih
    · simp only [Tbl.drop, if_neg h, Tbl.put]
      split <;> simp [Tbl.get, h, ih]

theorem Tbl.get_put_ne {α : Type} (d : Nat → α) (t : Tbl α) {k j : Nat} (v : α) (h : j ≠ k) :
    Tbl.get d (Tbl.put k v t) j = Tbl.get d t j := by
  induction t with
  | nil => simp [Tbl.put, Tbl.get, h]
  | cons e r ih =>
    obtain ⟨a, w⟩ := e
    simp only [Tbl.put]
    split <;> simp [Tbl.get, h, ih]

/-- A read of the key just written gives the value written. -/
@[simp] theorem Tbl.get_set_same {α : Type} [DecidableEq α] (d : Nat → α) (t : Tbl α) (k : Nat) (v : α) :
    Tbl.get d (Tbl.set d t k v) k = v := by
  unfold Tbl.set
  split
  · rw [Tbl.get_drop_same]; simp_all
  · exact Tbl.get_put_same d t k v

/-- A write leaves every other key alone. -/
@[simp] theorem Tbl.get_set_ne {α : Type} [DecidableEq α] (d : Nat → α) (t : Tbl α) {k j : Nat} (v : α) (h : j ≠ k) :
    Tbl.get d (Tbl.set d t k v) j = Tbl.get d t j := by
  unfold Tbl.set
  split
  · exact Tbl.get_drop_ne d t h
  · rw [Tbl.get_put_ne d _ v h, Tbl.get_drop_ne d t h]

/-- A read after a write, both cases at once. -/
theorem Tbl.get_set {α : Type} [DecidableEq α] (d : Nat → α) (t : Tbl α) (k j : Nat) (v : α) :
    Tbl.get d (Tbl.set d t k v) j = if j = k then v else Tbl.get d t j := by
  split
  · subst_vars; simp
  · simp_all

/-! ### The canonical form -/

/-- `b` lies below every key that follows: the bound of `Tbl.rising`. -/
theorem Tbl.rising_weaken {α : Type} (t : Tbl α) {a b : Nat} (hab : b ≤ a) (h : Tbl.rising (some a) t = true) :
    Tbl.rising (some b) t = true := by
  cases t with
  | nil => rfl
  | cons e r =>
    obtain ⟨c, v⟩ := e
    simp only [Tbl.rising, Bool.and_eq_true, decide_eq_true_eq] at h ⊢
    exact ⟨by omega, h.2⟩

theorem Tbl.rising_none {α : Type} (t : Tbl α) {a : Nat} (h : Tbl.rising (some a) t = true) : Tbl.rising none t = true := by
  cases t with
  | nil => rfl
  | cons e r => obtain ⟨c, v⟩ := e; simp_all [Tbl.rising]

theorem Tbl.rising_drop {α : Type} (t : Tbl α) (k : Nat) (b : Option Nat) (h : Tbl.rising b t = true) :
    Tbl.rising b (Tbl.drop k t) = true := by
  induction t generalizing b with
  | nil => rfl
  | cons e r ih =>
    obtain ⟨a, v⟩ := e
    simp only [Tbl.rising, Bool.and_eq_true] at h
    simp only [Tbl.drop]
    split
    · cases b with
      | none => exact Tbl.rising_none _ (ih _ h.2)
      | some c =>
        have hc : c < a := by simpa using h.1
        exact Tbl.rising_weaken _ (Nat.le_of_lt hc) (ih _ h.2)
    · simp only [Tbl.rising, Bool.and_eq_true]; exact ⟨h.1, ih _ h.2⟩

theorem Tbl.rising_put {α : Type} (t : Tbl α) (k : Nat) (v : α) (b : Option Nat)
    (hb : ∀ c, b = some c → c < k) (hk : ∀ e ∈ t, e.1 ≠ k) (h : Tbl.rising b t = true) :
    Tbl.rising b (Tbl.put k v t) = true := by
  induction t generalizing b with
  | nil => cases b <;> simp_all [Tbl.put, Tbl.rising]
  | cons e r ih =>
    obtain ⟨a, w⟩ := e
    have hne : a ≠ k := hk (a, w) (by simp)
    simp only [Tbl.rising, Bool.and_eq_true] at h
    simp only [Tbl.put]
    split
    · rename_i hlt
      cases b <;> simp_all [Tbl.rising]
    · simp only [Tbl.rising, Bool.and_eq_true]
      refine ⟨h.1, ih _ ?_ (fun e he => hk e (by simp [he])) h.2⟩
      intro c hc; cases hc; omega

theorem Tbl.mem_drop {α : Type} (t : Tbl α) (k : Nat) (e : Nat × α) (h : e ∈ Tbl.drop k t) : e ∈ t ∧ e.1 ≠ k := by
  induction t with
  | nil => simp [Tbl.drop] at h
  | cons x r ih =>
    obtain ⟨a, v⟩ := x
    simp only [Tbl.drop] at h
    split at h
    · obtain ⟨h1, h2⟩ := ih h; exact ⟨by simp [h1], h2⟩
    · rcases List.mem_cons.1 h with rfl | h
      · exact ⟨by simp, fun hh => by simp_all⟩
      · obtain ⟨h1, h2⟩ := ih h; exact ⟨by simp [h1], h2⟩

theorem Tbl.mem_put {α : Type} (t : Tbl α) (k : Nat) (v : α) (e : Nat × α) (h : e ∈ Tbl.put k v t) :
    e = (k, v) ∨ e ∈ t := by
  induction t with
  | nil => simpa [Tbl.put] using h
  | cons x r ih =>
    obtain ⟨a, w⟩ := x
    simp only [Tbl.put] at h
    split at h
    · simpa using h
    · rcases List.mem_cons.1 h with rfl | h
      · simp
      · rcases ih h with h | h <;> simp [h]

/-- A write keeps the canonical form. -/
theorem Tbl.wf_set {α : Type} [DecidableEq α] (d : Nat → α) (t : Tbl α) (k : Nat) (v : α) (h : Tbl.wf d t = true) :
    Tbl.wf d (Tbl.set d t k v) = true := by
  simp only [Tbl.wf, Bool.and_eq_true, List.all_eq_true, decide_eq_true_eq] at h ⊢
  unfold Tbl.set
  split
  · exact ⟨Tbl.rising_drop _ _ _ h.1, fun e he => h.2 e (Tbl.mem_drop _ _ _ he).1⟩
  · refine ⟨Tbl.rising_put _ _ _ _ (by simp) (fun e he => (Tbl.mem_drop _ _ _ he).2) (Tbl.rising_drop _ _ _ h.1), ?_⟩
    intro e he
    rcases Tbl.mem_put _ _ _ _ he with rfl | he
    · assumption
    · exact h.2 e (Tbl.mem_drop _ _ _ he).1

/-- Two canonical tables that read alike are equal: equal contents are equal data. -/
theorem Tbl.get_below {α : Type} (d : Nat → α) (t : Tbl α) (k : Nat) (h : Tbl.rising (some k) t = true) :
    Tbl.get d t k = d k := by
  induction t generalizing k with
  | nil => rfl
  | cons e r ih =>
    obtain ⟨a, v⟩ := e
    simp only [Tbl.rising, Bool.and_eq_true, decide_eq_true_eq] at h
    have : k ≠ a := by omega
    simp only [Tbl.get, if_neg this]
    exact ih k (Tbl.rising_weaken _ (Nat.le_of_lt h.1) h.2)

end Sys2Proof.Machine
end

