-- ==== Sys2Proof/Laws/State.lean ====
section
/-! SUPPORT. The small laws of the named operations on the state: which field each changes, and what a read gives after each.
With them no later proof unfolds an update of the state. -/

namespace Sys2Proof.Machine

/-! ### What each operation leaves alone -/

@[simp] theorem State.setKey_shadow (s : State) (k : Nat) (w : Word) : (s.setKey k w).shadow = s.shadow := rfl
@[simp] theorem State.setKey_bank (s : State) (k : Nat) (w : Word) : (s.setKey k w).bank = s.bank := rfl
@[simp] theorem State.setKey_entry (s : State) (k : Nat) (w : Word) : (s.setKey k w).entry = s.entry := rfl
@[simp] theorem State.setKey_last (s : State) (k : Nat) (w : Word) : (s.setKey k w).last = s.last := rfl
@[simp] theorem State.setKey_busy (s : State) (k : Nat) (w : Word) : (s.setKey k w).busy = s.busy := rfl
@[simp] theorem State.setKey_waiting (s : State) (k : Nat) (w : Word) : (s.setKey k w).waiting = s.waiting := rfl
@[simp] theorem State.setKey_fences (s : State) (k : Nat) (w : Word) : (s.setKey k w).fences = s.fences := rfl
@[simp] theorem State.setKey_spi (s : State) (k : Nat) (w : Word) : (s.setKey k w).spi = s.spi := rfl
@[simp] theorem State.setKey_intc (s : State) (k : Nat) (w : Word) : (s.setKey k w).intc = s.intc := rfl
@[simp] theorem State.setKey_tick (s : State) (k : Nat) (w : Word) : (s.setKey k w).tick = s.tick := rfl
@[simp] theorem State.setKey_fresh (s : State) (k : Nat) (w : Word) : (s.setKey k w).fresh = s.fresh := rfl
@[simp] theorem State.setKey_sram (s : State) (k : Nat) (w : Word) : (s.setKey k w).sram = s.sram := rfl
@[simp] theorem State.setKey_ridge (s : State) (k : Nat) (w : Word) : (s.setKey k w).ridge = s.ridge := rfl
@[simp] theorem State.setKey_power (s : State) (k : Nat) (w : Word) : (s.setKey k w).power = s.power := rfl
@[simp] theorem State.setKey_sys (s : State) (k : Nat) (w : Word) : (s.setKey k w).sys = s.sys := rfl
@[simp] theorem State.setKey_cairn (s : State) (k : Nat) (w : Word) : (s.setKey k w).cairn = s.cairn := rfl
@[simp] theorem State.setKey_fabric (s : State) (k : Nat) (w : Word) : (s.setKey k w).fabric = s.fabric := rfl
@[simp] theorem State.setKey_rtc (s : State) (k : Nat) (w : Word) : (s.setKey k w).rtc = s.rtc := rfl
@[simp] theorem State.setKey_points (s : State) (k : Nat) (w : Word) : (s.setKey k w).points = s.points := rfl
@[simp] theorem State.setKey_slots (s : State) (k : Nat) (w : Word) : (s.setKey k w).slots = s.slots := rfl
@[simp] theorem State.setKey_loader (s : State) (k : Nat) (w : Word) : (s.setKey k w).loader = s.loader := rfl
@[simp] theorem State.setKey_lanes (s : State) (k : Nat) (w : Word) : (s.setKey k w).lanes = s.lanes := rfl
@[simp] theorem State.setKey_scan (s : State) (k : Nat) (w : Word) : (s.setKey k w).scan = s.scan := rfl
@[simp] theorem State.setKey_locks (s : State) (k : Nat) (w : Word) : (s.setKey k w).locks = s.locks := rfl
@[simp] theorem State.setKey_loops (s : State) (k : Nat) (w : Word) : (s.setKey k w).loops = s.loops := rfl
@[simp] theorem State.setKey_meter (s : State) (k : Nat) (w : Word) : (s.setKey k w).meter = s.meter := rfl
@[simp] theorem State.setKey_links (s : State) (k : Nat) (w : Word) : (s.setKey k w).links = s.links := rfl
@[simp] theorem State.setKey_bus (s : State) (k : Nat) (w : Word) : (s.setKey k w).bus = s.bus := rfl
@[simp] theorem State.setKey_net (s : State) (k : Nat) (w : Word) : (s.setKey k w).net = s.net := rfl
@[simp] theorem State.setKey_tun (s : State) (k : Nat) (w : Word) : (s.setKey k w).tun = s.tun := rfl
@[simp] theorem State.setKey_keys (s : State) (k : Nat) (w : Word) : (s.setKey k w).keys = s.keys := rfl
@[simp] theorem State.setKey_fuse (s : State) (k : Nat) (w : Word) : (s.setKey k w).fuse = s.fuse := rfl
@[simp] theorem State.setKey_variant (s : State) (k : Nat) (w : Word) : (s.setKey k w).variant = s.variant := rfl
@[simp] theorem State.setKey_upd (s : State) (k : Nat) (w : Word) : (s.setKey k w).upd = s.upd := rfl
@[simp] theorem State.setKey_pair (s : State) (k : Nat) (w : Word) : (s.setKey k w).pair = s.pair := rfl
@[simp] theorem State.setKey_dio (s : State) (k : Nat) (w : Word) : (s.setKey k w).dio = s.dio := rfl
@[simp] theorem State.setKey_was (s : State) (k : Nat) (w : Word) : (s.setKey k w).was = s.was := rfl
@[simp] theorem State.setKey_closed (s : State) (k : Nat) (w : Word) : (s.setKey k w).closed = s.closed := rfl
@[simp] theorem State.setKey_ports (s : State) (k : Nat) (w : Word) : (s.setKey k w).ports = s.ports := rfl
@[simp] theorem State.setKey_snapAt (s : State) (k : Nat) (w : Word) : (s.setKey k w).snapAt = s.snapAt := rfl
@[simp] theorem State.setKey_pending (s : State) (k : Nat) (w : Word) : (s.setKey k w).pending = s.pending := rfl
@[simp] theorem State.setKey_getShadow_read (s : State) (k : Nat) (w : Word) (pg' ofs' : Nat) : (s.setKey k w).getShadow pg' ofs' = s.getShadow pg' ofs' := rfl
@[simp] theorem State.setKey_getBank_read (s : State) (k : Nat) (w : Word) (p' k' : Nat) : (s.setKey k w).getBank p' k' = s.getBank p' k' := rfl
@[simp] theorem State.setKey_answered_read (s : State) (k : Nat) (w : Word) (p' : Path) : (s.setKey k w).answered p' = s.answered p' := rfl
@[simp] theorem State.setKey_byte_read (s : State) (k : Nat) (w : Word) (a' : Nat) : (s.setKey k w).byte a' = s.byte a' := rfl
@[simp] theorem State.setKey_lane_read (s : State) (k : Nat) (w : Word) (l' : Nat) : (s.setKey k w).lane l' = s.lane l' := rfl
@[simp] theorem State.setKey_slot_read (s : State) (k : Nat) (w : Word) (n' : Nat) : (s.setKey k w).slot n' = s.slot n' := rfl
@[simp] theorem State.setKey_session_read (s : State) (k : Nat) (w : Word) (n' : Nat) : (s.setKey k w).session n' = s.session n' := rfl
@[simp] theorem State.setKey_fuseReg_read (s : State) (k : Nat) (w : Word) (ofs' : Nat) : (s.setKey k w).fuseReg ofs' = s.fuseReg ofs' := rfl
@[simp] theorem State.setKey_lifecycle_read (s : State) (k : Nat) (w : Word)  : (s.setKey k w).lifecycle = s.lifecycle  := rfl
@[simp] theorem State.setKey_spiEnabled_read (s : State) (k : Nat) (w : Word)  : (s.setKey k w).spiEnabled = s.spiEnabled  := rfl
@[simp] theorem State.setKey_theta_read (s : State) (k : Nat) (w : Word)  : (s.setKey k w).theta = s.theta  := rfl
@[simp] theorem State.setShadow_regs (s : State) (pg ofs : Nat) (w : Word) : (s.setShadow pg ofs w).regs = s.regs := rfl
@[simp] theorem State.setShadow_bank (s : State) (pg ofs : Nat) (w : Word) : (s.setShadow pg ofs w).bank = s.bank := rfl
@[simp] theorem State.setShadow_entry (s : State) (pg ofs : Nat) (w : Word) : (s.setShadow pg ofs w).entry = s.entry := rfl
@[simp] theorem State.setShadow_last (s : State) (pg ofs : Nat) (w : Word) : (s.setShadow pg ofs w).last = s.last := rfl
@[simp] theorem State.setShadow_busy (s : State) (pg ofs : Nat) (w : Word) : (s.setShadow pg ofs w).busy = s.busy := rfl
@[simp] theorem State.setShadow_waiting (s : State) (pg ofs : Nat) (w : Word) : (s.setShadow pg ofs w).waiting = s.waiting := rfl
@[simp] theorem State.setShadow_fences (s : State) (pg ofs : Nat) (w : Word) : (s.setShadow pg ofs w).fences = s.fences := rfl
@[simp] theorem State.setShadow_spi (s : State) (pg ofs : Nat) (w : Word) : (s.setShadow pg ofs w).spi = s.spi := rfl
@[simp] theorem State.setShadow_intc (s : State) (pg ofs : Nat) (w : Word) : (s.setShadow pg ofs w).intc = s.intc := rfl
@[simp] theorem State.setShadow_tick (s : State) (pg ofs : Nat) (w : Word) : (s.setShadow pg ofs w).tick = s.tick := rfl
@[simp] theorem State.setShadow_fresh (s : State) (pg ofs : Nat) (w : Word) : (s.setShadow pg ofs w).fresh = s.fresh := rfl
@[simp] theorem State.setShadow_sram (s : State) (pg ofs : Nat) (w : Word) : (s.setShadow pg ofs w).sram = s.sram := rfl
@[simp] theorem State.setShadow_ridge (s : State) (pg ofs : Nat) (w : Word) : (s.setShadow pg ofs w).ridge = s.ridge := rfl
@[simp] theorem State.setShadow_power (s : State) (pg ofs : Nat) (w : Word) : (s.setShadow pg ofs w).power = s.power := rfl
@[simp] theorem State.setShadow_sys (s : State) (pg ofs : Nat) (w : Word) : (s.setShadow pg ofs w).sys = s.sys := rfl
@[simp] theorem State.setShadow_cairn (s : State) (pg ofs : Nat) (w : Word) : (s.setShadow pg ofs w).cairn = s.cairn := rfl
@[simp] theorem State.setShadow_fabric (s : State) (pg ofs : Nat) (w : Word) : (s.setShadow pg ofs w).fabric = s.fabric := rfl
@[simp] theorem State.setShadow_rtc (s : State) (pg ofs : Nat) (w : Word) : (s.setShadow pg ofs w).rtc = s.rtc := rfl
@[simp] theorem State.setShadow_points (s : State) (pg ofs : Nat) (w : Word) : (s.setShadow pg ofs w).points = s.points := rfl
@[simp] theorem State.setShadow_slots (s : State) (pg ofs : Nat) (w : Word) : (s.setShadow pg ofs w).slots = s.slots := rfl
@[simp] theorem State.setShadow_loader (s : State) (pg ofs : Nat) (w : Word) : (s.setShadow pg ofs w).loader = s.loader := rfl
@[simp] theorem State.setShadow_lanes (s : State) (pg ofs : Nat) (w : Word) : (s.setShadow pg ofs w).lanes = s.lanes := rfl
@[simp] theorem State.setShadow_scan (s : State) (pg ofs : Nat) (w : Word) : (s.setShadow pg ofs w).scan = s.scan := rfl
@[simp] theorem State.setShadow_locks (s : State) (pg ofs : Nat) (w : Word) : (s.setShadow pg ofs w).locks = s.locks := rfl
@[simp] theorem State.setShadow_loops (s : State) (pg ofs : Nat) (w : Word) : (s.setShadow pg ofs w).loops = s.loops := rfl
@[simp] theorem State.setShadow_meter (s : State) (pg ofs : Nat) (w : Word) : (s.setShadow pg ofs w).meter = s.meter := rfl
@[simp] theorem State.setShadow_links (s : State) (pg ofs : Nat) (w : Word) : (s.setShadow pg ofs w).links = s.links := rfl
@[simp] theorem State.setShadow_bus (s : State) (pg ofs : Nat) (w : Word) : (s.setShadow pg ofs w).bus = s.bus := rfl
@[simp] theorem State.setShadow_net (s : State) (pg ofs : Nat) (w : Word) : (s.setShadow pg ofs w).net = s.net := rfl
@[simp] theorem State.setShadow_tun (s : State) (pg ofs : Nat) (w : Word) : (s.setShadow pg ofs w).tun = s.tun := rfl
@[simp] theorem State.setShadow_keys (s : State) (pg ofs : Nat) (w : Word) : (s.setShadow pg ofs w).keys = s.keys := rfl
@[simp] theorem State.setShadow_fuse (s : State) (pg ofs : Nat) (w : Word) : (s.setShadow pg ofs w).fuse = s.fuse := rfl
@[simp] theorem State.setShadow_variant (s : State) (pg ofs : Nat) (w : Word) : (s.setShadow pg ofs w).variant = s.variant := rfl
@[simp] theorem State.setShadow_upd (s : State) (pg ofs : Nat) (w : Word) : (s.setShadow pg ofs w).upd = s.upd := rfl
@[simp] theorem State.setShadow_pair (s : State) (pg ofs : Nat) (w : Word) : (s.setShadow pg ofs w).pair = s.pair := rfl
@[simp] theorem State.setShadow_dirty (s : State) (pg ofs : Nat) (w : Word) : (s.setShadow pg ofs w).dirty = s.dirty := rfl
@[simp] theorem State.setShadow_dio (s : State) (pg ofs : Nat) (w : Word) : (s.setShadow pg ofs w).dio = s.dio := rfl
@[simp] theorem State.setShadow_was (s : State) (pg ofs : Nat) (w : Word) : (s.setShadow pg ofs w).was = s.was := rfl
@[simp] theorem State.setShadow_closed (s : State) (pg ofs : Nat) (w : Word) : (s.setShadow pg ofs w).closed = s.closed := rfl
@[simp] theorem State.setShadow_ports (s : State) (pg ofs : Nat) (w : Word) : (s.setShadow pg ofs w).ports = s.ports := rfl
@[simp] theorem State.setShadow_snapAt (s : State) (pg ofs : Nat) (w : Word) : (s.setShadow pg ofs w).snapAt = s.snapAt := rfl
@[simp] theorem State.setShadow_pending (s : State) (pg ofs : Nat) (w : Word) : (s.setShadow pg ofs w).pending = s.pending := rfl
@[simp] theorem State.setShadow_getKey_read (s : State) (pg ofs : Nat) (w : Word) (j : Nat) : (s.setShadow pg ofs w).getKey j = s.getKey j := rfl
@[simp] theorem State.setShadow_getBank_read (s : State) (pg ofs : Nat) (w : Word) (p' k' : Nat) : (s.setShadow pg ofs w).getBank p' k' = s.getBank p' k' := rfl
@[simp] theorem State.setShadow_answered_read (s : State) (pg ofs : Nat) (w : Word) (p' : Path) : (s.setShadow pg ofs w).answered p' = s.answered p' := rfl
@[simp] theorem State.setShadow_byte_read (s : State) (pg ofs : Nat) (w : Word) (a' : Nat) : (s.setShadow pg ofs w).byte a' = s.byte a' := rfl
@[simp] theorem State.setShadow_lane_read (s : State) (pg ofs : Nat) (w : Word) (l' : Nat) : (s.setShadow pg ofs w).lane l' = s.lane l' := rfl
@[simp] theorem State.setShadow_slot_read (s : State) (pg ofs : Nat) (w : Word) (n' : Nat) : (s.setShadow pg ofs w).slot n' = s.slot n' := rfl
@[simp] theorem State.setShadow_session_read (s : State) (pg ofs : Nat) (w : Word) (n' : Nat) : (s.setShadow pg ofs w).session n' = s.session n' := rfl
@[simp] theorem State.setShadow_fuseReg_read (s : State) (pg ofs : Nat) (w : Word) (ofs' : Nat) : (s.setShadow pg ofs w).fuseReg ofs' = s.fuseReg ofs' := rfl
@[simp] theorem State.setShadow_lifecycle_read (s : State) (pg ofs : Nat) (w : Word)  : (s.setShadow pg ofs w).lifecycle = s.lifecycle  := rfl
@[simp] theorem State.setShadow_spiEnabled_read (s : State) (pg ofs : Nat) (w : Word)  : (s.setShadow pg ofs w).spiEnabled = s.spiEnabled  := rfl
@[simp] theorem State.setShadow_theta_read (s : State) (pg ofs : Nat) (w : Word)  : (s.setShadow pg ofs w).theta = s.theta  := rfl
@[simp] theorem State.setBank_regs (s : State) (p k : Nat) (w : Word) : (s.setBank p k w).regs = s.regs := rfl
@[simp] theorem State.setBank_shadow (s : State) (p k : Nat) (w : Word) : (s.setBank p k w).shadow = s.shadow := rfl
@[simp] theorem State.setBank_entry (s : State) (p k : Nat) (w : Word) : (s.setBank p k w).entry = s.entry := rfl
@[simp] theorem State.setBank_last (s : State) (p k : Nat) (w : Word) : (s.setBank p k w).last = s.last := rfl
@[simp] theorem State.setBank_busy (s : State) (p k : Nat) (w : Word) : (s.setBank p k w).busy = s.busy := rfl
@[simp] theorem State.setBank_waiting (s : State) (p k : Nat) (w : Word) : (s.setBank p k w).waiting = s.waiting := rfl
@[simp] theorem State.setBank_fences (s : State) (p k : Nat) (w : Word) : (s.setBank p k w).fences = s.fences := rfl
@[simp] theorem State.setBank_spi (s : State) (p k : Nat) (w : Word) : (s.setBank p k w).spi = s.spi := rfl
@[simp] theorem State.setBank_intc (s : State) (p k : Nat) (w : Word) : (s.setBank p k w).intc = s.intc := rfl
@[simp] theorem State.setBank_tick (s : State) (p k : Nat) (w : Word) : (s.setBank p k w).tick = s.tick := rfl
@[simp] theorem State.setBank_fresh (s : State) (p k : Nat) (w : Word) : (s.setBank p k w).fresh = s.fresh := rfl
@[simp] theorem State.setBank_sram (s : State) (p k : Nat) (w : Word) : (s.setBank p k w).sram = s.sram := rfl
@[simp] theorem State.setBank_ridge (s : State) (p k : Nat) (w : Word) : (s.setBank p k w).ridge = s.ridge := rfl
@[simp] theorem State.setBank_power (s : State) (p k : Nat) (w : Word) : (s.setBank p k w).power = s.power := rfl
@[simp] theorem State.setBank_sys (s : State) (p k : Nat) (w : Word) : (s.setBank p k w).sys = s.sys := rfl
@[simp] theorem State.setBank_cairn (s : State) (p k : Nat) (w : Word) : (s.setBank p k w).cairn = s.cairn := rfl
@[simp] theorem State.setBank_fabric (s : State) (p k : Nat) (w : Word) : (s.setBank p k w).fabric = s.fabric := rfl
@[simp] theorem State.setBank_rtc (s : State) (p k : Nat) (w : Word) : (s.setBank p k w).rtc = s.rtc := rfl
@[simp] theorem State.setBank_points (s : State) (p k : Nat) (w : Word) : (s.setBank p k w).points = s.points := rfl
@[simp] theorem State.setBank_slots (s : State) (p k : Nat) (w : Word) : (s.setBank p k w).slots = s.slots := rfl
@[simp] theorem State.setBank_loader (s : State) (p k : Nat) (w : Word) : (s.setBank p k w).loader = s.loader := rfl
@[simp] theorem State.setBank_lanes (s : State) (p k : Nat) (w : Word) : (s.setBank p k w).lanes = s.lanes := rfl
@[simp] theorem State.setBank_scan (s : State) (p k : Nat) (w : Word) : (s.setBank p k w).scan = s.scan := rfl
@[simp] theorem State.setBank_locks (s : State) (p k : Nat) (w : Word) : (s.setBank p k w).locks = s.locks := rfl
@[simp] theorem State.setBank_loops (s : State) (p k : Nat) (w : Word) : (s.setBank p k w).loops = s.loops := rfl
@[simp] theorem State.setBank_meter (s : State) (p k : Nat) (w : Word) : (s.setBank p k w).meter = s.meter := rfl
@[simp] theorem State.setBank_links (s : State) (p k : Nat) (w : Word) : (s.setBank p k w).links = s.links := rfl
@[simp] theorem State.setBank_bus (s : State) (p k : Nat) (w : Word) : (s.setBank p k w).bus = s.bus := rfl
@[simp] theorem State.setBank_net (s : State) (p k : Nat) (w : Word) : (s.setBank p k w).net = s.net := rfl
@[simp] theorem State.setBank_tun (s : State) (p k : Nat) (w : Word) : (s.setBank p k w).tun = s.tun := rfl
@[simp] theorem State.setBank_keys (s : State) (p k : Nat) (w : Word) : (s.setBank p k w).keys = s.keys := rfl
@[simp] theorem State.setBank_fuse (s : State) (p k : Nat) (w : Word) : (s.setBank p k w).fuse = s.fuse := rfl
@[simp] theorem State.setBank_variant (s : State) (p k : Nat) (w : Word) : (s.setBank p k w).variant = s.variant := rfl
@[simp] theorem State.setBank_upd (s : State) (p k : Nat) (w : Word) : (s.setBank p k w).upd = s.upd := rfl
@[simp] theorem State.setBank_pair (s : State) (p k : Nat) (w : Word) : (s.setBank p k w).pair = s.pair := rfl
@[simp] theorem State.setBank_dirty (s : State) (p k : Nat) (w : Word) : (s.setBank p k w).dirty = s.dirty := rfl
@[simp] theorem State.setBank_dio (s : State) (p k : Nat) (w : Word) : (s.setBank p k w).dio = s.dio := rfl
@[simp] theorem State.setBank_was (s : State) (p k : Nat) (w : Word) : (s.setBank p k w).was = s.was := rfl
@[simp] theorem State.setBank_closed (s : State) (p k : Nat) (w : Word) : (s.setBank p k w).closed = s.closed := rfl
@[simp] theorem State.setBank_ports (s : State) (p k : Nat) (w : Word) : (s.setBank p k w).ports = s.ports := rfl
@[simp] theorem State.setBank_snapAt (s : State) (p k : Nat) (w : Word) : (s.setBank p k w).snapAt = s.snapAt := rfl
@[simp] theorem State.setBank_pending (s : State) (p k : Nat) (w : Word) : (s.setBank p k w).pending = s.pending := rfl
@[simp] theorem State.setBank_getKey_read (s : State) (p k : Nat) (w : Word) (j : Nat) : (s.setBank p k w).getKey j = s.getKey j := rfl
@[simp] theorem State.setBank_getShadow_read (s : State) (p k : Nat) (w : Word) (pg' ofs' : Nat) : (s.setBank p k w).getShadow pg' ofs' = s.getShadow pg' ofs' := rfl
@[simp] theorem State.setBank_answered_read (s : State) (p k : Nat) (w : Word) (p' : Path) : (s.setBank p k w).answered p' = s.answered p' := rfl
@[simp] theorem State.setBank_byte_read (s : State) (p k : Nat) (w : Word) (a' : Nat) : (s.setBank p k w).byte a' = s.byte a' := rfl
@[simp] theorem State.setBank_lane_read (s : State) (p k : Nat) (w : Word) (l' : Nat) : (s.setBank p k w).lane l' = s.lane l' := rfl
@[simp] theorem State.setBank_slot_read (s : State) (p k : Nat) (w : Word) (n' : Nat) : (s.setBank p k w).slot n' = s.slot n' := rfl
@[simp] theorem State.setBank_session_read (s : State) (p k : Nat) (w : Word) (n' : Nat) : (s.setBank p k w).session n' = s.session n' := rfl
@[simp] theorem State.setBank_fuseReg_read (s : State) (p k : Nat) (w : Word) (ofs' : Nat) : (s.setBank p k w).fuseReg ofs' = s.fuseReg ofs' := rfl
@[simp] theorem State.setBank_lifecycle_read (s : State) (p k : Nat) (w : Word)  : (s.setBank p k w).lifecycle = s.lifecycle  := rfl
@[simp] theorem State.setBank_spiEnabled_read (s : State) (p k : Nat) (w : Word)  : (s.setBank p k w).spiEnabled = s.spiEnabled  := rfl
@[simp] theorem State.setBank_theta_read (s : State) (p k : Nat) (w : Word)  : (s.setBank p k w).theta = s.theta  := rfl
@[simp] theorem State.answer_regs (s : State) (p : Path) (st : Nat) (w : Word) : (s.answer p st w).regs = s.regs := rfl
@[simp] theorem State.answer_shadow (s : State) (p : Path) (st : Nat) (w : Word) : (s.answer p st w).shadow = s.shadow := rfl
@[simp] theorem State.answer_bank (s : State) (p : Path) (st : Nat) (w : Word) : (s.answer p st w).bank = s.bank := rfl
@[simp] theorem State.answer_entry (s : State) (p : Path) (st : Nat) (w : Word) : (s.answer p st w).entry = s.entry := rfl
@[simp] theorem State.answer_busy (s : State) (p : Path) (st : Nat) (w : Word) : (s.answer p st w).busy = s.busy := rfl
@[simp] theorem State.answer_waiting (s : State) (p : Path) (st : Nat) (w : Word) : (s.answer p st w).waiting = s.waiting := rfl
@[simp] theorem State.answer_fences (s : State) (p : Path) (st : Nat) (w : Word) : (s.answer p st w).fences = s.fences := rfl
@[simp] theorem State.answer_spi (s : State) (p : Path) (st : Nat) (w : Word) : (s.answer p st w).spi = s.spi := rfl
@[simp] theorem State.answer_intc (s : State) (p : Path) (st : Nat) (w : Word) : (s.answer p st w).intc = s.intc := rfl
@[simp] theorem State.answer_tick (s : State) (p : Path) (st : Nat) (w : Word) : (s.answer p st w).tick = s.tick := rfl
@[simp] theorem State.answer_fresh (s : State) (p : Path) (st : Nat) (w : Word) : (s.answer p st w).fresh = s.fresh := rfl
@[simp] theorem State.answer_sram (s : State) (p : Path) (st : Nat) (w : Word) : (s.answer p st w).sram = s.sram := rfl
@[simp] theorem State.answer_ridge (s : State) (p : Path) (st : Nat) (w : Word) : (s.answer p st w).ridge = s.ridge := rfl
@[simp] theorem State.answer_power (s : State) (p : Path) (st : Nat) (w : Word) : (s.answer p st w).power = s.power := rfl
@[simp] theorem State.answer_sys (s : State) (p : Path) (st : Nat) (w : Word) : (s.answer p st w).sys = s.sys := rfl
@[simp] theorem State.answer_cairn (s : State) (p : Path) (st : Nat) (w : Word) : (s.answer p st w).cairn = s.cairn := rfl
@[simp] theorem State.answer_fabric (s : State) (p : Path) (st : Nat) (w : Word) : (s.answer p st w).fabric = s.fabric := rfl
@[simp] theorem State.answer_rtc (s : State) (p : Path) (st : Nat) (w : Word) : (s.answer p st w).rtc = s.rtc := rfl
@[simp] theorem State.answer_points (s : State) (p : Path) (st : Nat) (w : Word) : (s.answer p st w).points = s.points := rfl
@[simp] theorem State.answer_slots (s : State) (p : Path) (st : Nat) (w : Word) : (s.answer p st w).slots = s.slots := rfl
@[simp] theorem State.answer_loader (s : State) (p : Path) (st : Nat) (w : Word) : (s.answer p st w).loader = s.loader := rfl
@[simp] theorem State.answer_lanes (s : State) (p : Path) (st : Nat) (w : Word) : (s.answer p st w).lanes = s.lanes := rfl
@[simp] theorem State.answer_scan (s : State) (p : Path) (st : Nat) (w : Word) : (s.answer p st w).scan = s.scan := rfl
@[simp] theorem State.answer_locks (s : State) (p : Path) (st : Nat) (w : Word) : (s.answer p st w).locks = s.locks := rfl
@[simp] theorem State.answer_loops (s : State) (p : Path) (st : Nat) (w : Word) : (s.answer p st w).loops = s.loops := rfl
@[simp] theorem State.answer_meter (s : State) (p : Path) (st : Nat) (w : Word) : (s.answer p st w).meter = s.meter := rfl
@[simp] theorem State.answer_links (s : State) (p : Path) (st : Nat) (w : Word) : (s.answer p st w).links = s.links := rfl
@[simp] theorem State.answer_bus (s : State) (p : Path) (st : Nat) (w : Word) : (s.answer p st w).bus = s.bus := rfl
@[simp] theorem State.answer_net (s : State) (p : Path) (st : Nat) (w : Word) : (s.answer p st w).net = s.net := rfl
@[simp] theorem State.answer_tun (s : State) (p : Path) (st : Nat) (w : Word) : (s.answer p st w).tun = s.tun := rfl
@[simp] theorem State.answer_keys (s : State) (p : Path) (st : Nat) (w : Word) : (s.answer p st w).keys = s.keys := rfl
@[simp] theorem State.answer_fuse (s : State) (p : Path) (st : Nat) (w : Word) : (s.answer p st w).fuse = s.fuse := rfl
@[simp] theorem State.answer_variant (s : State) (p : Path) (st : Nat) (w : Word) : (s.answer p st w).variant = s.variant := rfl
@[simp] theorem State.answer_upd (s : State) (p : Path) (st : Nat) (w : Word) : (s.answer p st w).upd = s.upd := rfl
@[simp] theorem State.answer_pair (s : State) (p : Path) (st : Nat) (w : Word) : (s.answer p st w).pair = s.pair := rfl
@[simp] theorem State.answer_dirty (s : State) (p : Path) (st : Nat) (w : Word) : (s.answer p st w).dirty = s.dirty := rfl
@[simp] theorem State.answer_dio (s : State) (p : Path) (st : Nat) (w : Word) : (s.answer p st w).dio = s.dio := rfl
@[simp] theorem State.answer_was (s : State) (p : Path) (st : Nat) (w : Word) : (s.answer p st w).was = s.was := rfl
@[simp] theorem State.answer_closed (s : State) (p : Path) (st : Nat) (w : Word) : (s.answer p st w).closed = s.closed := rfl
@[simp] theorem State.answer_ports (s : State) (p : Path) (st : Nat) (w : Word) : (s.answer p st w).ports = s.ports := rfl
@[simp] theorem State.answer_snapAt (s : State) (p : Path) (st : Nat) (w : Word) : (s.answer p st w).snapAt = s.snapAt := rfl
@[simp] theorem State.answer_pending (s : State) (p : Path) (st : Nat) (w : Word) : (s.answer p st w).pending = s.pending := rfl
@[simp] theorem State.answer_getKey_read (s : State) (p : Path) (st : Nat) (w : Word) (j : Nat) : (s.answer p st w).getKey j = s.getKey j := rfl
@[simp] theorem State.answer_getShadow_read (s : State) (p : Path) (st : Nat) (w : Word) (pg' ofs' : Nat) : (s.answer p st w).getShadow pg' ofs' = s.getShadow pg' ofs' := rfl
@[simp] theorem State.answer_getBank_read (s : State) (p : Path) (st : Nat) (w : Word) (p' k' : Nat) : (s.answer p st w).getBank p' k' = s.getBank p' k' := rfl
@[simp] theorem State.answer_byte_read (s : State) (p : Path) (st : Nat) (w : Word) (a' : Nat) : (s.answer p st w).byte a' = s.byte a' := rfl
@[simp] theorem State.answer_lane_read (s : State) (p : Path) (st : Nat) (w : Word) (l' : Nat) : (s.answer p st w).lane l' = s.lane l' := rfl
@[simp] theorem State.answer_slot_read (s : State) (p : Path) (st : Nat) (w : Word) (n' : Nat) : (s.answer p st w).slot n' = s.slot n' := rfl
@[simp] theorem State.answer_session_read (s : State) (p : Path) (st : Nat) (w : Word) (n' : Nat) : (s.answer p st w).session n' = s.session n' := rfl
@[simp] theorem State.answer_fuseReg_read (s : State) (p : Path) (st : Nat) (w : Word) (ofs' : Nat) : (s.answer p st w).fuseReg ofs' = s.fuseReg ofs' := rfl
@[simp] theorem State.answer_lifecycle_read (s : State) (p : Path) (st : Nat) (w : Word)  : (s.answer p st w).lifecycle = s.lifecycle  := rfl
@[simp] theorem State.answer_spiEnabled_read (s : State) (p : Path) (st : Nat) (w : Word)  : (s.answer p st w).spiEnabled = s.spiEnabled  := rfl
@[simp] theorem State.answer_theta_read (s : State) (p : Path) (st : Nat) (w : Word)  : (s.answer p st w).theta = s.theta  := rfl
@[simp] theorem State.draw_regs (s : State)  : (s.draw).regs = s.regs := rfl
@[simp] theorem State.draw_shadow (s : State)  : (s.draw).shadow = s.shadow := rfl
@[simp] theorem State.draw_bank (s : State)  : (s.draw).bank = s.bank := rfl
@[simp] theorem State.draw_entry (s : State)  : (s.draw).entry = s.entry := rfl
@[simp] theorem State.draw_last (s : State)  : (s.draw).last = s.last := rfl
@[simp] theorem State.draw_busy (s : State)  : (s.draw).busy = s.busy := rfl
@[simp] theorem State.draw_waiting (s : State)  : (s.draw).waiting = s.waiting := rfl
@[simp] theorem State.draw_fences (s : State)  : (s.draw).fences = s.fences := rfl
@[simp] theorem State.draw_spi (s : State)  : (s.draw).spi = s.spi := rfl
@[simp] theorem State.draw_intc (s : State)  : (s.draw).intc = s.intc := rfl
@[simp] theorem State.draw_tick (s : State)  : (s.draw).tick = s.tick := rfl
@[simp] theorem State.draw_sram (s : State)  : (s.draw).sram = s.sram := rfl
@[simp] theorem State.draw_ridge (s : State)  : (s.draw).ridge = s.ridge := rfl
@[simp] theorem State.draw_power (s : State)  : (s.draw).power = s.power := rfl
@[simp] theorem State.draw_sys (s : State)  : (s.draw).sys = s.sys := rfl
@[simp] theorem State.draw_cairn (s : State)  : (s.draw).cairn = s.cairn := rfl
@[simp] theorem State.draw_fabric (s : State)  : (s.draw).fabric = s.fabric := rfl
@[simp] theorem State.draw_rtc (s : State)  : (s.draw).rtc = s.rtc := rfl
@[simp] theorem State.draw_points (s : State)  : (s.draw).points = s.points := rfl
@[simp] theorem State.draw_slots (s : State)  : (s.draw).slots = s.slots := rfl
@[simp] theorem State.draw_loader (s : State)  : (s.draw).loader = s.loader := rfl
@[simp] theorem State.draw_lanes (s : State)  : (s.draw).lanes = s.lanes := rfl
@[simp] theorem State.draw_scan (s : State)  : (s.draw).scan = s.scan := rfl
@[simp] theorem State.draw_locks (s : State)  : (s.draw).locks = s.locks := rfl
@[simp] theorem State.draw_loops (s : State)  : (s.draw).loops = s.loops := rfl
@[simp] theorem State.draw_meter (s : State)  : (s.draw).meter = s.meter := rfl
@[simp] theorem State.draw_links (s : State)  : (s.draw).links = s.links := rfl
@[simp] theorem State.draw_bus (s : State)  : (s.draw).bus = s.bus := rfl
@[simp] theorem State.draw_net (s : State)  : (s.draw).net = s.net := rfl
@[simp] theorem State.draw_tun (s : State)  : (s.draw).tun = s.tun := rfl
@[simp] theorem State.draw_keys (s : State)  : (s.draw).keys = s.keys := rfl
@[simp] theorem State.draw_fuse (s : State)  : (s.draw).fuse = s.fuse := rfl
@[simp] theorem State.draw_variant (s : State)  : (s.draw).variant = s.variant := rfl
@[simp] theorem State.draw_upd (s : State)  : (s.draw).upd = s.upd := rfl
@[simp] theorem State.draw_pair (s : State)  : (s.draw).pair = s.pair := rfl
@[simp] theorem State.draw_dirty (s : State)  : (s.draw).dirty = s.dirty := rfl
@[simp] theorem State.draw_dio (s : State)  : (s.draw).dio = s.dio := rfl
@[simp] theorem State.draw_was (s : State)  : (s.draw).was = s.was := rfl
@[simp] theorem State.draw_closed (s : State)  : (s.draw).closed = s.closed := rfl
@[simp] theorem State.draw_ports (s : State)  : (s.draw).ports = s.ports := rfl
@[simp] theorem State.draw_snapAt (s : State)  : (s.draw).snapAt = s.snapAt := rfl
@[simp] theorem State.draw_pending (s : State)  : (s.draw).pending = s.pending := rfl
@[simp] theorem State.draw_getKey_read (s : State)  (j : Nat) : (s.draw).getKey j = s.getKey j := rfl
@[simp] theorem State.draw_getShadow_read (s : State)  (pg' ofs' : Nat) : (s.draw).getShadow pg' ofs' = s.getShadow pg' ofs' := rfl
@[simp] theorem State.draw_getBank_read (s : State)  (p' k' : Nat) : (s.draw).getBank p' k' = s.getBank p' k' := rfl
@[simp] theorem State.draw_answered_read (s : State)  (p' : Path) : (s.draw).answered p' = s.answered p' := rfl
@[simp] theorem State.draw_byte_read (s : State)  (a' : Nat) : (s.draw).byte a' = s.byte a' := rfl
@[simp] theorem State.draw_lane_read (s : State)  (l' : Nat) : (s.draw).lane l' = s.lane l' := rfl
@[simp] theorem State.draw_slot_read (s : State)  (n' : Nat) : (s.draw).slot n' = s.slot n' := rfl
@[simp] theorem State.draw_session_read (s : State)  (n' : Nat) : (s.draw).session n' = s.session n' := rfl
@[simp] theorem State.draw_fuseReg_read (s : State)  (ofs' : Nat) : (s.draw).fuseReg ofs' = s.fuseReg ofs' := rfl
@[simp] theorem State.draw_lifecycle_read (s : State)   : (s.draw).lifecycle = s.lifecycle  := rfl
@[simp] theorem State.draw_spiEnabled_read (s : State)   : (s.draw).spiEnabled = s.spiEnabled  := rfl
@[simp] theorem State.draw_theta_read (s : State)   : (s.draw).theta = s.theta  := rfl
@[simp] theorem State.setLane_regs (s : State) (l : Nat) (x : Lane) : (s.setLane l x).regs = s.regs := rfl
@[simp] theorem State.setLane_shadow (s : State) (l : Nat) (x : Lane) : (s.setLane l x).shadow = s.shadow := rfl
@[simp] theorem State.setLane_bank (s : State) (l : Nat) (x : Lane) : (s.setLane l x).bank = s.bank := rfl
@[simp] theorem State.setLane_entry (s : State) (l : Nat) (x : Lane) : (s.setLane l x).entry = s.entry := rfl
@[simp] theorem State.setLane_last (s : State) (l : Nat) (x : Lane) : (s.setLane l x).last = s.last := rfl
@[simp] theorem State.setLane_busy (s : State) (l : Nat) (x : Lane) : (s.setLane l x).busy = s.busy := rfl
@[simp] theorem State.setLane_waiting (s : State) (l : Nat) (x : Lane) : (s.setLane l x).waiting = s.waiting := rfl
@[simp] theorem State.setLane_fences (s : State) (l : Nat) (x : Lane) : (s.setLane l x).fences = s.fences := rfl
@[simp] theorem State.setLane_spi (s : State) (l : Nat) (x : Lane) : (s.setLane l x).spi = s.spi := rfl
@[simp] theorem State.setLane_intc (s : State) (l : Nat) (x : Lane) : (s.setLane l x).intc = s.intc := rfl
@[simp] theorem State.setLane_tick (s : State) (l : Nat) (x : Lane) : (s.setLane l x).tick = s.tick := rfl
@[simp] theorem State.setLane_fresh (s : State) (l : Nat) (x : Lane) : (s.setLane l x).fresh = s.fresh := rfl
@[simp] theorem State.setLane_sram (s : State) (l : Nat) (x : Lane) : (s.setLane l x).sram = s.sram := rfl
@[simp] theorem State.setLane_ridge (s : State) (l : Nat) (x : Lane) : (s.setLane l x).ridge = s.ridge := rfl
@[simp] theorem State.setLane_power (s : State) (l : Nat) (x : Lane) : (s.setLane l x).power = s.power := rfl
@[simp] theorem State.setLane_sys (s : State) (l : Nat) (x : Lane) : (s.setLane l x).sys = s.sys := rfl
@[simp] theorem State.setLane_cairn (s : State) (l : Nat) (x : Lane) : (s.setLane l x).cairn = s.cairn := rfl
@[simp] theorem State.setLane_fabric (s : State) (l : Nat) (x : Lane) : (s.setLane l x).fabric = s.fabric := rfl
@[simp] theorem State.setLane_rtc (s : State) (l : Nat) (x : Lane) : (s.setLane l x).rtc = s.rtc := rfl
@[simp] theorem State.setLane_points (s : State) (l : Nat) (x : Lane) : (s.setLane l x).points = s.points := rfl
@[simp] theorem State.setLane_slots (s : State) (l : Nat) (x : Lane) : (s.setLane l x).slots = s.slots := rfl
@[simp] theorem State.setLane_loader (s : State) (l : Nat) (x : Lane) : (s.setLane l x).loader = s.loader := rfl
@[simp] theorem State.setLane_scan (s : State) (l : Nat) (x : Lane) : (s.setLane l x).scan = s.scan := rfl
@[simp] theorem State.setLane_locks (s : State) (l : Nat) (x : Lane) : (s.setLane l x).locks = s.locks := rfl
@[simp] theorem State.setLane_loops (s : State) (l : Nat) (x : Lane) : (s.setLane l x).loops = s.loops := rfl
@[simp] theorem State.setLane_meter (s : State) (l : Nat) (x : Lane) : (s.setLane l x).meter = s.meter := rfl
@[simp] theorem State.setLane_links (s : State) (l : Nat) (x : Lane) : (s.setLane l x).links = s.links := rfl
@[simp] theorem State.setLane_bus (s : State) (l : Nat) (x : Lane) : (s.setLane l x).bus = s.bus := rfl
@[simp] theorem State.setLane_net (s : State) (l : Nat) (x : Lane) : (s.setLane l x).net = s.net := rfl
@[simp] theorem State.setLane_tun (s : State) (l : Nat) (x : Lane) : (s.setLane l x).tun = s.tun := rfl
@[simp] theorem State.setLane_keys (s : State) (l : Nat) (x : Lane) : (s.setLane l x).keys = s.keys := rfl
@[simp] theorem State.setLane_fuse (s : State) (l : Nat) (x : Lane) : (s.setLane l x).fuse = s.fuse := rfl
@[simp] theorem State.setLane_variant (s : State) (l : Nat) (x : Lane) : (s.setLane l x).variant = s.variant := rfl
@[simp] theorem State.setLane_upd (s : State) (l : Nat) (x : Lane) : (s.setLane l x).upd = s.upd := rfl
@[simp] theorem State.setLane_pair (s : State) (l : Nat) (x : Lane) : (s.setLane l x).pair = s.pair := rfl
@[simp] theorem State.setLane_dirty (s : State) (l : Nat) (x : Lane) : (s.setLane l x).dirty = s.dirty := rfl
@[simp] theorem State.setLane_dio (s : State) (l : Nat) (x : Lane) : (s.setLane l x).dio = s.dio := rfl
@[simp] theorem State.setLane_was (s : State) (l : Nat) (x : Lane) : (s.setLane l x).was = s.was := rfl
@[simp] theorem State.setLane_closed (s : State) (l : Nat) (x : Lane) : (s.setLane l x).closed = s.closed := rfl
@[simp] theorem State.setLane_ports (s : State) (l : Nat) (x : Lane) : (s.setLane l x).ports = s.ports := rfl
@[simp] theorem State.setLane_snapAt (s : State) (l : Nat) (x : Lane) : (s.setLane l x).snapAt = s.snapAt := rfl
@[simp] theorem State.setLane_pending (s : State) (l : Nat) (x : Lane) : (s.setLane l x).pending = s.pending := rfl
@[simp] theorem State.setLane_getKey_read (s : State) (l : Nat) (x : Lane) (j : Nat) : (s.setLane l x).getKey j = s.getKey j := rfl
@[simp] theorem State.setLane_getShadow_read (s : State) (l : Nat) (x : Lane) (pg' ofs' : Nat) : (s.setLane l x).getShadow pg' ofs' = s.getShadow pg' ofs' := rfl
@[simp] theorem State.setLane_getBank_read (s : State) (l : Nat) (x : Lane) (p' k' : Nat) : (s.setLane l x).getBank p' k' = s.getBank p' k' := rfl
@[simp] theorem State.setLane_answered_read (s : State) (l : Nat) (x : Lane) (p' : Path) : (s.setLane l x).answered p' = s.answered p' := rfl
@[simp] theorem State.setLane_byte_read (s : State) (l : Nat) (x : Lane) (a' : Nat) : (s.setLane l x).byte a' = s.byte a' := rfl
@[simp] theorem State.setLane_slot_read (s : State) (l : Nat) (x : Lane) (n' : Nat) : (s.setLane l x).slot n' = s.slot n' := rfl
@[simp] theorem State.setLane_session_read (s : State) (l : Nat) (x : Lane) (n' : Nat) : (s.setLane l x).session n' = s.session n' := rfl
@[simp] theorem State.setLane_fuseReg_read (s : State) (l : Nat) (x : Lane) (ofs' : Nat) : (s.setLane l x).fuseReg ofs' = s.fuseReg ofs' := rfl
@[simp] theorem State.setLane_lifecycle_read (s : State) (l : Nat) (x : Lane)  : (s.setLane l x).lifecycle = s.lifecycle  := rfl
@[simp] theorem State.setLane_spiEnabled_read (s : State) (l : Nat) (x : Lane)  : (s.setLane l x).spiEnabled = s.spiEnabled  := rfl
@[simp] theorem State.setLane_theta_read (s : State) (l : Nat) (x : Lane)  : (s.setLane l x).theta = s.theta  := rfl
@[simp] theorem State.setSlot_regs (s : State) (n : Nat) (x : Slot) : (s.setSlot n x).regs = s.regs := rfl
@[simp] theorem State.setSlot_shadow (s : State) (n : Nat) (x : Slot) : (s.setSlot n x).shadow = s.shadow := rfl
@[simp] theorem State.setSlot_bank (s : State) (n : Nat) (x : Slot) : (s.setSlot n x).bank = s.bank := rfl
@[simp] theorem State.setSlot_entry (s : State) (n : Nat) (x : Slot) : (s.setSlot n x).entry = s.entry := rfl
@[simp] theorem State.setSlot_last (s : State) (n : Nat) (x : Slot) : (s.setSlot n x).last = s.last := rfl
@[simp] theorem State.setSlot_busy (s : State) (n : Nat) (x : Slot) : (s.setSlot n x).busy = s.busy := rfl
@[simp] theorem State.setSlot_waiting (s : State) (n : Nat) (x : Slot) : (s.setSlot n x).waiting = s.waiting := rfl
@[simp] theorem State.setSlot_fences (s : State) (n : Nat) (x : Slot) : (s.setSlot n x).fences = s.fences := rfl
@[simp] theorem State.setSlot_spi (s : State) (n : Nat) (x : Slot) : (s.setSlot n x).spi = s.spi := rfl
@[simp] theorem State.setSlot_intc (s : State) (n : Nat) (x : Slot) : (s.setSlot n x).intc = s.intc := rfl
@[simp] theorem State.setSlot_tick (s : State) (n : Nat) (x : Slot) : (s.setSlot n x).tick = s.tick := rfl
@[simp] theorem State.setSlot_fresh (s : State) (n : Nat) (x : Slot) : (s.setSlot n x).fresh = s.fresh := rfl
@[simp] theorem State.setSlot_sram (s : State) (n : Nat) (x : Slot) : (s.setSlot n x).sram = s.sram := rfl
@[simp] theorem State.setSlot_ridge (s : State) (n : Nat) (x : Slot) : (s.setSlot n x).ridge = s.ridge := rfl
@[simp] theorem State.setSlot_power (s : State) (n : Nat) (x : Slot) : (s.setSlot n x).power = s.power := rfl
@[simp] theorem State.setSlot_sys (s : State) (n : Nat) (x : Slot) : (s.setSlot n x).sys = s.sys := rfl
@[simp] theorem State.setSlot_cairn (s : State) (n : Nat) (x : Slot) : (s.setSlot n x).cairn = s.cairn := rfl
@[simp] theorem State.setSlot_fabric (s : State) (n : Nat) (x : Slot) : (s.setSlot n x).fabric = s.fabric := rfl
@[simp] theorem State.setSlot_rtc (s : State) (n : Nat) (x : Slot) : (s.setSlot n x).rtc = s.rtc := rfl
@[simp] theorem State.setSlot_points (s : State) (n : Nat) (x : Slot) : (s.setSlot n x).points = s.points := rfl
@[simp] theorem State.setSlot_loader (s : State) (n : Nat) (x : Slot) : (s.setSlot n x).loader = s.loader := rfl
@[simp] theorem State.setSlot_lanes (s : State) (n : Nat) (x : Slot) : (s.setSlot n x).lanes = s.lanes := rfl
@[simp] theorem State.setSlot_scan (s : State) (n : Nat) (x : Slot) : (s.setSlot n x).scan = s.scan := rfl
@[simp] theorem State.setSlot_locks (s : State) (n : Nat) (x : Slot) : (s.setSlot n x).locks = s.locks := rfl
@[simp] theorem State.setSlot_loops (s : State) (n : Nat) (x : Slot) : (s.setSlot n x).loops = s.loops := rfl
@[simp] theorem State.setSlot_meter (s : State) (n : Nat) (x : Slot) : (s.setSlot n x).meter = s.meter := rfl
@[simp] theorem State.setSlot_links (s : State) (n : Nat) (x : Slot) : (s.setSlot n x).links = s.links := rfl
@[simp] theorem State.setSlot_bus (s : State) (n : Nat) (x : Slot) : (s.setSlot n x).bus = s.bus := rfl
@[simp] theorem State.setSlot_net (s : State) (n : Nat) (x : Slot) : (s.setSlot n x).net = s.net := rfl
@[simp] theorem State.setSlot_tun (s : State) (n : Nat) (x : Slot) : (s.setSlot n x).tun = s.tun := rfl
@[simp] theorem State.setSlot_keys (s : State) (n : Nat) (x : Slot) : (s.setSlot n x).keys = s.keys := rfl
@[simp] theorem State.setSlot_fuse (s : State) (n : Nat) (x : Slot) : (s.setSlot n x).fuse = s.fuse := rfl
@[simp] theorem State.setSlot_variant (s : State) (n : Nat) (x : Slot) : (s.setSlot n x).variant = s.variant := rfl
@[simp] theorem State.setSlot_upd (s : State) (n : Nat) (x : Slot) : (s.setSlot n x).upd = s.upd := rfl
@[simp] theorem State.setSlot_pair (s : State) (n : Nat) (x : Slot) : (s.setSlot n x).pair = s.pair := rfl
@[simp] theorem State.setSlot_dio (s : State) (n : Nat) (x : Slot) : (s.setSlot n x).dio = s.dio := rfl
@[simp] theorem State.setSlot_was (s : State) (n : Nat) (x : Slot) : (s.setSlot n x).was = s.was := rfl
@[simp] theorem State.setSlot_closed (s : State) (n : Nat) (x : Slot) : (s.setSlot n x).closed = s.closed := rfl
@[simp] theorem State.setSlot_ports (s : State) (n : Nat) (x : Slot) : (s.setSlot n x).ports = s.ports := rfl
@[simp] theorem State.setSlot_snapAt (s : State) (n : Nat) (x : Slot) : (s.setSlot n x).snapAt = s.snapAt := rfl
@[simp] theorem State.setSlot_pending (s : State) (n : Nat) (x : Slot) : (s.setSlot n x).pending = s.pending := rfl
@[simp] theorem State.setSlot_getKey_read (s : State) (n : Nat) (x : Slot) (j : Nat) : (s.setSlot n x).getKey j = s.getKey j := rfl
@[simp] theorem State.setSlot_getShadow_read (s : State) (n : Nat) (x : Slot) (pg' ofs' : Nat) : (s.setSlot n x).getShadow pg' ofs' = s.getShadow pg' ofs' := rfl
@[simp] theorem State.setSlot_getBank_read (s : State) (n : Nat) (x : Slot) (p' k' : Nat) : (s.setSlot n x).getBank p' k' = s.getBank p' k' := rfl
@[simp] theorem State.setSlot_answered_read (s : State) (n : Nat) (x : Slot) (p' : Path) : (s.setSlot n x).answered p' = s.answered p' := rfl
@[simp] theorem State.setSlot_byte_read (s : State) (n : Nat) (x : Slot) (a' : Nat) : (s.setSlot n x).byte a' = s.byte a' := rfl
@[simp] theorem State.setSlot_lane_read (s : State) (n : Nat) (x : Slot) (l' : Nat) : (s.setSlot n x).lane l' = s.lane l' := rfl
@[simp] theorem State.setSlot_session_read (s : State) (n : Nat) (x : Slot) (n' : Nat) : (s.setSlot n x).session n' = s.session n' := rfl
@[simp] theorem State.setSlot_fuseReg_read (s : State) (n : Nat) (x : Slot) (ofs' : Nat) : (s.setSlot n x).fuseReg ofs' = s.fuseReg ofs' := rfl
@[simp] theorem State.setSlot_lifecycle_read (s : State) (n : Nat) (x : Slot)  : (s.setSlot n x).lifecycle = s.lifecycle  := rfl
@[simp] theorem State.setSlot_spiEnabled_read (s : State) (n : Nat) (x : Slot)  : (s.setSlot n x).spiEnabled = s.spiEnabled  := rfl
@[simp] theorem State.setSlot_theta_read (s : State) (n : Nat) (x : Slot)  : (s.setSlot n x).theta = s.theta  := rfl
@[simp] theorem State.setSession_regs (s : State) (n : Nat) (x : Session) : (s.setSession n x).regs = s.regs := rfl
@[simp] theorem State.setSession_shadow (s : State) (n : Nat) (x : Session) : (s.setSession n x).shadow = s.shadow := rfl
@[simp] theorem State.setSession_bank (s : State) (n : Nat) (x : Session) : (s.setSession n x).bank = s.bank := rfl
@[simp] theorem State.setSession_entry (s : State) (n : Nat) (x : Session) : (s.setSession n x).entry = s.entry := rfl
@[simp] theorem State.setSession_last (s : State) (n : Nat) (x : Session) : (s.setSession n x).last = s.last := rfl
@[simp] theorem State.setSession_busy (s : State) (n : Nat) (x : Session) : (s.setSession n x).busy = s.busy := rfl
@[simp] theorem State.setSession_waiting (s : State) (n : Nat) (x : Session) : (s.setSession n x).waiting = s.waiting := rfl
@[simp] theorem State.setSession_fences (s : State) (n : Nat) (x : Session) : (s.setSession n x).fences = s.fences := rfl
@[simp] theorem State.setSession_spi (s : State) (n : Nat) (x : Session) : (s.setSession n x).spi = s.spi := rfl
@[simp] theorem State.setSession_intc (s : State) (n : Nat) (x : Session) : (s.setSession n x).intc = s.intc := rfl
@[simp] theorem State.setSession_tick (s : State) (n : Nat) (x : Session) : (s.setSession n x).tick = s.tick := rfl
@[simp] theorem State.setSession_fresh (s : State) (n : Nat) (x : Session) : (s.setSession n x).fresh = s.fresh := rfl
@[simp] theorem State.setSession_sram (s : State) (n : Nat) (x : Session) : (s.setSession n x).sram = s.sram := rfl
@[simp] theorem State.setSession_ridge (s : State) (n : Nat) (x : Session) : (s.setSession n x).ridge = s.ridge := rfl
@[simp] theorem State.setSession_power (s : State) (n : Nat) (x : Session) : (s.setSession n x).power = s.power := rfl
@[simp] theorem State.setSession_sys (s : State) (n : Nat) (x : Session) : (s.setSession n x).sys = s.sys := rfl
@[simp] theorem State.setSession_cairn (s : State) (n : Nat) (x : Session) : (s.setSession n x).cairn = s.cairn := rfl
@[simp] theorem State.setSession_fabric (s : State) (n : Nat) (x : Session) : (s.setSession n x).fabric = s.fabric := rfl
@[simp] theorem State.setSession_rtc (s : State) (n : Nat) (x : Session) : (s.setSession n x).rtc = s.rtc := rfl
@[simp] theorem State.setSession_points (s : State) (n : Nat) (x : Session) : (s.setSession n x).points = s.points := rfl
@[simp] theorem State.setSession_slots (s : State) (n : Nat) (x : Session) : (s.setSession n x).slots = s.slots := rfl
@[simp] theorem State.setSession_loader (s : State) (n : Nat) (x : Session) : (s.setSession n x).loader = s.loader := rfl
@[simp] theorem State.setSession_lanes (s : State) (n : Nat) (x : Session) : (s.setSession n x).lanes = s.lanes := rfl
@[simp] theorem State.setSession_scan (s : State) (n : Nat) (x : Session) : (s.setSession n x).scan = s.scan := rfl
@[simp] theorem State.setSession_locks (s : State) (n : Nat) (x : Session) : (s.setSession n x).locks = s.locks := rfl
@[simp] theorem State.setSession_loops (s : State) (n : Nat) (x : Session) : (s.setSession n x).loops = s.loops := rfl
@[simp] theorem State.setSession_meter (s : State) (n : Nat) (x : Session) : (s.setSession n x).meter = s.meter := rfl
@[simp] theorem State.setSession_links (s : State) (n : Nat) (x : Session) : (s.setSession n x).links = s.links := rfl
@[simp] theorem State.setSession_bus (s : State) (n : Nat) (x : Session) : (s.setSession n x).bus = s.bus := rfl
@[simp] theorem State.setSession_net (s : State) (n : Nat) (x : Session) : (s.setSession n x).net = s.net := rfl
@[simp] theorem State.setSession_keys (s : State) (n : Nat) (x : Session) : (s.setSession n x).keys = s.keys := rfl
@[simp] theorem State.setSession_fuse (s : State) (n : Nat) (x : Session) : (s.setSession n x).fuse = s.fuse := rfl
@[simp] theorem State.setSession_variant (s : State) (n : Nat) (x : Session) : (s.setSession n x).variant = s.variant := rfl
@[simp] theorem State.setSession_upd (s : State) (n : Nat) (x : Session) : (s.setSession n x).upd = s.upd := rfl
@[simp] theorem State.setSession_pair (s : State) (n : Nat) (x : Session) : (s.setSession n x).pair = s.pair := rfl
@[simp] theorem State.setSession_dirty (s : State) (n : Nat) (x : Session) : (s.setSession n x).dirty = s.dirty := rfl
@[simp] theorem State.setSession_dio (s : State) (n : Nat) (x : Session) : (s.setSession n x).dio = s.dio := rfl
@[simp] theorem State.setSession_was (s : State) (n : Nat) (x : Session) : (s.setSession n x).was = s.was := rfl
@[simp] theorem State.setSession_closed (s : State) (n : Nat) (x : Session) : (s.setSession n x).closed = s.closed := rfl
@[simp] theorem State.setSession_ports (s : State) (n : Nat) (x : Session) : (s.setSession n x).ports = s.ports := rfl
@[simp] theorem State.setSession_snapAt (s : State) (n : Nat) (x : Session) : (s.setSession n x).snapAt = s.snapAt := rfl
@[simp] theorem State.setSession_pending (s : State) (n : Nat) (x : Session) : (s.setSession n x).pending = s.pending := rfl
@[simp] theorem State.setSession_getKey_read (s : State) (n : Nat) (x : Session) (j : Nat) : (s.setSession n x).getKey j = s.getKey j := rfl
@[simp] theorem State.setSession_getShadow_read (s : State) (n : Nat) (x : Session) (pg' ofs' : Nat) : (s.setSession n x).getShadow pg' ofs' = s.getShadow pg' ofs' := rfl
@[simp] theorem State.setSession_getBank_read (s : State) (n : Nat) (x : Session) (p' k' : Nat) : (s.setSession n x).getBank p' k' = s.getBank p' k' := rfl
@[simp] theorem State.setSession_answered_read (s : State) (n : Nat) (x : Session) (p' : Path) : (s.setSession n x).answered p' = s.answered p' := rfl
@[simp] theorem State.setSession_byte_read (s : State) (n : Nat) (x : Session) (a' : Nat) : (s.setSession n x).byte a' = s.byte a' := rfl
@[simp] theorem State.setSession_lane_read (s : State) (n : Nat) (x : Session) (l' : Nat) : (s.setSession n x).lane l' = s.lane l' := rfl
@[simp] theorem State.setSession_slot_read (s : State) (n : Nat) (x : Session) (n' : Nat) : (s.setSession n x).slot n' = s.slot n' := rfl
@[simp] theorem State.setSession_fuseReg_read (s : State) (n : Nat) (x : Session) (ofs' : Nat) : (s.setSession n x).fuseReg ofs' = s.fuseReg ofs' := rfl
@[simp] theorem State.setSession_lifecycle_read (s : State) (n : Nat) (x : Session)  : (s.setSession n x).lifecycle = s.lifecycle  := rfl
@[simp] theorem State.setSession_spiEnabled_read (s : State) (n : Nat) (x : Session)  : (s.setSession n x).spiEnabled = s.spiEnabled  := rfl
@[simp] theorem State.setSession_theta_read (s : State) (n : Nat) (x : Session)  : (s.setSession n x).theta = s.theta  := rfl
@[simp] theorem State.store_regs (s : State) (a : Nat) (bs : List Byte) : (s.store a bs).regs = s.regs := rfl
@[simp] theorem State.store_shadow (s : State) (a : Nat) (bs : List Byte) : (s.store a bs).shadow = s.shadow := rfl
@[simp] theorem State.store_bank (s : State) (a : Nat) (bs : List Byte) : (s.store a bs).bank = s.bank := rfl
@[simp] theorem State.store_entry (s : State) (a : Nat) (bs : List Byte) : (s.store a bs).entry = s.entry := rfl
@[simp] theorem State.store_last (s : State) (a : Nat) (bs : List Byte) : (s.store a bs).last = s.last := rfl
@[simp] theorem State.store_busy (s : State) (a : Nat) (bs : List Byte) : (s.store a bs).busy = s.busy := rfl
@[simp] theorem State.store_waiting (s : State) (a : Nat) (bs : List Byte) : (s.store a bs).waiting = s.waiting := rfl
@[simp] theorem State.store_fences (s : State) (a : Nat) (bs : List Byte) : (s.store a bs).fences = s.fences := rfl
@[simp] theorem State.store_spi (s : State) (a : Nat) (bs : List Byte) : (s.store a bs).spi = s.spi := rfl
@[simp] theorem State.store_intc (s : State) (a : Nat) (bs : List Byte) : (s.store a bs).intc = s.intc := rfl
@[simp] theorem State.store_tick (s : State) (a : Nat) (bs : List Byte) : (s.store a bs).tick = s.tick := rfl
@[simp] theorem State.store_fresh (s : State) (a : Nat) (bs : List Byte) : (s.store a bs).fresh = s.fresh := rfl
@[simp] theorem State.store_ridge (s : State) (a : Nat) (bs : List Byte) : (s.store a bs).ridge = s.ridge := rfl
@[simp] theorem State.store_power (s : State) (a : Nat) (bs : List Byte) : (s.store a bs).power = s.power := rfl
@[simp] theorem State.store_sys (s : State) (a : Nat) (bs : List Byte) : (s.store a bs).sys = s.sys := rfl
@[simp] theorem State.store_cairn (s : State) (a : Nat) (bs : List Byte) : (s.store a bs).cairn = s.cairn := rfl
@[simp] theorem State.store_fabric (s : State) (a : Nat) (bs : List Byte) : (s.store a bs).fabric = s.fabric := rfl
@[simp] theorem State.store_rtc (s : State) (a : Nat) (bs : List Byte) : (s.store a bs).rtc = s.rtc := rfl
@[simp] theorem State.store_points (s : State) (a : Nat) (bs : List Byte) : (s.store a bs).points = s.points := rfl
@[simp] theorem State.store_slots (s : State) (a : Nat) (bs : List Byte) : (s.store a bs).slots = s.slots := rfl
@[simp] theorem State.store_loader (s : State) (a : Nat) (bs : List Byte) : (s.store a bs).loader = s.loader := rfl
@[simp] theorem State.store_lanes (s : State) (a : Nat) (bs : List Byte) : (s.store a bs).lanes = s.lanes := rfl
@[simp] theorem State.store_scan (s : State) (a : Nat) (bs : List Byte) : (s.store a bs).scan = s.scan := rfl
@[simp] theorem State.store_locks (s : State) (a : Nat) (bs : List Byte) : (s.store a bs).locks = s.locks := rfl
@[simp] theorem State.store_loops (s : State) (a : Nat) (bs : List Byte) : (s.store a bs).loops = s.loops := rfl
@[simp] theorem State.store_meter (s : State) (a : Nat) (bs : List Byte) : (s.store a bs).meter = s.meter := rfl
@[simp] theorem State.store_links (s : State) (a : Nat) (bs : List Byte) : (s.store a bs).links = s.links := rfl
@[simp] theorem State.store_bus (s : State) (a : Nat) (bs : List Byte) : (s.store a bs).bus = s.bus := rfl
@[simp] theorem State.store_net (s : State) (a : Nat) (bs : List Byte) : (s.store a bs).net = s.net := rfl
@[simp] theorem State.store_tun (s : State) (a : Nat) (bs : List Byte) : (s.store a bs).tun = s.tun := rfl
@[simp] theorem State.store_keys (s : State) (a : Nat) (bs : List Byte) : (s.store a bs).keys = s.keys := rfl
@[simp] theorem State.store_fuse (s : State) (a : Nat) (bs : List Byte) : (s.store a bs).fuse = s.fuse := rfl
@[simp] theorem State.store_variant (s : State) (a : Nat) (bs : List Byte) : (s.store a bs).variant = s.variant := rfl
@[simp] theorem State.store_upd (s : State) (a : Nat) (bs : List Byte) : (s.store a bs).upd = s.upd := rfl
@[simp] theorem State.store_pair (s : State) (a : Nat) (bs : List Byte) : (s.store a bs).pair = s.pair := rfl
@[simp] theorem State.store_dio (s : State) (a : Nat) (bs : List Byte) : (s.store a bs).dio = s.dio := rfl
@[simp] theorem State.store_was (s : State) (a : Nat) (bs : List Byte) : (s.store a bs).was = s.was := rfl
@[simp] theorem State.store_closed (s : State) (a : Nat) (bs : List Byte) : (s.store a bs).closed = s.closed := rfl
@[simp] theorem State.store_ports (s : State) (a : Nat) (bs : List Byte) : (s.store a bs).ports = s.ports := rfl
@[simp] theorem State.store_snapAt (s : State) (a : Nat) (bs : List Byte) : (s.store a bs).snapAt = s.snapAt := rfl
@[simp] theorem State.store_pending (s : State) (a : Nat) (bs : List Byte) : (s.store a bs).pending = s.pending := rfl
@[simp] theorem State.store_getKey_read (s : State) (a : Nat) (bs : List Byte) (j : Nat) : (s.store a bs).getKey j = s.getKey j := rfl
@[simp] theorem State.store_getShadow_read (s : State) (a : Nat) (bs : List Byte) (pg' ofs' : Nat) : (s.store a bs).getShadow pg' ofs' = s.getShadow pg' ofs' := rfl
@[simp] theorem State.store_getBank_read (s : State) (a : Nat) (bs : List Byte) (p' k' : Nat) : (s.store a bs).getBank p' k' = s.getBank p' k' := rfl
@[simp] theorem State.store_answered_read (s : State) (a : Nat) (bs : List Byte) (p' : Path) : (s.store a bs).answered p' = s.answered p' := rfl
@[simp] theorem State.store_lane_read (s : State) (a : Nat) (bs : List Byte) (l' : Nat) : (s.store a bs).lane l' = s.lane l' := rfl
@[simp] theorem State.store_slot_read (s : State) (a : Nat) (bs : List Byte) (n' : Nat) : (s.store a bs).slot n' = s.slot n' := rfl
@[simp] theorem State.store_session_read (s : State) (a : Nat) (bs : List Byte) (n' : Nat) : (s.store a bs).session n' = s.session n' := rfl
@[simp] theorem State.store_fuseReg_read (s : State) (a : Nat) (bs : List Byte) (ofs' : Nat) : (s.store a bs).fuseReg ofs' = s.fuseReg ofs' := rfl
@[simp] theorem State.store_lifecycle_read (s : State) (a : Nat) (bs : List Byte)  : (s.store a bs).lifecycle = s.lifecycle  := rfl
@[simp] theorem State.store_spiEnabled_read (s : State) (a : Nat) (bs : List Byte)  : (s.store a bs).spiEnabled = s.spiEnabled  := rfl
@[simp] theorem State.store_theta_read (s : State) (a : Nat) (bs : List Byte)  : (s.store a bs).theta = s.theta  := rfl
@[simp] theorem State.commit_regs (s : State) (t : State) : (s.commit t).regs = t.regs := rfl
@[simp] theorem State.commit_shadow (s : State) (t : State) : (s.commit t).shadow = t.shadow := rfl
@[simp] theorem State.commit_bank (s : State) (t : State) : (s.commit t).bank = t.bank := rfl
@[simp] theorem State.commit_entry (s : State) (t : State) : (s.commit t).entry = t.entry := rfl
@[simp] theorem State.commit_last (s : State) (t : State) : (s.commit t).last = t.last := rfl
@[simp] theorem State.commit_busy (s : State) (t : State) : (s.commit t).busy = t.busy := rfl
@[simp] theorem State.commit_waiting (s : State) (t : State) : (s.commit t).waiting = t.waiting := rfl
@[simp] theorem State.commit_fences (s : State) (t : State) : (s.commit t).fences = t.fences := rfl
@[simp] theorem State.commit_spi (s : State) (t : State) : (s.commit t).spi = t.spi := rfl
@[simp] theorem State.commit_intc (s : State) (t : State) : (s.commit t).intc = t.intc := rfl
@[simp] theorem State.commit_tick (s : State) (t : State) : (s.commit t).tick = t.tick := rfl
@[simp] theorem State.commit_fresh (s : State) (t : State) : (s.commit t).fresh = t.fresh := rfl
@[simp] theorem State.commit_sram (s : State) (t : State) : (s.commit t).sram = t.sram := rfl
@[simp] theorem State.commit_ridge (s : State) (t : State) : (s.commit t).ridge = t.ridge := rfl
@[simp] theorem State.commit_power (s : State) (t : State) : (s.commit t).power = t.power := rfl
@[simp] theorem State.commit_sys (s : State) (t : State) : (s.commit t).sys = t.sys := rfl
@[simp] theorem State.commit_cairn (s : State) (t : State) : (s.commit t).cairn = t.cairn := rfl
@[simp] theorem State.commit_fabric (s : State) (t : State) : (s.commit t).fabric = t.fabric := rfl
@[simp] theorem State.commit_rtc (s : State) (t : State) : (s.commit t).rtc = t.rtc := rfl
@[simp] theorem State.commit_points (s : State) (t : State) : (s.commit t).points = t.points := rfl
@[simp] theorem State.commit_slots (s : State) (t : State) : (s.commit t).slots = t.slots := rfl
@[simp] theorem State.commit_loader (s : State) (t : State) : (s.commit t).loader = t.loader := rfl
@[simp] theorem State.commit_lanes (s : State) (t : State) : (s.commit t).lanes = t.lanes := rfl
@[simp] theorem State.commit_scan (s : State) (t : State) : (s.commit t).scan = t.scan := rfl
@[simp] theorem State.commit_locks (s : State) (t : State) : (s.commit t).locks = t.locks := rfl
@[simp] theorem State.commit_loops (s : State) (t : State) : (s.commit t).loops = t.loops := rfl
@[simp] theorem State.commit_meter (s : State) (t : State) : (s.commit t).meter = t.meter := rfl
@[simp] theorem State.commit_links (s : State) (t : State) : (s.commit t).links = t.links := rfl
@[simp] theorem State.commit_bus (s : State) (t : State) : (s.commit t).bus = t.bus := rfl
@[simp] theorem State.commit_net (s : State) (t : State) : (s.commit t).net = t.net := rfl
@[simp] theorem State.commit_tun (s : State) (t : State) : (s.commit t).tun = t.tun := rfl
@[simp] theorem State.commit_keys (s : State) (t : State) : (s.commit t).keys = t.keys := rfl
@[simp] theorem State.commit_fuse (s : State) (t : State) : (s.commit t).fuse = s.fuse := rfl
@[simp] theorem State.commit_variant (s : State) (t : State) : (s.commit t).variant = t.variant := rfl
@[simp] theorem State.commit_upd (s : State) (t : State) : (s.commit t).upd = t.upd := rfl
@[simp] theorem State.commit_pair (s : State) (t : State) : (s.commit t).pair = t.pair := rfl
@[simp] theorem State.commit_dirty (s : State) (t : State) : (s.commit t).dirty = t.dirty := rfl
@[simp] theorem State.commit_dio (s : State) (t : State) : (s.commit t).dio = t.dio := rfl
@[simp] theorem State.commit_was (s : State) (t : State) : (s.commit t).was = s.before t.tick := rfl
@[simp] theorem State.commit_closed (s : State) (t : State) : (s.commit t).closed = t.closed := rfl
@[simp] theorem State.commit_ports (s : State) (t : State) : (s.commit t).ports = t.ports := rfl
@[simp] theorem State.commit_snapAt (s : State) (t : State) : (s.commit t).snapAt = t.snapAt := rfl
@[simp] theorem State.commit_pending (s : State) (t : State) : (s.commit t).pending = s.pending := rfl
@[simp] theorem State.commit_getKey_read (s : State) (t : State) (j : Nat) : (s.commit t).getKey j = t.getKey j := rfl
@[simp] theorem State.commit_getShadow_read (s : State) (t : State) (pg' ofs' : Nat) : (s.commit t).getShadow pg' ofs' = t.getShadow pg' ofs' := rfl
@[simp] theorem State.commit_getBank_read (s : State) (t : State) (p' k' : Nat) : (s.commit t).getBank p' k' = t.getBank p' k' := rfl
@[simp] theorem State.commit_answered_read (s : State) (t : State) (p' : Path) : (s.commit t).answered p' = t.answered p' := rfl
@[simp] theorem State.commit_byte_read (s : State) (t : State) (a' : Nat) : (s.commit t).byte a' = t.byte a' := rfl
@[simp] theorem State.commit_lane_read (s : State) (t : State) (l' : Nat) : (s.commit t).lane l' = t.lane l' := rfl
@[simp] theorem State.commit_slot_read (s : State) (t : State) (n' : Nat) : (s.commit t).slot n' = t.slot n' := rfl
@[simp] theorem State.commit_session_read (s : State) (t : State) (n' : Nat) : (s.commit t).session n' = t.session n' := rfl
@[simp] theorem State.commit_fuseReg_read (s : State) (t : State) (ofs' : Nat) : (s.commit t).fuseReg ofs' = ({ t with fuse := s.fuse } : State).fuseReg ofs' := rfl
@[simp] theorem State.commit_lifecycle_read (s : State) (t : State)  : (s.commit t).lifecycle = s.lifecycle  := rfl
@[simp] theorem State.commit_spiEnabled_read (s : State) (t : State)  : (s.commit t).spiEnabled = s.spiEnabled  := rfl
@[simp] theorem State.commit_theta_read (s : State) (t : State)  : (s.commit t).theta = t.theta  := rfl
@[simp] theorem State.land_regs (s : State) (t : State) : (s.land t).regs = t.regs := rfl
@[simp] theorem State.land_shadow (s : State) (t : State) : (s.land t).shadow = t.shadow := rfl
@[simp] theorem State.land_bank (s : State) (t : State) : (s.land t).bank = t.bank := rfl
@[simp] theorem State.land_entry (s : State) (t : State) : (s.land t).entry = t.entry := rfl
@[simp] theorem State.land_last (s : State) (t : State) : (s.land t).last = t.last := rfl
@[simp] theorem State.land_busy (s : State) (t : State) : (s.land t).busy = t.busy := rfl
@[simp] theorem State.land_waiting (s : State) (t : State) : (s.land t).waiting = t.waiting := rfl
@[simp] theorem State.land_fences (s : State) (t : State) : (s.land t).fences = t.fences := rfl
@[simp] theorem State.land_spi (s : State) (t : State) : (s.land t).spi = t.spi := rfl
@[simp] theorem State.land_intc (s : State) (t : State) : (s.land t).intc = t.intc := rfl
@[simp] theorem State.land_tick (s : State) (t : State) : (s.land t).tick = t.tick := rfl
@[simp] theorem State.land_fresh (s : State) (t : State) : (s.land t).fresh = t.fresh := rfl
@[simp] theorem State.land_sram (s : State) (t : State) : (s.land t).sram = t.sram := rfl
@[simp] theorem State.land_ridge (s : State) (t : State) : (s.land t).ridge = t.ridge := rfl
@[simp] theorem State.land_power (s : State) (t : State) : (s.land t).power = t.power := rfl
@[simp] theorem State.land_sys (s : State) (t : State) : (s.land t).sys = t.sys := rfl
@[simp] theorem State.land_cairn (s : State) (t : State) : (s.land t).cairn = t.cairn := rfl
@[simp] theorem State.land_fabric (s : State) (t : State) : (s.land t).fabric = t.fabric := rfl
@[simp] theorem State.land_rtc (s : State) (t : State) : (s.land t).rtc = t.rtc := rfl
@[simp] theorem State.land_points (s : State) (t : State) : (s.land t).points = t.points := rfl
@[simp] theorem State.land_slots (s : State) (t : State) : (s.land t).slots = t.slots := rfl
@[simp] theorem State.land_loader (s : State) (t : State) : (s.land t).loader = t.loader := rfl
@[simp] theorem State.land_lanes (s : State) (t : State) : (s.land t).lanes = t.lanes := rfl
@[simp] theorem State.land_scan (s : State) (t : State) : (s.land t).scan = t.scan := rfl
@[simp] theorem State.land_locks (s : State) (t : State) : (s.land t).locks = t.locks := rfl
@[simp] theorem State.land_loops (s : State) (t : State) : (s.land t).loops = t.loops := rfl
@[simp] theorem State.land_meter (s : State) (t : State) : (s.land t).meter = t.meter := rfl
@[simp] theorem State.land_links (s : State) (t : State) : (s.land t).links = t.links := rfl
@[simp] theorem State.land_bus (s : State) (t : State) : (s.land t).bus = t.bus := rfl
@[simp] theorem State.land_net (s : State) (t : State) : (s.land t).net = t.net := rfl
@[simp] theorem State.land_tun (s : State) (t : State) : (s.land t).tun = t.tun := rfl
@[simp] theorem State.land_keys (s : State) (t : State) : (s.land t).keys = t.keys := rfl
@[simp] theorem State.land_fuse (s : State) (t : State) : (s.land t).fuse = s.fuse := rfl
@[simp] theorem State.land_variant (s : State) (t : State) : (s.land t).variant = t.variant := rfl
@[simp] theorem State.land_upd (s : State) (t : State) : (s.land t).upd = t.upd := rfl
@[simp] theorem State.land_pair (s : State) (t : State) : (s.land t).pair = t.pair := rfl
@[simp] theorem State.land_dirty (s : State) (t : State) : (s.land t).dirty = t.dirty := rfl
@[simp] theorem State.land_dio (s : State) (t : State) : (s.land t).dio = t.dio := rfl
@[simp] theorem State.land_was (s : State) (t : State) : (s.land t).was = s.before t.tick := rfl
@[simp] theorem State.land_closed (s : State) (t : State) : (s.land t).closed = some t.tick := rfl
@[simp] theorem State.land_ports (s : State) (t : State) : (s.land t).ports = t.ports := rfl
@[simp] theorem State.land_snapAt (s : State) (t : State) : (s.land t).snapAt = t.snapAt := rfl
@[simp] theorem State.land_pending (s : State) (t : State) : (s.land t).pending = s.pending := rfl
@[simp] theorem State.land_getKey_read (s : State) (t : State) (j : Nat) : (s.land t).getKey j = t.getKey j := rfl
@[simp] theorem State.land_getShadow_read (s : State) (t : State) (pg' ofs' : Nat) : (s.land t).getShadow pg' ofs' = t.getShadow pg' ofs' := rfl
@[simp] theorem State.land_getBank_read (s : State) (t : State) (p' k' : Nat) : (s.land t).getBank p' k' = t.getBank p' k' := rfl
@[simp] theorem State.land_answered_read (s : State) (t : State) (p' : Path) : (s.land t).answered p' = t.answered p' := rfl
@[simp] theorem State.land_byte_read (s : State) (t : State) (a' : Nat) : (s.land t).byte a' = t.byte a' := rfl
@[simp] theorem State.land_lane_read (s : State) (t : State) (l' : Nat) : (s.land t).lane l' = t.lane l' := rfl
@[simp] theorem State.land_slot_read (s : State) (t : State) (n' : Nat) : (s.land t).slot n' = t.slot n' := rfl
@[simp] theorem State.land_session_read (s : State) (t : State) (n' : Nat) : (s.land t).session n' = t.session n' := rfl
@[simp] theorem State.land_fuseReg_read (s : State) (t : State) (ofs' : Nat) : (s.land t).fuseReg ofs' = ({ t with fuse := s.fuse } : State).fuseReg ofs' := rfl
@[simp] theorem State.land_lifecycle_read (s : State) (t : State)  : (s.land t).lifecycle = s.lifecycle  := rfl
@[simp] theorem State.land_spiEnabled_read (s : State) (t : State)  : (s.land t).spiEnabled = s.spiEnabled  := rfl
@[simp] theorem State.land_theta_read (s : State) (t : State)  : (s.land t).theta = t.theta  := rfl
@[simp] theorem State.addKey_shadow (s : State) (k n : Nat) : (s.addKey k n).shadow = s.shadow := rfl
@[simp] theorem State.addKey_bank (s : State) (k n : Nat) : (s.addKey k n).bank = s.bank := rfl
@[simp] theorem State.addKey_entry (s : State) (k n : Nat) : (s.addKey k n).entry = s.entry := rfl
@[simp] theorem State.addKey_last (s : State) (k n : Nat) : (s.addKey k n).last = s.last := rfl
@[simp] theorem State.addKey_busy (s : State) (k n : Nat) : (s.addKey k n).busy = s.busy := rfl
@[simp] theorem State.addKey_waiting (s : State) (k n : Nat) : (s.addKey k n).waiting = s.waiting := rfl
@[simp] theorem State.addKey_fences (s : State) (k n : Nat) : (s.addKey k n).fences = s.fences := rfl
@[simp] theorem State.addKey_spi (s : State) (k n : Nat) : (s.addKey k n).spi = s.spi := rfl
@[simp] theorem State.addKey_intc (s : State) (k n : Nat) : (s.addKey k n).intc = s.intc := rfl
@[simp] theorem State.addKey_tick (s : State) (k n : Nat) : (s.addKey k n).tick = s.tick := rfl
@[simp] theorem State.addKey_fresh (s : State) (k n : Nat) : (s.addKey k n).fresh = s.fresh := rfl
@[simp] theorem State.addKey_sram (s : State) (k n : Nat) : (s.addKey k n).sram = s.sram := rfl
@[simp] theorem State.addKey_ridge (s : State) (k n : Nat) : (s.addKey k n).ridge = s.ridge := rfl
@[simp] theorem State.addKey_power (s : State) (k n : Nat) : (s.addKey k n).power = s.power := rfl
@[simp] theorem State.addKey_sys (s : State) (k n : Nat) : (s.addKey k n).sys = s.sys := rfl
@[simp] theorem State.addKey_cairn (s : State) (k n : Nat) : (s.addKey k n).cairn = s.cairn := rfl
@[simp] theorem State.addKey_fabric (s : State) (k n : Nat) : (s.addKey k n).fabric = s.fabric := rfl
@[simp] theorem State.addKey_rtc (s : State) (k n : Nat) : (s.addKey k n).rtc = s.rtc := rfl
@[simp] theorem State.addKey_points (s : State) (k n : Nat) : (s.addKey k n).points = s.points := rfl
@[simp] theorem State.addKey_slots (s : State) (k n : Nat) : (s.addKey k n).slots = s.slots := rfl
@[simp] theorem State.addKey_loader (s : State) (k n : Nat) : (s.addKey k n).loader = s.loader := rfl
@[simp] theorem State.addKey_lanes (s : State) (k n : Nat) : (s.addKey k n).lanes = s.lanes := rfl
@[simp] theorem State.addKey_scan (s : State) (k n : Nat) : (s.addKey k n).scan = s.scan := rfl
@[simp] theorem State.addKey_locks (s : State) (k n : Nat) : (s.addKey k n).locks = s.locks := rfl
@[simp] theorem State.addKey_loops (s : State) (k n : Nat) : (s.addKey k n).loops = s.loops := rfl
@[simp] theorem State.addKey_meter (s : State) (k n : Nat) : (s.addKey k n).meter = s.meter := rfl
@[simp] theorem State.addKey_links (s : State) (k n : Nat) : (s.addKey k n).links = s.links := rfl
@[simp] theorem State.addKey_bus (s : State) (k n : Nat) : (s.addKey k n).bus = s.bus := rfl
@[simp] theorem State.addKey_net (s : State) (k n : Nat) : (s.addKey k n).net = s.net := rfl
@[simp] theorem State.addKey_tun (s : State) (k n : Nat) : (s.addKey k n).tun = s.tun := rfl
@[simp] theorem State.addKey_keys (s : State) (k n : Nat) : (s.addKey k n).keys = s.keys := rfl
@[simp] theorem State.addKey_fuse (s : State) (k n : Nat) : (s.addKey k n).fuse = s.fuse := rfl
@[simp] theorem State.addKey_variant (s : State) (k n : Nat) : (s.addKey k n).variant = s.variant := rfl
@[simp] theorem State.addKey_upd (s : State) (k n : Nat) : (s.addKey k n).upd = s.upd := rfl
@[simp] theorem State.addKey_pair (s : State) (k n : Nat) : (s.addKey k n).pair = s.pair := rfl
@[simp] theorem State.addKey_dio (s : State) (k n : Nat) : (s.addKey k n).dio = s.dio := rfl
@[simp] theorem State.addKey_was (s : State) (k n : Nat) : (s.addKey k n).was = s.was := rfl
@[simp] theorem State.addKey_closed (s : State) (k n : Nat) : (s.addKey k n).closed = s.closed := rfl
@[simp] theorem State.addKey_ports (s : State) (k n : Nat) : (s.addKey k n).ports = s.ports := rfl
@[simp] theorem State.addKey_snapAt (s : State) (k n : Nat) : (s.addKey k n).snapAt = s.snapAt := rfl
@[simp] theorem State.addKey_pending (s : State) (k n : Nat) : (s.addKey k n).pending = s.pending := rfl
@[simp] theorem State.addKey_getShadow_read (s : State) (k n : Nat) (pg' ofs' : Nat) : (s.addKey k n).getShadow pg' ofs' = s.getShadow pg' ofs' := rfl
@[simp] theorem State.addKey_getBank_read (s : State) (k n : Nat) (p' k' : Nat) : (s.addKey k n).getBank p' k' = s.getBank p' k' := rfl
@[simp] theorem State.addKey_answered_read (s : State) (k n : Nat) (p' : Path) : (s.addKey k n).answered p' = s.answered p' := rfl
@[simp] theorem State.addKey_byte_read (s : State) (k n : Nat) (a' : Nat) : (s.addKey k n).byte a' = s.byte a' := rfl
@[simp] theorem State.addKey_lane_read (s : State) (k n : Nat) (l' : Nat) : (s.addKey k n).lane l' = s.lane l' := rfl
@[simp] theorem State.addKey_slot_read (s : State) (k n : Nat) (n' : Nat) : (s.addKey k n).slot n' = s.slot n' := rfl
@[simp] theorem State.addKey_session_read (s : State) (k n : Nat) (n' : Nat) : (s.addKey k n).session n' = s.session n' := rfl
@[simp] theorem State.addKey_fuseReg_read (s : State) (k n : Nat) (ofs' : Nat) : (s.addKey k n).fuseReg ofs' = s.fuseReg ofs' := rfl
@[simp] theorem State.addKey_lifecycle_read (s : State) (k n : Nat)  : (s.addKey k n).lifecycle = s.lifecycle  := rfl
@[simp] theorem State.addKey_spiEnabled_read (s : State) (k n : Nat)  : (s.addKey k n).spiEnabled = s.spiEnabled  := rfl
@[simp] theorem State.addKey_theta_read (s : State) (k n : Nat)  : (s.addKey k n).theta = s.theta  := rfl
@[simp] theorem State.setRegBit_shadow (s : State) (pg ofs k : Nat) (b : Bool) : (s.setRegBit pg ofs k b).shadow = s.shadow := rfl
@[simp] theorem State.setRegBit_bank (s : State) (pg ofs k : Nat) (b : Bool) : (s.setRegBit pg ofs k b).bank = s.bank := rfl
@[simp] theorem State.setRegBit_entry (s : State) (pg ofs k : Nat) (b : Bool) : (s.setRegBit pg ofs k b).entry = s.entry := rfl
@[simp] theorem State.setRegBit_last (s : State) (pg ofs k : Nat) (b : Bool) : (s.setRegBit pg ofs k b).last = s.last := rfl
@[simp] theorem State.setRegBit_busy (s : State) (pg ofs k : Nat) (b : Bool) : (s.setRegBit pg ofs k b).busy = s.busy := rfl
@[simp] theorem State.setRegBit_waiting (s : State) (pg ofs k : Nat) (b : Bool) : (s.setRegBit pg ofs k b).waiting = s.waiting := rfl
@[simp] theorem State.setRegBit_fences (s : State) (pg ofs k : Nat) (b : Bool) : (s.setRegBit pg ofs k b).fences = s.fences := rfl
@[simp] theorem State.setRegBit_spi (s : State) (pg ofs k : Nat) (b : Bool) : (s.setRegBit pg ofs k b).spi = s.spi := rfl
@[simp] theorem State.setRegBit_intc (s : State) (pg ofs k : Nat) (b : Bool) : (s.setRegBit pg ofs k b).intc = s.intc := rfl
@[simp] theorem State.setRegBit_tick (s : State) (pg ofs k : Nat) (b : Bool) : (s.setRegBit pg ofs k b).tick = s.tick := rfl
@[simp] theorem State.setRegBit_fresh (s : State) (pg ofs k : Nat) (b : Bool) : (s.setRegBit pg ofs k b).fresh = s.fresh := rfl
@[simp] theorem State.setRegBit_sram (s : State) (pg ofs k : Nat) (b : Bool) : (s.setRegBit pg ofs k b).sram = s.sram := rfl
@[simp] theorem State.setRegBit_ridge (s : State) (pg ofs k : Nat) (b : Bool) : (s.setRegBit pg ofs k b).ridge = s.ridge := rfl
@[simp] theorem State.setRegBit_power (s : State) (pg ofs k : Nat) (b : Bool) : (s.setRegBit pg ofs k b).power = s.power := rfl
@[simp] theorem State.setRegBit_sys (s : State) (pg ofs k : Nat) (b : Bool) : (s.setRegBit pg ofs k b).sys = s.sys := rfl
@[simp] theorem State.setRegBit_cairn (s : State) (pg ofs k : Nat) (b : Bool) : (s.setRegBit pg ofs k b).cairn = s.cairn := rfl
@[simp] theorem State.setRegBit_fabric (s : State) (pg ofs k : Nat) (b : Bool) : (s.setRegBit pg ofs k b).fabric = s.fabric := rfl
@[simp] theorem State.setRegBit_rtc (s : State) (pg ofs k : Nat) (b : Bool) : (s.setRegBit pg ofs k b).rtc = s.rtc := rfl
@[simp] theorem State.setRegBit_points (s : State) (pg ofs k : Nat) (b : Bool) : (s.setRegBit pg ofs k b).points = s.points := rfl
@[simp] theorem State.setRegBit_slots (s : State) (pg ofs k : Nat) (b : Bool) : (s.setRegBit pg ofs k b).slots = s.slots := rfl
@[simp] theorem State.setRegBit_loader (s : State) (pg ofs k : Nat) (b : Bool) : (s.setRegBit pg ofs k b).loader = s.loader := rfl
@[simp] theorem State.setRegBit_lanes (s : State) (pg ofs k : Nat) (b : Bool) : (s.setRegBit pg ofs k b).lanes = s.lanes := rfl
@[simp] theorem State.setRegBit_scan (s : State) (pg ofs k : Nat) (b : Bool) : (s.setRegBit pg ofs k b).scan = s.scan := rfl
@[simp] theorem State.setRegBit_locks (s : State) (pg ofs k : Nat) (b : Bool) : (s.setRegBit pg ofs k b).locks = s.locks := rfl
@[simp] theorem State.setRegBit_loops (s : State) (pg ofs k : Nat) (b : Bool) : (s.setRegBit pg ofs k b).loops = s.loops := rfl
@[simp] theorem State.setRegBit_meter (s : State) (pg ofs k : Nat) (b : Bool) : (s.setRegBit pg ofs k b).meter = s.meter := rfl
@[simp] theorem State.setRegBit_links (s : State) (pg ofs k : Nat) (b : Bool) : (s.setRegBit pg ofs k b).links = s.links := rfl
@[simp] theorem State.setRegBit_bus (s : State) (pg ofs k : Nat) (b : Bool) : (s.setRegBit pg ofs k b).bus = s.bus := rfl
@[simp] theorem State.setRegBit_net (s : State) (pg ofs k : Nat) (b : Bool) : (s.setRegBit pg ofs k b).net = s.net := rfl
@[simp] theorem State.setRegBit_tun (s : State) (pg ofs k : Nat) (b : Bool) : (s.setRegBit pg ofs k b).tun = s.tun := rfl
@[simp] theorem State.setRegBit_keys (s : State) (pg ofs k : Nat) (b : Bool) : (s.setRegBit pg ofs k b).keys = s.keys := rfl
@[simp] theorem State.setRegBit_fuse (s : State) (pg ofs k : Nat) (b : Bool) : (s.setRegBit pg ofs k b).fuse = s.fuse := rfl
@[simp] theorem State.setRegBit_variant (s : State) (pg ofs k : Nat) (b : Bool) : (s.setRegBit pg ofs k b).variant = s.variant := rfl
@[simp] theorem State.setRegBit_upd (s : State) (pg ofs k : Nat) (b : Bool) : (s.setRegBit pg ofs k b).upd = s.upd := rfl
@[simp] theorem State.setRegBit_pair (s : State) (pg ofs k : Nat) (b : Bool) : (s.setRegBit pg ofs k b).pair = s.pair := rfl
@[simp] theorem State.setRegBit_dio (s : State) (pg ofs k : Nat) (b : Bool) : (s.setRegBit pg ofs k b).dio = s.dio := rfl
@[simp] theorem State.setRegBit_was (s : State) (pg ofs k : Nat) (b : Bool) : (s.setRegBit pg ofs k b).was = s.was := rfl
@[simp] theorem State.setRegBit_closed (s : State) (pg ofs k : Nat) (b : Bool) : (s.setRegBit pg ofs k b).closed = s.closed := rfl
@[simp] theorem State.setRegBit_ports (s : State) (pg ofs k : Nat) (b : Bool) : (s.setRegBit pg ofs k b).ports = s.ports := rfl
@[simp] theorem State.setRegBit_snapAt (s : State) (pg ofs k : Nat) (b : Bool) : (s.setRegBit pg ofs k b).snapAt = s.snapAt := rfl
@[simp] theorem State.setRegBit_pending (s : State) (pg ofs k : Nat) (b : Bool) : (s.setRegBit pg ofs k b).pending = s.pending := rfl
@[simp] theorem State.setRegBit_getShadow_read (s : State) (pg ofs k : Nat) (b : Bool) (pg' ofs' : Nat) : (s.setRegBit pg ofs k b).getShadow pg' ofs' = s.getShadow pg' ofs' := rfl
@[simp] theorem State.setRegBit_getBank_read (s : State) (pg ofs k : Nat) (b : Bool) (p' k' : Nat) : (s.setRegBit pg ofs k b).getBank p' k' = s.getBank p' k' := rfl
@[simp] theorem State.setRegBit_answered_read (s : State) (pg ofs k : Nat) (b : Bool) (p' : Path) : (s.setRegBit pg ofs k b).answered p' = s.answered p' := rfl
@[simp] theorem State.setRegBit_byte_read (s : State) (pg ofs k : Nat) (b : Bool) (a' : Nat) : (s.setRegBit pg ofs k b).byte a' = s.byte a' := rfl
@[simp] theorem State.setRegBit_lane_read (s : State) (pg ofs k : Nat) (b : Bool) (l' : Nat) : (s.setRegBit pg ofs k b).lane l' = s.lane l' := rfl
@[simp] theorem State.setRegBit_slot_read (s : State) (pg ofs k : Nat) (b : Bool) (n' : Nat) : (s.setRegBit pg ofs k b).slot n' = s.slot n' := rfl
@[simp] theorem State.setRegBit_session_read (s : State) (pg ofs k : Nat) (b : Bool) (n' : Nat) : (s.setRegBit pg ofs k b).session n' = s.session n' := rfl
@[simp] theorem State.setRegBit_fuseReg_read (s : State) (pg ofs k : Nat) (b : Bool) (ofs' : Nat) : (s.setRegBit pg ofs k b).fuseReg ofs' = s.fuseReg ofs' := rfl
@[simp] theorem State.setRegBit_lifecycle_read (s : State) (pg ofs k : Nat) (b : Bool)  : (s.setRegBit pg ofs k b).lifecycle = s.lifecycle  := rfl
@[simp] theorem State.setRegBit_spiEnabled_read (s : State) (pg ofs k : Nat) (b : Bool)  : (s.setRegBit pg ofs k b).spiEnabled = s.spiEnabled  := rfl
@[simp] theorem State.setRegBit_theta_read (s : State) (pg ofs k : Nat) (b : Bool)  : (s.setRegBit pg ofs k b).theta = s.theta  := rfl
@[simp] theorem State.setRegFld_shadow (s : State) (pg ofs lo len v : Nat) : (s.setRegFld pg ofs lo len v).shadow = s.shadow := rfl
@[simp] theorem State.setRegFld_bank (s : State) (pg ofs lo len v : Nat) : (s.setRegFld pg ofs lo len v).bank = s.bank := rfl
@[simp] theorem State.setRegFld_entry (s : State) (pg ofs lo len v : Nat) : (s.setRegFld pg ofs lo len v).entry = s.entry := rfl
@[simp] theorem State.setRegFld_last (s : State) (pg ofs lo len v : Nat) : (s.setRegFld pg ofs lo len v).last = s.last := rfl
@[simp] theorem State.setRegFld_busy (s : State) (pg ofs lo len v : Nat) : (s.setRegFld pg ofs lo len v).busy = s.busy := rfl
@[simp] theorem State.setRegFld_waiting (s : State) (pg ofs lo len v : Nat) : (s.setRegFld pg ofs lo len v).waiting = s.waiting := rfl
@[simp] theorem State.setRegFld_fences (s : State) (pg ofs lo len v : Nat) : (s.setRegFld pg ofs lo len v).fences = s.fences := rfl
@[simp] theorem State.setRegFld_spi (s : State) (pg ofs lo len v : Nat) : (s.setRegFld pg ofs lo len v).spi = s.spi := rfl
@[simp] theorem State.setRegFld_intc (s : State) (pg ofs lo len v : Nat) : (s.setRegFld pg ofs lo len v).intc = s.intc := rfl
@[simp] theorem State.setRegFld_tick (s : State) (pg ofs lo len v : Nat) : (s.setRegFld pg ofs lo len v).tick = s.tick := rfl
@[simp] theorem State.setRegFld_fresh (s : State) (pg ofs lo len v : Nat) : (s.setRegFld pg ofs lo len v).fresh = s.fresh := rfl
@[simp] theorem State.setRegFld_sram (s : State) (pg ofs lo len v : Nat) : (s.setRegFld pg ofs lo len v).sram = s.sram := rfl
@[simp] theorem State.setRegFld_ridge (s : State) (pg ofs lo len v : Nat) : (s.setRegFld pg ofs lo len v).ridge = s.ridge := rfl
@[simp] theorem State.setRegFld_power (s : State) (pg ofs lo len v : Nat) : (s.setRegFld pg ofs lo len v).power = s.power := rfl
@[simp] theorem State.setRegFld_sys (s : State) (pg ofs lo len v : Nat) : (s.setRegFld pg ofs lo len v).sys = s.sys := rfl
@[simp] theorem State.setRegFld_cairn (s : State) (pg ofs lo len v : Nat) : (s.setRegFld pg ofs lo len v).cairn = s.cairn := rfl
@[simp] theorem State.setRegFld_fabric (s : State) (pg ofs lo len v : Nat) : (s.setRegFld pg ofs lo len v).fabric = s.fabric := rfl
@[simp] theorem State.setRegFld_rtc (s : State) (pg ofs lo len v : Nat) : (s.setRegFld pg ofs lo len v).rtc = s.rtc := rfl
@[simp] theorem State.setRegFld_points (s : State) (pg ofs lo len v : Nat) : (s.setRegFld pg ofs lo len v).points = s.points := rfl
@[simp] theorem State.setRegFld_slots (s : State) (pg ofs lo len v : Nat) : (s.setRegFld pg ofs lo len v).slots = s.slots := rfl
@[simp] theorem State.setRegFld_loader (s : State) (pg ofs lo len v : Nat) : (s.setRegFld pg ofs lo len v).loader = s.loader := rfl
@[simp] theorem State.setRegFld_lanes (s : State) (pg ofs lo len v : Nat) : (s.setRegFld pg ofs lo len v).lanes = s.lanes := rfl
@[simp] theorem State.setRegFld_scan (s : State) (pg ofs lo len v : Nat) : (s.setRegFld pg ofs lo len v).scan = s.scan := rfl
@[simp] theorem State.setRegFld_locks (s : State) (pg ofs lo len v : Nat) : (s.setRegFld pg ofs lo len v).locks = s.locks := rfl
@[simp] theorem State.setRegFld_loops (s : State) (pg ofs lo len v : Nat) : (s.setRegFld pg ofs lo len v).loops = s.loops := rfl
@[simp] theorem State.setRegFld_meter (s : State) (pg ofs lo len v : Nat) : (s.setRegFld pg ofs lo len v).meter = s.meter := rfl
@[simp] theorem State.setRegFld_links (s : State) (pg ofs lo len v : Nat) : (s.setRegFld pg ofs lo len v).links = s.links := rfl
@[simp] theorem State.setRegFld_bus (s : State) (pg ofs lo len v : Nat) : (s.setRegFld pg ofs lo len v).bus = s.bus := rfl
@[simp] theorem State.setRegFld_net (s : State) (pg ofs lo len v : Nat) : (s.setRegFld pg ofs lo len v).net = s.net := rfl
@[simp] theorem State.setRegFld_tun (s : State) (pg ofs lo len v : Nat) : (s.setRegFld pg ofs lo len v).tun = s.tun := rfl
@[simp] theorem State.setRegFld_keys (s : State) (pg ofs lo len v : Nat) : (s.setRegFld pg ofs lo len v).keys = s.keys := rfl
@[simp] theorem State.setRegFld_fuse (s : State) (pg ofs lo len v : Nat) : (s.setRegFld pg ofs lo len v).fuse = s.fuse := rfl
@[simp] theorem State.setRegFld_variant (s : State) (pg ofs lo len v : Nat) : (s.setRegFld pg ofs lo len v).variant = s.variant := rfl
@[simp] theorem State.setRegFld_upd (s : State) (pg ofs lo len v : Nat) : (s.setRegFld pg ofs lo len v).upd = s.upd := rfl
@[simp] theorem State.setRegFld_pair (s : State) (pg ofs lo len v : Nat) : (s.setRegFld pg ofs lo len v).pair = s.pair := rfl
@[simp] theorem State.setRegFld_dio (s : State) (pg ofs lo len v : Nat) : (s.setRegFld pg ofs lo len v).dio = s.dio := rfl
@[simp] theorem State.setRegFld_was (s : State) (pg ofs lo len v : Nat) : (s.setRegFld pg ofs lo len v).was = s.was := rfl
@[simp] theorem State.setRegFld_closed (s : State) (pg ofs lo len v : Nat) : (s.setRegFld pg ofs lo len v).closed = s.closed := rfl
@[simp] theorem State.setRegFld_ports (s : State) (pg ofs lo len v : Nat) : (s.setRegFld pg ofs lo len v).ports = s.ports := rfl
@[simp] theorem State.setRegFld_snapAt (s : State) (pg ofs lo len v : Nat) : (s.setRegFld pg ofs lo len v).snapAt = s.snapAt := rfl
@[simp] theorem State.setRegFld_pending (s : State) (pg ofs lo len v : Nat) : (s.setRegFld pg ofs lo len v).pending = s.pending := rfl
@[simp] theorem State.setRegFld_getShadow_read (s : State) (pg ofs lo len v : Nat) (pg' ofs' : Nat) : (s.setRegFld pg ofs lo len v).getShadow pg' ofs' = s.getShadow pg' ofs' := rfl
@[simp] theorem State.setRegFld_getBank_read (s : State) (pg ofs lo len v : Nat) (p' k' : Nat) : (s.setRegFld pg ofs lo len v).getBank p' k' = s.getBank p' k' := rfl
@[simp] theorem State.setRegFld_answered_read (s : State) (pg ofs lo len v : Nat) (p' : Path) : (s.setRegFld pg ofs lo len v).answered p' = s.answered p' := rfl
@[simp] theorem State.setRegFld_byte_read (s : State) (pg ofs lo len v : Nat) (a' : Nat) : (s.setRegFld pg ofs lo len v).byte a' = s.byte a' := rfl
@[simp] theorem State.setRegFld_lane_read (s : State) (pg ofs lo len v : Nat) (l' : Nat) : (s.setRegFld pg ofs lo len v).lane l' = s.lane l' := rfl
@[simp] theorem State.setRegFld_slot_read (s : State) (pg ofs lo len v : Nat) (n' : Nat) : (s.setRegFld pg ofs lo len v).slot n' = s.slot n' := rfl
@[simp] theorem State.setRegFld_session_read (s : State) (pg ofs lo len v : Nat) (n' : Nat) : (s.setRegFld pg ofs lo len v).session n' = s.session n' := rfl
@[simp] theorem State.setRegFld_fuseReg_read (s : State) (pg ofs lo len v : Nat) (ofs' : Nat) : (s.setRegFld pg ofs lo len v).fuseReg ofs' = s.fuseReg ofs' := rfl
@[simp] theorem State.setRegFld_lifecycle_read (s : State) (pg ofs lo len v : Nat)  : (s.setRegFld pg ofs lo len v).lifecycle = s.lifecycle  := rfl
@[simp] theorem State.setRegFld_spiEnabled_read (s : State) (pg ofs lo len v : Nat)  : (s.setRegFld pg ofs lo len v).spiEnabled = s.spiEnabled  := rfl
@[simp] theorem State.setRegFld_theta_read (s : State) (pg ofs lo len v : Nat)  : (s.setRegFld pg ofs lo len v).theta = s.theta  := rfl
@[simp] theorem State.mark_regs (s : State) (c : Option Nat) : (s.mark c).regs = s.regs := by cases c <;> rfl
@[simp] theorem State.mark_shadow (s : State) (c : Option Nat) : (s.mark c).shadow = s.shadow := by cases c <;> rfl
@[simp] theorem State.mark_bank (s : State) (c : Option Nat) : (s.mark c).bank = s.bank := by cases c <;> rfl
@[simp] theorem State.mark_entry (s : State) (c : Option Nat) : (s.mark c).entry = s.entry := by cases c <;> rfl
@[simp] theorem State.mark_last (s : State) (c : Option Nat) : (s.mark c).last = s.last := by cases c <;> rfl
@[simp] theorem State.mark_busy (s : State) (c : Option Nat) : (s.mark c).busy = s.busy := by cases c <;> rfl
@[simp] theorem State.mark_waiting (s : State) (c : Option Nat) : (s.mark c).waiting = s.waiting := by cases c <;> rfl
@[simp] theorem State.mark_fences (s : State) (c : Option Nat) : (s.mark c).fences = s.fences := by cases c <;> rfl
@[simp] theorem State.mark_spi (s : State) (c : Option Nat) : (s.mark c).spi = s.spi := by cases c <;> rfl
@[simp] theorem State.mark_intc (s : State) (c : Option Nat) : (s.mark c).intc = s.intc := by cases c <;> rfl
@[simp] theorem State.mark_tick (s : State) (c : Option Nat) : (s.mark c).tick = s.tick := by cases c <;> rfl
@[simp] theorem State.mark_fresh (s : State) (c : Option Nat) : (s.mark c).fresh = s.fresh := by cases c <;> rfl
@[simp] theorem State.mark_sram (s : State) (c : Option Nat) : (s.mark c).sram = s.sram := by cases c <;> rfl
@[simp] theorem State.mark_ridge (s : State) (c : Option Nat) : (s.mark c).ridge = s.ridge := by cases c <;> rfl
@[simp] theorem State.mark_power (s : State) (c : Option Nat) : (s.mark c).power = s.power := by cases c <;> rfl
@[simp] theorem State.mark_sys (s : State) (c : Option Nat) : (s.mark c).sys = s.sys := by cases c <;> rfl
@[simp] theorem State.mark_cairn (s : State) (c : Option Nat) : (s.mark c).cairn = s.cairn := by cases c <;> rfl
@[simp] theorem State.mark_fabric (s : State) (c : Option Nat) : (s.mark c).fabric = s.fabric := by cases c <;> rfl
@[simp] theorem State.mark_rtc (s : State) (c : Option Nat) : (s.mark c).rtc = s.rtc := by cases c <;> rfl
@[simp] theorem State.mark_points (s : State) (c : Option Nat) : (s.mark c).points = s.points := by cases c <;> rfl
@[simp] theorem State.mark_slots (s : State) (c : Option Nat) : (s.mark c).slots = s.slots := by cases c <;> rfl
@[simp] theorem State.mark_loader (s : State) (c : Option Nat) : (s.mark c).loader = s.loader := by cases c <;> rfl
@[simp] theorem State.mark_lanes (s : State) (c : Option Nat) : (s.mark c).lanes = s.lanes := by cases c <;> rfl
@[simp] theorem State.mark_scan (s : State) (c : Option Nat) : (s.mark c).scan = s.scan := by cases c <;> rfl
@[simp] theorem State.mark_locks (s : State) (c : Option Nat) : (s.mark c).locks = s.locks := by cases c <;> rfl
@[simp] theorem State.mark_loops (s : State) (c : Option Nat) : (s.mark c).loops = s.loops := by cases c <;> rfl
@[simp] theorem State.mark_meter (s : State) (c : Option Nat) : (s.mark c).meter = s.meter := by cases c <;> rfl
@[simp] theorem State.mark_links (s : State) (c : Option Nat) : (s.mark c).links = s.links := by cases c <;> rfl
@[simp] theorem State.mark_bus (s : State) (c : Option Nat) : (s.mark c).bus = s.bus := by cases c <;> rfl
@[simp] theorem State.mark_net (s : State) (c : Option Nat) : (s.mark c).net = s.net := by cases c <;> rfl
@[simp] theorem State.mark_tun (s : State) (c : Option Nat) : (s.mark c).tun = s.tun := by cases c <;> rfl
@[simp] theorem State.mark_keys (s : State) (c : Option Nat) : (s.mark c).keys = s.keys := by cases c <;> rfl
@[simp] theorem State.mark_fuse (s : State) (c : Option Nat) : (s.mark c).fuse = s.fuse := by cases c <;> rfl
@[simp] theorem State.mark_variant (s : State) (c : Option Nat) : (s.mark c).variant = s.variant := by cases c <;> rfl
@[simp] theorem State.mark_upd (s : State) (c : Option Nat) : (s.mark c).upd = s.upd := by cases c <;> rfl
@[simp] theorem State.mark_pair (s : State) (c : Option Nat) : (s.mark c).pair = s.pair := by cases c <;> rfl
@[simp] theorem State.mark_dio (s : State) (c : Option Nat) : (s.mark c).dio = s.dio := by cases c <;> rfl
@[simp] theorem State.mark_was (s : State) (c : Option Nat) : (s.mark c).was = s.was := by cases c <;> rfl
@[simp] theorem State.mark_closed (s : State) (c : Option Nat) : (s.mark c).closed = s.closed := by cases c <;> rfl
@[simp] theorem State.mark_ports (s : State) (c : Option Nat) : (s.mark c).ports = s.ports := by cases c <;> rfl
@[simp] theorem State.mark_snapAt (s : State) (c : Option Nat) : (s.mark c).snapAt = s.snapAt := by cases c <;> rfl
@[simp] theorem State.mark_pending (s : State) (c : Option Nat) : (s.mark c).pending = s.pending := by cases c <;> rfl
@[simp] theorem State.mark_getKey_read (s : State) (c : Option Nat) (j : Nat) : (s.mark c).getKey j = s.getKey j := by cases c <;> rfl
@[simp] theorem State.mark_getShadow_read (s : State) (c : Option Nat) (pg' ofs' : Nat) : (s.mark c).getShadow pg' ofs' = s.getShadow pg' ofs' := by cases c <;> rfl
@[simp] theorem State.mark_getBank_read (s : State) (c : Option Nat) (p' k' : Nat) : (s.mark c).getBank p' k' = s.getBank p' k' := by cases c <;> rfl
@[simp] theorem State.mark_answered_read (s : State) (c : Option Nat) (p' : Path) : (s.mark c).answered p' = s.answered p' := by cases c <;> rfl
@[simp] theorem State.mark_byte_read (s : State) (c : Option Nat) (a' : Nat) : (s.mark c).byte a' = s.byte a' := by cases c <;> rfl
@[simp] theorem State.mark_lane_read (s : State) (c : Option Nat) (l' : Nat) : (s.mark c).lane l' = s.lane l' := by cases c <;> rfl
@[simp] theorem State.mark_slot_read (s : State) (c : Option Nat) (n' : Nat) : (s.mark c).slot n' = s.slot n' := by cases c <;> rfl
@[simp] theorem State.mark_session_read (s : State) (c : Option Nat) (n' : Nat) : (s.mark c).session n' = s.session n' := by cases c <;> rfl
@[simp] theorem State.mark_fuseReg_read (s : State) (c : Option Nat) (ofs' : Nat) : (s.mark c).fuseReg ofs' = s.fuseReg ofs' := by cases c <;> rfl
@[simp] theorem State.mark_lifecycle_read (s : State) (c : Option Nat)  : (s.mark c).lifecycle = s.lifecycle  := by cases c <;> rfl
@[simp] theorem State.mark_spiEnabled_read (s : State) (c : Option Nat)  : (s.mark c).spiEnabled = s.spiEnabled  := by cases c <;> rfl
@[simp] theorem State.mark_theta_read (s : State) (c : Option Nat)  : (s.mark c).theta = s.theta  := by cases c <;> rfl

/-! ### Fires, summary lines and time -/

@[simp] theorem State.noteDelivery_shadow (s : State) (n : Nat) : (s.noteDelivery n).shadow = s.shadow := by
  unfold State.noteDelivery; split <;> rfl
@[simp] theorem State.retake_shadow (s : State) (n : Nat) : (s.retake n).shadow = s.shadow := by
  unfold State.retake; split
  · exact State.noteDelivery_shadow s n
  · rfl
  · rfl
@[simp] theorem State.fire_shadow (s : State) (n : Nat) : (s.fire n).shadow = s.shadow := by
  unfold State.fire; split
  · rfl
  · dsimp only; rw [State.retake_shadow]; split <;> rfl
@[simp] theorem State.fireAll_shadow (s : State) (l : List Nat) : (s.fireAll l).shadow = s.shadow := by
  induction l with
  | nil => rfl
  | cons a t ih => exact (State.fire_shadow _ a).trans ih
@[simp] theorem State.raiseLines_shadow (s : State) : s.raiseLines.shadow = s.shadow := State.fireAll_shadow _ _
@[simp] theorem State.elapse_shadow (s : State) (n : Nat) : (s.elapse n).shadow = s.shadow := by
  unfold State.elapse; split
  · rfl
  · exact State.raiseLines_shadow s
@[simp] theorem State.until_shadow (s : State) (t : Nat) : (s.until t).shadow = s.shadow := by
  unfold State.until; split
  · exact State.elapse_shadow s _
  · rfl
@[simp] theorem State.atGrant_shadow (s : State) : s.atGrant.shadow = s.shadow := by
  unfold State.atGrant; split
  · exact State.elapse_shadow s 1
  · rfl
@[simp] theorem State.turnAt_shadow (s : State) (pg : Nat) : (s.turnAt pg).shadow = s.shadow := by
  unfold State.turnAt; dsimp only; split
  · exact State.elapse_shadow s 1
  · rfl
@[simp] theorem State.noteDelivery_entry (s : State) (n : Nat) : (s.noteDelivery n).entry = s.entry := by
  unfold State.noteDelivery; split <;> rfl
@[simp] theorem State.retake_entry (s : State) (n : Nat) : (s.retake n).entry = s.entry := by
  unfold State.retake; split
  · exact State.noteDelivery_entry s n
  · rfl
  · rfl
@[simp] theorem State.fire_entry (s : State) (n : Nat) : (s.fire n).entry = s.entry := by
  unfold State.fire; split
  · rfl
  · dsimp only; rw [State.retake_entry]; split <;> rfl
@[simp] theorem State.fireAll_entry (s : State) (l : List Nat) : (s.fireAll l).entry = s.entry := by
  induction l with
  | nil => rfl
  | cons a t ih => exact (State.fire_entry _ a).trans ih
@[simp] theorem State.raiseLines_entry (s : State) : s.raiseLines.entry = s.entry := State.fireAll_entry _ _
@[simp] theorem State.elapse_entry (s : State) (n : Nat) : (s.elapse n).entry = s.entry := by
  unfold State.elapse; split
  · rfl
  · exact State.raiseLines_entry s
@[simp] theorem State.until_entry (s : State) (t : Nat) : (s.until t).entry = s.entry := by
  unfold State.until; split
  · exact State.elapse_entry s _
  · rfl
@[simp] theorem State.atGrant_entry (s : State) : s.atGrant.entry = s.entry := by
  unfold State.atGrant; split
  · exact State.elapse_entry s 1
  · rfl
@[simp] theorem State.turnAt_entry (s : State) (pg : Nat) : (s.turnAt pg).entry = s.entry := by
  unfold State.turnAt; dsimp only; split
  · exact State.elapse_entry s 1
  · rfl
@[simp] theorem State.noteDelivery_last (s : State) (n : Nat) : (s.noteDelivery n).last = s.last := by
  unfold State.noteDelivery; split <;> rfl
@[simp] theorem State.retake_last (s : State) (n : Nat) : (s.retake n).last = s.last := by
  unfold State.retake; split
  · exact State.noteDelivery_last s n
  · rfl
  · rfl
@[simp] theorem State.fire_last (s : State) (n : Nat) : (s.fire n).last = s.last := by
  unfold State.fire; split
  · rfl
  · dsimp only; rw [State.retake_last]; split <;> rfl
@[simp] theorem State.fireAll_last (s : State) (l : List Nat) : (s.fireAll l).last = s.last := by
  induction l with
  | nil => rfl
  | cons a t ih => exact (State.fire_last _ a).trans ih
@[simp] theorem State.raiseLines_last (s : State) : s.raiseLines.last = s.last := State.fireAll_last _ _
@[simp] theorem State.elapse_last (s : State) (n : Nat) : (s.elapse n).last = s.last := by
  unfold State.elapse; split
  · rfl
  · exact State.raiseLines_last s
@[simp] theorem State.until_last (s : State) (t : Nat) : (s.until t).last = s.last := by
  unfold State.until; split
  · exact State.elapse_last s _
  · rfl
@[simp] theorem State.atGrant_last (s : State) : s.atGrant.last = s.last := by
  unfold State.atGrant; split
  · exact State.elapse_last s 1
  · rfl
@[simp] theorem State.turnAt_last (s : State) (pg : Nat) : (s.turnAt pg).last = s.last := by
  unfold State.turnAt; dsimp only; split
  · exact State.elapse_last s 1
  · rfl
@[simp] theorem State.noteDelivery_busy (s : State) (n : Nat) : (s.noteDelivery n).busy = s.busy := by
  unfold State.noteDelivery; split <;> rfl
@[simp] theorem State.retake_busy (s : State) (n : Nat) : (s.retake n).busy = s.busy := by
  unfold State.retake; split
  · exact State.noteDelivery_busy s n
  · rfl
  · rfl
@[simp] theorem State.fire_busy (s : State) (n : Nat) : (s.fire n).busy = s.busy := by
  unfold State.fire; split
  · rfl
  · dsimp only; rw [State.retake_busy]; split <;> rfl
@[simp] theorem State.fireAll_busy (s : State) (l : List Nat) : (s.fireAll l).busy = s.busy := by
  induction l with
  | nil => rfl
  | cons a t ih => exact (State.fire_busy _ a).trans ih
@[simp] theorem State.raiseLines_busy (s : State) : s.raiseLines.busy = s.busy := State.fireAll_busy _ _
@[simp] theorem State.elapse_busy (s : State) (n : Nat) : (s.elapse n).busy = s.busy := by
  unfold State.elapse; split
  · rfl
  · exact State.raiseLines_busy s
@[simp] theorem State.until_busy (s : State) (t : Nat) : (s.until t).busy = s.busy := by
  unfold State.until; split
  · exact State.elapse_busy s _
  · rfl
@[simp] theorem State.atGrant_busy (s : State) : s.atGrant.busy = s.busy := by
  unfold State.atGrant; split
  · exact State.elapse_busy s 1
  · rfl
@[simp] theorem State.turnAt_busy (s : State) (pg : Nat) : (s.turnAt pg).busy = s.busy := by
  unfold State.turnAt; dsimp only; split
  · exact State.elapse_busy s 1
  · rfl
@[simp] theorem State.noteDelivery_waiting (s : State) (n : Nat) : (s.noteDelivery n).waiting = s.waiting := by
  unfold State.noteDelivery; split <;> rfl
@[simp] theorem State.retake_waiting (s : State) (n : Nat) : (s.retake n).waiting = s.waiting := by
  unfold State.retake; split
  · exact State.noteDelivery_waiting s n
  · rfl
  · rfl
@[simp] theorem State.fire_waiting (s : State) (n : Nat) : (s.fire n).waiting = s.waiting := by
  unfold State.fire; split
  · rfl
  · dsimp only; rw [State.retake_waiting]; split <;> rfl
@[simp] theorem State.fireAll_waiting (s : State) (l : List Nat) : (s.fireAll l).waiting = s.waiting := by
  induction l with
  | nil => rfl
  | cons a t ih => exact (State.fire_waiting _ a).trans ih
@[simp] theorem State.raiseLines_waiting (s : State) : s.raiseLines.waiting = s.waiting := State.fireAll_waiting _ _
@[simp] theorem State.elapse_waiting (s : State) (n : Nat) : (s.elapse n).waiting = s.waiting := by
  unfold State.elapse; split
  · rfl
  · exact State.raiseLines_waiting s
@[simp] theorem State.until_waiting (s : State) (t : Nat) : (s.until t).waiting = s.waiting := by
  unfold State.until; split
  · exact State.elapse_waiting s _
  · rfl
@[simp] theorem State.atGrant_waiting (s : State) : s.atGrant.waiting = s.waiting := by
  unfold State.atGrant; split
  · exact State.elapse_waiting s 1
  · rfl
@[simp] theorem State.turnAt_waiting (s : State) (pg : Nat) : (s.turnAt pg).waiting = s.waiting := by
  unfold State.turnAt; dsimp only; split
  · exact State.elapse_waiting s 1
  · rfl
@[simp] theorem State.noteDelivery_fences (s : State) (n : Nat) : (s.noteDelivery n).fences = s.fences := by
  unfold State.noteDelivery; split <;> rfl
@[simp] theorem State.retake_fences (s : State) (n : Nat) : (s.retake n).fences = s.fences := by
  unfold State.retake; split
  · exact State.noteDelivery_fences s n
  · rfl
  · rfl
@[simp] theorem State.fire_fences (s : State) (n : Nat) : (s.fire n).fences = s.fences := by
  unfold State.fire; split
  · rfl
  · dsimp only; rw [State.retake_fences]; split <;> rfl
@[simp] theorem State.fireAll_fences (s : State) (l : List Nat) : (s.fireAll l).fences = s.fences := by
  induction l with
  | nil => rfl
  | cons a t ih => exact (State.fire_fences _ a).trans ih
@[simp] theorem State.raiseLines_fences (s : State) : s.raiseLines.fences = s.fences := State.fireAll_fences _ _
@[simp] theorem State.elapse_fences (s : State) (n : Nat) : (s.elapse n).fences = s.fences := by
  unfold State.elapse; split
  · rfl
  · exact State.raiseLines_fences s
@[simp] theorem State.until_fences (s : State) (t : Nat) : (s.until t).fences = s.fences := by
  unfold State.until; split
  · exact State.elapse_fences s _
  · rfl
@[simp] theorem State.atGrant_fences (s : State) : s.atGrant.fences = s.fences := by
  unfold State.atGrant; split
  · exact State.elapse_fences s 1
  · rfl
@[simp] theorem State.turnAt_fences (s : State) (pg : Nat) : (s.turnAt pg).fences = s.fences := by
  unfold State.turnAt; dsimp only; split
  · exact State.elapse_fences s 1
  · rfl
@[simp] theorem State.noteDelivery_spi (s : State) (n : Nat) : (s.noteDelivery n).spi = s.spi := by
  unfold State.noteDelivery; split <;> rfl
@[simp] theorem State.retake_spi (s : State) (n : Nat) : (s.retake n).spi = s.spi := by
  unfold State.retake; split
  · exact State.noteDelivery_spi s n
  · rfl
  · rfl
@[simp] theorem State.fire_spi (s : State) (n : Nat) : (s.fire n).spi = s.spi := by
  unfold State.fire; split
  · rfl
  · dsimp only; rw [State.retake_spi]; split <;> rfl
@[simp] theorem State.fireAll_spi (s : State) (l : List Nat) : (s.fireAll l).spi = s.spi := by
  induction l with
  | nil => rfl
  | cons a t ih => exact (State.fire_spi _ a).trans ih
@[simp] theorem State.raiseLines_spi (s : State) : s.raiseLines.spi = s.spi := State.fireAll_spi _ _
@[simp] theorem State.elapse_spi (s : State) (n : Nat) : (s.elapse n).spi = s.spi := by
  unfold State.elapse; split
  · rfl
  · exact State.raiseLines_spi s
@[simp] theorem State.until_spi (s : State) (t : Nat) : (s.until t).spi = s.spi := by
  unfold State.until; split
  · exact State.elapse_spi s _
  · rfl
@[simp] theorem State.atGrant_spi (s : State) : s.atGrant.spi = s.spi := by
  unfold State.atGrant; split
  · exact State.elapse_spi s 1
  · rfl
@[simp] theorem State.turnAt_spi (s : State) (pg : Nat) : (s.turnAt pg).spi = s.spi := by
  unfold State.turnAt; dsimp only; split
  · exact State.elapse_spi s 1
  · rfl
@[simp] theorem State.noteDelivery_tick (s : State) (n : Nat) : (s.noteDelivery n).tick = s.tick := by
  unfold State.noteDelivery; split <;> rfl
@[simp] theorem State.retake_tick (s : State) (n : Nat) : (s.retake n).tick = s.tick := by
  unfold State.retake; split
  · exact State.noteDelivery_tick s n
  · rfl
  · rfl
@[simp] theorem State.fire_tick (s : State) (n : Nat) : (s.fire n).tick = s.tick := by
  unfold State.fire; split
  · rfl
  · dsimp only; rw [State.retake_tick]; split <;> rfl
@[simp] theorem State.fireAll_tick (s : State) (l : List Nat) : (s.fireAll l).tick = s.tick := by
  induction l with
  | nil => rfl
  | cons a t ih => exact (State.fire_tick _ a).trans ih
@[simp] theorem State.raiseLines_tick (s : State) : s.raiseLines.tick = s.tick := State.fireAll_tick _ _
@[simp] theorem State.noteDelivery_fresh (s : State) (n : Nat) : (s.noteDelivery n).fresh = s.fresh := by
  unfold State.noteDelivery; split <;> rfl
@[simp] theorem State.retake_fresh (s : State) (n : Nat) : (s.retake n).fresh = s.fresh := by
  unfold State.retake; split
  · exact State.noteDelivery_fresh s n
  · rfl
  · rfl
@[simp] theorem State.fire_fresh (s : State) (n : Nat) : (s.fire n).fresh = s.fresh := by
  unfold State.fire; split
  · rfl
  · dsimp only; rw [State.retake_fresh]; split <;> rfl
@[simp] theorem State.fireAll_fresh (s : State) (l : List Nat) : (s.fireAll l).fresh = s.fresh := by
  induction l with
  | nil => rfl
  | cons a t ih => exact (State.fire_fresh _ a).trans ih
@[simp] theorem State.raiseLines_fresh (s : State) : s.raiseLines.fresh = s.fresh := State.fireAll_fresh _ _
@[simp] theorem State.elapse_fresh (s : State) (n : Nat) : (s.elapse n).fresh = s.fresh := by
  unfold State.elapse; split
  · rfl
  · exact State.raiseLines_fresh s
@[simp] theorem State.until_fresh (s : State) (t : Nat) : (s.until t).fresh = s.fresh := by
  unfold State.until; split
  · exact State.elapse_fresh s _
  · rfl
@[simp] theorem State.atGrant_fresh (s : State) : s.atGrant.fresh = s.fresh := by
  unfold State.atGrant; split
  · exact State.elapse_fresh s 1
  · rfl
@[simp] theorem State.turnAt_fresh (s : State) (pg : Nat) : (s.turnAt pg).fresh = s.fresh := by
  unfold State.turnAt; dsimp only; split
  · exact State.elapse_fresh s 1
  · rfl
@[simp] theorem State.noteDelivery_sram (s : State) (n : Nat) : (s.noteDelivery n).sram = s.sram := by
  unfold State.noteDelivery; split <;> rfl
@[simp] theorem State.retake_sram (s : State) (n : Nat) : (s.retake n).sram = s.sram := by
  unfold State.retake; split
  · exact State.noteDelivery_sram s n
  · rfl
  · rfl
@[simp] theorem State.fire_sram (s : State) (n : Nat) : (s.fire n).sram = s.sram := by
  unfold State.fire; split
  · rfl
  · dsimp only; rw [State.retake_sram]; split <;> rfl
@[simp] theorem State.fireAll_sram (s : State) (l : List Nat) : (s.fireAll l).sram = s.sram := by
  induction l with
  | nil => rfl
  | cons a t ih => exact (State.fire_sram _ a).trans ih
@[simp] theorem State.raiseLines_sram (s : State) : s.raiseLines.sram = s.sram := State.fireAll_sram _ _
@[simp] theorem State.elapse_sram (s : State) (n : Nat) : (s.elapse n).sram = s.sram := by
  unfold State.elapse; split
  · rfl
  · exact State.raiseLines_sram s
@[simp] theorem State.until_sram (s : State) (t : Nat) : (s.until t).sram = s.sram := by
  unfold State.until; split
  · exact State.elapse_sram s _
  · rfl
@[simp] theorem State.atGrant_sram (s : State) : s.atGrant.sram = s.sram := by
  unfold State.atGrant; split
  · exact State.elapse_sram s 1
  · rfl
@[simp] theorem State.turnAt_sram (s : State) (pg : Nat) : (s.turnAt pg).sram = s.sram := by
  unfold State.turnAt; dsimp only; split
  · exact State.elapse_sram s 1
  · rfl
@[simp] theorem State.noteDelivery_ridge (s : State) (n : Nat) : (s.noteDelivery n).ridge = s.ridge := by
  unfold State.noteDelivery; split <;> rfl
@[simp] theorem State.retake_ridge (s : State) (n : Nat) : (s.retake n).ridge = s.ridge := by
  unfold State.retake; split
  · exact State.noteDelivery_ridge s n
  · rfl
  · rfl
@[simp] theorem State.fire_ridge (s : State) (n : Nat) : (s.fire n).ridge = s.ridge := by
  unfold State.fire; split
  · rfl
  · dsimp only; rw [State.retake_ridge]; split <;> rfl
@[simp] theorem State.fireAll_ridge (s : State) (l : List Nat) : (s.fireAll l).ridge = s.ridge := by
  induction l with
  | nil => rfl
  | cons a t ih => exact (State.fire_ridge _ a).trans ih
@[simp] theorem State.raiseLines_ridge (s : State) : s.raiseLines.ridge = s.ridge := State.fireAll_ridge _ _
@[simp] theorem State.noteDelivery_power (s : State) (n : Nat) : (s.noteDelivery n).power = s.power := by
  unfold State.noteDelivery; split <;> rfl
@[simp] theorem State.retake_power (s : State) (n : Nat) : (s.retake n).power = s.power := by
  unfold State.retake; split
  · exact State.noteDelivery_power s n
  · rfl
  · rfl
@[simp] theorem State.fire_power (s : State) (n : Nat) : (s.fire n).power = s.power := by
  unfold State.fire; split
  · rfl
  · dsimp only; rw [State.retake_power]; split <;> rfl
@[simp] theorem State.fireAll_power (s : State) (l : List Nat) : (s.fireAll l).power = s.power := by
  induction l with
  | nil => rfl
  | cons a t ih => exact (State.fire_power _ a).trans ih
@[simp] theorem State.raiseLines_power (s : State) : s.raiseLines.power = s.power := State.fireAll_power _ _
@[simp] theorem State.elapse_power (s : State) (n : Nat) : (s.elapse n).power = s.power := by
  unfold State.elapse; split
  · rfl
  · exact State.raiseLines_power s
@[simp] theorem State.until_power (s : State) (t : Nat) : (s.until t).power = s.power := by
  unfold State.until; split
  · exact State.elapse_power s _
  · rfl
@[simp] theorem State.atGrant_power (s : State) : s.atGrant.power = s.power := by
  unfold State.atGrant; split
  · exact State.elapse_power s 1
  · rfl
@[simp] theorem State.turnAt_power (s : State) (pg : Nat) : (s.turnAt pg).power = s.power := by
  unfold State.turnAt; dsimp only; split
  · exact State.elapse_power s 1
  · rfl
@[simp] theorem State.noteDelivery_sys (s : State) (n : Nat) : (s.noteDelivery n).sys = s.sys := by
  unfold State.noteDelivery; split <;> rfl
@[simp] theorem State.retake_sys (s : State) (n : Nat) : (s.retake n).sys = s.sys := by
  unfold State.retake; split
  · exact State.noteDelivery_sys s n
  · rfl
  · rfl
@[simp] theorem State.fire_sys (s : State) (n : Nat) : (s.fire n).sys = s.sys := by
  unfold State.fire; split
  · rfl
  · dsimp only; rw [State.retake_sys]; split <;> rfl
@[simp] theorem State.fireAll_sys (s : State) (l : List Nat) : (s.fireAll l).sys = s.sys := by
  induction l with
  | nil => rfl
  | cons a t ih => exact (State.fire_sys _ a).trans ih
@[simp] theorem State.raiseLines_sys (s : State) : s.raiseLines.sys = s.sys := State.fireAll_sys _ _
@[simp] theorem State.elapse_sys (s : State) (n : Nat) : (s.elapse n).sys = s.sys := by
  unfold State.elapse; split
  · rfl
  · exact State.raiseLines_sys s
@[simp] theorem State.until_sys (s : State) (t : Nat) : (s.until t).sys = s.sys := by
  unfold State.until; split
  · exact State.elapse_sys s _
  · rfl
@[simp] theorem State.atGrant_sys (s : State) : s.atGrant.sys = s.sys := by
  unfold State.atGrant; split
  · exact State.elapse_sys s 1
  · rfl
@[simp] theorem State.turnAt_sys (s : State) (pg : Nat) : (s.turnAt pg).sys = s.sys := by
  unfold State.turnAt; dsimp only; split
  · exact State.elapse_sys s 1
  · rfl
@[simp] theorem State.noteDelivery_cairn (s : State) (n : Nat) : (s.noteDelivery n).cairn = s.cairn := by
  unfold State.noteDelivery; split <;> rfl
@[simp] theorem State.retake_cairn (s : State) (n : Nat) : (s.retake n).cairn = s.cairn := by
  unfold State.retake; split
  · exact State.noteDelivery_cairn s n
  · rfl
  · rfl
@[simp] theorem State.fire_cairn (s : State) (n : Nat) : (s.fire n).cairn = s.cairn := by
  unfold State.fire; split
  · rfl
  · dsimp only; rw [State.retake_cairn]; split <;> rfl
@[simp] theorem State.fireAll_cairn (s : State) (l : List Nat) : (s.fireAll l).cairn = s.cairn := by
  induction l with
  | nil => rfl
  | cons a t ih => exact (State.fire_cairn _ a).trans ih
@[simp] theorem State.raiseLines_cairn (s : State) : s.raiseLines.cairn = s.cairn := State.fireAll_cairn _ _
@[simp] theorem State.elapse_cairn (s : State) (n : Nat) : (s.elapse n).cairn = s.cairn := by
  unfold State.elapse; split
  · rfl
  · exact State.raiseLines_cairn s
@[simp] theorem State.until_cairn (s : State) (t : Nat) : (s.until t).cairn = s.cairn := by
  unfold State.until; split
  · exact State.elapse_cairn s _
  · rfl
@[simp] theorem State.atGrant_cairn (s : State) : s.atGrant.cairn = s.cairn := by
  unfold State.atGrant; split
  · exact State.elapse_cairn s 1
  · rfl
@[simp] theorem State.turnAt_cairn (s : State) (pg : Nat) : (s.turnAt pg).cairn = s.cairn := by
  unfold State.turnAt; dsimp only; split
  · exact State.elapse_cairn s 1
  · rfl
@[simp] theorem State.noteDelivery_fabric (s : State) (n : Nat) : (s.noteDelivery n).fabric = s.fabric := by
  unfold State.noteDelivery; split <;> rfl
@[simp] theorem State.retake_fabric (s : State) (n : Nat) : (s.retake n).fabric = s.fabric := by
  unfold State.retake; split
  · exact State.noteDelivery_fabric s n
  · rfl
  · rfl
@[simp] theorem State.fire_fabric (s : State) (n : Nat) : (s.fire n).fabric = s.fabric := by
  unfold State.fire; split
  · rfl
  · dsimp only; rw [State.retake_fabric]; split <;> rfl
@[simp] theorem State.fireAll_fabric (s : State) (l : List Nat) : (s.fireAll l).fabric = s.fabric := by
  induction l with
  | nil => rfl
  | cons a t ih => exact (State.fire_fabric _ a).trans ih
@[simp] theorem State.raiseLines_fabric (s : State) : s.raiseLines.fabric = s.fabric := State.fireAll_fabric _ _
@[simp] theorem State.elapse_fabric (s : State) (n : Nat) : (s.elapse n).fabric = s.fabric := by
  unfold State.elapse; split
  · rfl
  · exact State.raiseLines_fabric s
@[simp] theorem State.until_fabric (s : State) (t : Nat) : (s.until t).fabric = s.fabric := by
  unfold State.until; split
  · exact State.elapse_fabric s _
  · rfl
@[simp] theorem State.atGrant_fabric (s : State) : s.atGrant.fabric = s.fabric := by
  unfold State.atGrant; split
  · exact State.elapse_fabric s 1
  · rfl
@[simp] theorem State.turnAt_fabric (s : State) (pg : Nat) : (s.turnAt pg).fabric = s.fabric := by
  unfold State.turnAt; dsimp only; split
  · exact State.elapse_fabric s 1
  · rfl
@[simp] theorem State.noteDelivery_rtc (s : State) (n : Nat) : (s.noteDelivery n).rtc = s.rtc := by
  unfold State.noteDelivery; split <;> rfl
@[simp] theorem State.retake_rtc (s : State) (n : Nat) : (s.retake n).rtc = s.rtc := by
  unfold State.retake; split
  · exact State.noteDelivery_rtc s n
  · rfl
  · rfl
@[simp] theorem State.fire_rtc (s : State) (n : Nat) : (s.fire n).rtc = s.rtc := by
  unfold State.fire; split
  · rfl
  · dsimp only; rw [State.retake_rtc]; split <;> rfl
@[simp] theorem State.fireAll_rtc (s : State) (l : List Nat) : (s.fireAll l).rtc = s.rtc := by
  induction l with
  | nil => rfl
  | cons a t ih => exact (State.fire_rtc _ a).trans ih
@[simp] theorem State.raiseLines_rtc (s : State) : s.raiseLines.rtc = s.rtc := State.fireAll_rtc _ _
@[simp] theorem State.elapse_rtc (s : State) (n : Nat) : (s.elapse n).rtc = s.rtc := by
  unfold State.elapse; split
  · rfl
  · exact State.raiseLines_rtc s
@[simp] theorem State.until_rtc (s : State) (t : Nat) : (s.until t).rtc = s.rtc := by
  unfold State.until; split
  · exact State.elapse_rtc s _
  · rfl
@[simp] theorem State.atGrant_rtc (s : State) : s.atGrant.rtc = s.rtc := by
  unfold State.atGrant; split
  · exact State.elapse_rtc s 1
  · rfl
@[simp] theorem State.turnAt_rtc (s : State) (pg : Nat) : (s.turnAt pg).rtc = s.rtc := by
  unfold State.turnAt; dsimp only; split
  · exact State.elapse_rtc s 1
  · rfl
@[simp] theorem State.noteDelivery_points (s : State) (n : Nat) : (s.noteDelivery n).points = s.points := by
  unfold State.noteDelivery; split <;> rfl
@[simp] theorem State.retake_points (s : State) (n : Nat) : (s.retake n).points = s.points := by
  unfold State.retake; split
  · exact State.noteDelivery_points s n
  · rfl
  · rfl
@[simp] theorem State.fire_points (s : State) (n : Nat) : (s.fire n).points = s.points := by
  unfold State.fire; split
  · rfl
  · dsimp only; rw [State.retake_points]; split <;> rfl
@[simp] theorem State.fireAll_points (s : State) (l : List Nat) : (s.fireAll l).points = s.points := by
  induction l with
  | nil => rfl
  | cons a t ih => exact (State.fire_points _ a).trans ih
@[simp] theorem State.raiseLines_points (s : State) : s.raiseLines.points = s.points := State.fireAll_points _ _
@[simp] theorem State.elapse_points (s : State) (n : Nat) : (s.elapse n).points = s.points := by
  unfold State.elapse; split
  · rfl
  · exact State.raiseLines_points s
@[simp] theorem State.until_points (s : State) (t : Nat) : (s.until t).points = s.points := by
  unfold State.until; split
  · exact State.elapse_points s _
  · rfl
@[simp] theorem State.atGrant_points (s : State) : s.atGrant.points = s.points := by
  unfold State.atGrant; split
  · exact State.elapse_points s 1
  · rfl
@[simp] theorem State.turnAt_points (s : State) (pg : Nat) : (s.turnAt pg).points = s.points := by
  unfold State.turnAt; dsimp only; split
  · exact State.elapse_points s 1
  · rfl
@[simp] theorem State.noteDelivery_slots (s : State) (n : Nat) : (s.noteDelivery n).slots = s.slots := by
  unfold State.noteDelivery; split <;> rfl
@[simp] theorem State.retake_slots (s : State) (n : Nat) : (s.retake n).slots = s.slots := by
  unfold State.retake; split
  · exact State.noteDelivery_slots s n
  · rfl
  · rfl
@[simp] theorem State.fire_slots (s : State) (n : Nat) : (s.fire n).slots = s.slots := by
  unfold State.fire; split
  · rfl
  · dsimp only; rw [State.retake_slots]; split <;> rfl
@[simp] theorem State.fireAll_slots (s : State) (l : List Nat) : (s.fireAll l).slots = s.slots := by
  induction l with
  | nil => rfl
  | cons a t ih => exact (State.fire_slots _ a).trans ih
@[simp] theorem State.raiseLines_slots (s : State) : s.raiseLines.slots = s.slots := State.fireAll_slots _ _
@[simp] theorem State.elapse_slots (s : State) (n : Nat) : (s.elapse n).slots = s.slots := by
  unfold State.elapse; split
  · rfl
  · exact State.raiseLines_slots s
@[simp] theorem State.until_slots (s : State) (t : Nat) : (s.until t).slots = s.slots := by
  unfold State.until; split
  · exact State.elapse_slots s _
  · rfl
@[simp] theorem State.atGrant_slots (s : State) : s.atGrant.slots = s.slots := by
  unfold State.atGrant; split
  · exact State.elapse_slots s 1
  · rfl
@[simp] theorem State.turnAt_slots (s : State) (pg : Nat) : (s.turnAt pg).slots = s.slots := by
  unfold State.turnAt; dsimp only; split
  · exact State.elapse_slots s 1
  · rfl
@[simp] theorem State.noteDelivery_loader (s : State) (n : Nat) : (s.noteDelivery n).loader = s.loader := by
  unfold State.noteDelivery; split <;> rfl
@[simp] theorem State.retake_loader (s : State) (n : Nat) : (s.retake n).loader = s.loader := by
  unfold State.retake; split
  · exact State.noteDelivery_loader s n
  · rfl
  · rfl
@[simp] theorem State.fire_loader (s : State) (n : Nat) : (s.fire n).loader = s.loader := by
  unfold State.fire; split
  · rfl
  · dsimp only; rw [State.retake_loader]; split <;> rfl
@[simp] theorem State.fireAll_loader (s : State) (l : List Nat) : (s.fireAll l).loader = s.loader := by
  induction l with
  | nil => rfl
  | cons a t ih => exact (State.fire_loader _ a).trans ih
@[simp] theorem State.raiseLines_loader (s : State) : s.raiseLines.loader = s.loader := State.fireAll_loader _ _
@[simp] theorem State.elapse_loader (s : State) (n : Nat) : (s.elapse n).loader = s.loader := by
  unfold State.elapse; split
  · rfl
  · exact State.raiseLines_loader s
@[simp] theorem State.until_loader (s : State) (t : Nat) : (s.until t).loader = s.loader := by
  unfold State.until; split
  · exact State.elapse_loader s _
  · rfl
@[simp] theorem State.atGrant_loader (s : State) : s.atGrant.loader = s.loader := by
  unfold State.atGrant; split
  · exact State.elapse_loader s 1
  · rfl
@[simp] theorem State.turnAt_loader (s : State) (pg : Nat) : (s.turnAt pg).loader = s.loader := by
  unfold State.turnAt; dsimp only; split
  · exact State.elapse_loader s 1
  · rfl
@[simp] theorem State.noteDelivery_lanes (s : State) (n : Nat) : (s.noteDelivery n).lanes = s.lanes := by
  unfold State.noteDelivery; split <;> rfl
@[simp] theorem State.retake_lanes (s : State) (n : Nat) : (s.retake n).lanes = s.lanes := by
  unfold State.retake; split
  · exact State.noteDelivery_lanes s n
  · rfl
  · rfl
@[simp] theorem State.fire_lanes (s : State) (n : Nat) : (s.fire n).lanes = s.lanes := by
  unfold State.fire; split
  · rfl
  · dsimp only; rw [State.retake_lanes]; split <;> rfl
@[simp] theorem State.fireAll_lanes (s : State) (l : List Nat) : (s.fireAll l).lanes = s.lanes := by
  induction l with
  | nil => rfl
  | cons a t ih => exact (State.fire_lanes _ a).trans ih
@[simp] theorem State.raiseLines_lanes (s : State) : s.raiseLines.lanes = s.lanes := State.fireAll_lanes _ _
@[simp] theorem State.elapse_lanes (s : State) (n : Nat) : (s.elapse n).lanes = s.lanes := by
  unfold State.elapse; split
  · rfl
  · exact State.raiseLines_lanes s
@[simp] theorem State.until_lanes (s : State) (t : Nat) : (s.until t).lanes = s.lanes := by
  unfold State.until; split
  · exact State.elapse_lanes s _
  · rfl
@[simp] theorem State.atGrant_lanes (s : State) : s.atGrant.lanes = s.lanes := by
  unfold State.atGrant; split
  · exact State.elapse_lanes s 1
  · rfl
@[simp] theorem State.turnAt_lanes (s : State) (pg : Nat) : (s.turnAt pg).lanes = s.lanes := by
  unfold State.turnAt; dsimp only; split
  · exact State.elapse_lanes s 1
  · rfl
@[simp] theorem State.noteDelivery_scan (s : State) (n : Nat) : (s.noteDelivery n).scan = s.scan := by
  unfold State.noteDelivery; split <;> rfl
@[simp] theorem State.retake_scan (s : State) (n : Nat) : (s.retake n).scan = s.scan := by
  unfold State.retake; split
  · exact State.noteDelivery_scan s n
  · rfl
  · rfl
@[simp] theorem State.fire_scan (s : State) (n : Nat) : (s.fire n).scan = s.scan := by
  unfold State.fire; split
  · rfl
  · dsimp only; rw [State.retake_scan]; split <;> rfl
@[simp] theorem State.fireAll_scan (s : State) (l : List Nat) : (s.fireAll l).scan = s.scan := by
  induction l with
  | nil => rfl
  | cons a t ih => exact (State.fire_scan _ a).trans ih
@[simp] theorem State.raiseLines_scan (s : State) : s.raiseLines.scan = s.scan := State.fireAll_scan _ _
@[simp] theorem State.elapse_scan (s : State) (n : Nat) : (s.elapse n).scan = s.scan := by
  unfold State.elapse; split
  · rfl
  · exact State.raiseLines_scan s
@[simp] theorem State.until_scan (s : State) (t : Nat) : (s.until t).scan = s.scan := by
  unfold State.until; split
  · exact State.elapse_scan s _
  · rfl
@[simp] theorem State.atGrant_scan (s : State) : s.atGrant.scan = s.scan := by
  unfold State.atGrant; split
  · exact State.elapse_scan s 1
  · rfl
@[simp] theorem State.turnAt_scan (s : State) (pg : Nat) : (s.turnAt pg).scan = s.scan := by
  unfold State.turnAt; dsimp only; split
  · exact State.elapse_scan s 1
  · rfl
@[simp] theorem State.noteDelivery_locks (s : State) (n : Nat) : (s.noteDelivery n).locks = s.locks := by
  unfold State.noteDelivery; split <;> rfl
@[simp] theorem State.retake_locks (s : State) (n : Nat) : (s.retake n).locks = s.locks := by
  unfold State.retake; split
  · exact State.noteDelivery_locks s n
  · rfl
  · rfl
@[simp] theorem State.fire_locks (s : State) (n : Nat) : (s.fire n).locks = s.locks := by
  unfold State.fire; split
  · rfl
  · dsimp only; rw [State.retake_locks]; split <;> rfl
@[simp] theorem State.fireAll_locks (s : State) (l : List Nat) : (s.fireAll l).locks = s.locks := by
  induction l with
  | nil => rfl
  | cons a t ih => exact (State.fire_locks _ a).trans ih
@[simp] theorem State.raiseLines_locks (s : State) : s.raiseLines.locks = s.locks := State.fireAll_locks _ _
@[simp] theorem State.elapse_locks (s : State) (n : Nat) : (s.elapse n).locks = s.locks := by
  unfold State.elapse; split
  · rfl
  · exact State.raiseLines_locks s
@[simp] theorem State.until_locks (s : State) (t : Nat) : (s.until t).locks = s.locks := by
  unfold State.until; split
  · exact State.elapse_locks s _
  · rfl
@[simp] theorem State.atGrant_locks (s : State) : s.atGrant.locks = s.locks := by
  unfold State.atGrant; split
  · exact State.elapse_locks s 1
  · rfl
@[simp] theorem State.turnAt_locks (s : State) (pg : Nat) : (s.turnAt pg).locks = s.locks := by
  unfold State.turnAt; dsimp only; split
  · exact State.elapse_locks s 1
  · rfl
@[simp] theorem State.noteDelivery_loops (s : State) (n : Nat) : (s.noteDelivery n).loops = s.loops := by
  unfold State.noteDelivery; split <;> rfl
@[simp] theorem State.retake_loops (s : State) (n : Nat) : (s.retake n).loops = s.loops := by
  unfold State.retake; split
  · exact State.noteDelivery_loops s n
  · rfl
  · rfl
@[simp] theorem State.fire_loops (s : State) (n : Nat) : (s.fire n).loops = s.loops := by
  unfold State.fire; split
  · rfl
  · dsimp only; rw [State.retake_loops]; split <;> rfl
@[simp] theorem State.fireAll_loops (s : State) (l : List Nat) : (s.fireAll l).loops = s.loops := by
  induction l with
  | nil => rfl
  | cons a t ih => exact (State.fire_loops _ a).trans ih
@[simp] theorem State.raiseLines_loops (s : State) : s.raiseLines.loops = s.loops := State.fireAll_loops _ _
@[simp] theorem State.elapse_loops (s : State) (n : Nat) : (s.elapse n).loops = s.loops := by
  unfold State.elapse; split
  · rfl
  · exact State.raiseLines_loops s
@[simp] theorem State.until_loops (s : State) (t : Nat) : (s.until t).loops = s.loops := by
  unfold State.until; split
  · exact State.elapse_loops s _
  · rfl
@[simp] theorem State.atGrant_loops (s : State) : s.atGrant.loops = s.loops := by
  unfold State.atGrant; split
  · exact State.elapse_loops s 1
  · rfl
@[simp] theorem State.turnAt_loops (s : State) (pg : Nat) : (s.turnAt pg).loops = s.loops := by
  unfold State.turnAt; dsimp only; split
  · exact State.elapse_loops s 1
  · rfl
@[simp] theorem State.noteDelivery_meter (s : State) (n : Nat) : (s.noteDelivery n).meter = s.meter := by
  unfold State.noteDelivery; split <;> rfl
@[simp] theorem State.retake_meter (s : State) (n : Nat) : (s.retake n).meter = s.meter := by
  unfold State.retake; split
  · exact State.noteDelivery_meter s n
  · rfl
  · rfl
@[simp] theorem State.fire_meter (s : State) (n : Nat) : (s.fire n).meter = s.meter := by
  unfold State.fire; split
  · rfl
  · dsimp only; rw [State.retake_meter]; split <;> rfl
@[simp] theorem State.fireAll_meter (s : State) (l : List Nat) : (s.fireAll l).meter = s.meter := by
  induction l with
  | nil => rfl
  | cons a t ih => exact (State.fire_meter _ a).trans ih
@[simp] theorem State.raiseLines_meter (s : State) : s.raiseLines.meter = s.meter := State.fireAll_meter _ _
@[simp] theorem State.elapse_meter (s : State) (n : Nat) : (s.elapse n).meter = s.meter := by
  unfold State.elapse; split
  · rfl
  · exact State.raiseLines_meter s
@[simp] theorem State.until_meter (s : State) (t : Nat) : (s.until t).meter = s.meter := by
  unfold State.until; split
  · exact State.elapse_meter s _
  · rfl
@[simp] theorem State.atGrant_meter (s : State) : s.atGrant.meter = s.meter := by
  unfold State.atGrant; split
  · exact State.elapse_meter s 1
  · rfl
@[simp] theorem State.turnAt_meter (s : State) (pg : Nat) : (s.turnAt pg).meter = s.meter := by
  unfold State.turnAt; dsimp only; split
  · exact State.elapse_meter s 1
  · rfl
@[simp] theorem State.noteDelivery_links (s : State) (n : Nat) : (s.noteDelivery n).links = s.links := by
  unfold State.noteDelivery; split <;> rfl
@[simp] theorem State.retake_links (s : State) (n : Nat) : (s.retake n).links = s.links := by
  unfold State.retake; split
  · exact State.noteDelivery_links s n
  · rfl
  · rfl
@[simp] theorem State.fire_links (s : State) (n : Nat) : (s.fire n).links = s.links := by
  unfold State.fire; split
  · rfl
  · dsimp only; rw [State.retake_links]; split <;> rfl
@[simp] theorem State.fireAll_links (s : State) (l : List Nat) : (s.fireAll l).links = s.links := by
  induction l with
  | nil => rfl
  | cons a t ih => exact (State.fire_links _ a).trans ih
@[simp] theorem State.raiseLines_links (s : State) : s.raiseLines.links = s.links := State.fireAll_links _ _
@[simp] theorem State.elapse_links (s : State) (n : Nat) : (s.elapse n).links = s.links := by
  unfold State.elapse; split
  · rfl
  · exact State.raiseLines_links s
@[simp] theorem State.until_links (s : State) (t : Nat) : (s.until t).links = s.links := by
  unfold State.until; split
  · exact State.elapse_links s _
  · rfl
@[simp] theorem State.atGrant_links (s : State) : s.atGrant.links = s.links := by
  unfold State.atGrant; split
  · exact State.elapse_links s 1
  · rfl
@[simp] theorem State.turnAt_links (s : State) (pg : Nat) : (s.turnAt pg).links = s.links := by
  unfold State.turnAt; dsimp only; split
  · exact State.elapse_links s 1
  · rfl
@[simp] theorem State.noteDelivery_bus (s : State) (n : Nat) : (s.noteDelivery n).bus = s.bus := by
  unfold State.noteDelivery; split <;> rfl
@[simp] theorem State.retake_bus (s : State) (n : Nat) : (s.retake n).bus = s.bus := by
  unfold State.retake; split
  · exact State.noteDelivery_bus s n
  · rfl
  · rfl
@[simp] theorem State.fire_bus (s : State) (n : Nat) : (s.fire n).bus = s.bus := by
  unfold State.fire; split
  · rfl
  · dsimp only; rw [State.retake_bus]; split <;> rfl
@[simp] theorem State.fireAll_bus (s : State) (l : List Nat) : (s.fireAll l).bus = s.bus := by
  induction l with
  | nil => rfl
  | cons a t ih => exact (State.fire_bus _ a).trans ih
@[simp] theorem State.raiseLines_bus (s : State) : s.raiseLines.bus = s.bus := State.fireAll_bus _ _
@[simp] theorem State.elapse_bus (s : State) (n : Nat) : (s.elapse n).bus = s.bus := by
  unfold State.elapse; split
  · rfl
  · exact State.raiseLines_bus s
@[simp] theorem State.until_bus (s : State) (t : Nat) : (s.until t).bus = s.bus := by
  unfold State.until; split
  · exact State.elapse_bus s _
  · rfl
@[simp] theorem State.atGrant_bus (s : State) : s.atGrant.bus = s.bus := by
  unfold State.atGrant; split
  · exact State.elapse_bus s 1
  · rfl
@[simp] theorem State.turnAt_bus (s : State) (pg : Nat) : (s.turnAt pg).bus = s.bus := by
  unfold State.turnAt; dsimp only; split
  · exact State.elapse_bus s 1
  · rfl
@[simp] theorem State.noteDelivery_net (s : State) (n : Nat) : (s.noteDelivery n).net = s.net := by
  unfold State.noteDelivery; split <;> rfl
@[simp] theorem State.retake_net (s : State) (n : Nat) : (s.retake n).net = s.net := by
  unfold State.retake; split
  · exact State.noteDelivery_net s n
  · rfl
  · rfl
@[simp] theorem State.fire_net (s : State) (n : Nat) : (s.fire n).net = s.net := by
  unfold State.fire; split
  · rfl
  · dsimp only; rw [State.retake_net]; split <;> rfl
@[simp] theorem State.fireAll_net (s : State) (l : List Nat) : (s.fireAll l).net = s.net := by
  induction l with
  | nil => rfl
  | cons a t ih => exact (State.fire_net _ a).trans ih
@[simp] theorem State.raiseLines_net (s : State) : s.raiseLines.net = s.net := State.fireAll_net _ _
@[simp] theorem State.elapse_net (s : State) (n : Nat) : (s.elapse n).net = s.net := by
  unfold State.elapse; split
  · rfl
  · exact State.raiseLines_net s
@[simp] theorem State.until_net (s : State) (t : Nat) : (s.until t).net = s.net := by
  unfold State.until; split
  · exact State.elapse_net s _
  · rfl
@[simp] theorem State.atGrant_net (s : State) : s.atGrant.net = s.net := by
  unfold State.atGrant; split
  · exact State.elapse_net s 1
  · rfl
@[simp] theorem State.turnAt_net (s : State) (pg : Nat) : (s.turnAt pg).net = s.net := by
  unfold State.turnAt; dsimp only; split
  · exact State.elapse_net s 1
  · rfl
@[simp] theorem State.noteDelivery_tun (s : State) (n : Nat) : (s.noteDelivery n).tun = s.tun := by
  unfold State.noteDelivery; split <;> rfl
@[simp] theorem State.retake_tun (s : State) (n : Nat) : (s.retake n).tun = s.tun := by
  unfold State.retake; split
  · exact State.noteDelivery_tun s n
  · rfl
  · rfl
@[simp] theorem State.fire_tun (s : State) (n : Nat) : (s.fire n).tun = s.tun := by
  unfold State.fire; split
  · rfl
  · dsimp only; rw [State.retake_tun]; split <;> rfl
@[simp] theorem State.fireAll_tun (s : State) (l : List Nat) : (s.fireAll l).tun = s.tun := by
  induction l with
  | nil => rfl
  | cons a t ih => exact (State.fire_tun _ a).trans ih
@[simp] theorem State.raiseLines_tun (s : State) : s.raiseLines.tun = s.tun := State.fireAll_tun _ _
@[simp] theorem State.elapse_tun (s : State) (n : Nat) : (s.elapse n).tun = s.tun := by
  unfold State.elapse; split
  · rfl
  · exact State.raiseLines_tun s
@[simp] theorem State.until_tun (s : State) (t : Nat) : (s.until t).tun = s.tun := by
  unfold State.until; split
  · exact State.elapse_tun s _
  · rfl
@[simp] theorem State.atGrant_tun (s : State) : s.atGrant.tun = s.tun := by
  unfold State.atGrant; split
  · exact State.elapse_tun s 1
  · rfl
@[simp] theorem State.turnAt_tun (s : State) (pg : Nat) : (s.turnAt pg).tun = s.tun := by
  unfold State.turnAt; dsimp only; split
  · exact State.elapse_tun s 1
  · rfl
@[simp] theorem State.noteDelivery_keys (s : State) (n : Nat) : (s.noteDelivery n).keys = s.keys := by
  unfold State.noteDelivery; split <;> rfl
@[simp] theorem State.retake_keys (s : State) (n : Nat) : (s.retake n).keys = s.keys := by
  unfold State.retake; split
  · exact State.noteDelivery_keys s n
  · rfl
  · rfl
@[simp] theorem State.fire_keys (s : State) (n : Nat) : (s.fire n).keys = s.keys := by
  unfold State.fire; split
  · rfl
  · dsimp only; rw [State.retake_keys]; split <;> rfl
@[simp] theorem State.fireAll_keys (s : State) (l : List Nat) : (s.fireAll l).keys = s.keys := by
  induction l with
  | nil => rfl
  | cons a t ih => exact (State.fire_keys _ a).trans ih
@[simp] theorem State.raiseLines_keys (s : State) : s.raiseLines.keys = s.keys := State.fireAll_keys _ _
@[simp] theorem State.elapse_keys (s : State) (n : Nat) : (s.elapse n).keys = s.keys := by
  unfold State.elapse; split
  · rfl
  · exact State.raiseLines_keys s
@[simp] theorem State.until_keys (s : State) (t : Nat) : (s.until t).keys = s.keys := by
  unfold State.until; split
  · exact State.elapse_keys s _
  · rfl
@[simp] theorem State.atGrant_keys (s : State) : s.atGrant.keys = s.keys := by
  unfold State.atGrant; split
  · exact State.elapse_keys s 1
  · rfl
@[simp] theorem State.turnAt_keys (s : State) (pg : Nat) : (s.turnAt pg).keys = s.keys := by
  unfold State.turnAt; dsimp only; split
  · exact State.elapse_keys s 1
  · rfl
@[simp] theorem State.noteDelivery_fuse (s : State) (n : Nat) : (s.noteDelivery n).fuse = s.fuse := by
  unfold State.noteDelivery; split <;> rfl
@[simp] theorem State.retake_fuse (s : State) (n : Nat) : (s.retake n).fuse = s.fuse := by
  unfold State.retake; split
  · exact State.noteDelivery_fuse s n
  · rfl
  · rfl
@[simp] theorem State.fire_fuse (s : State) (n : Nat) : (s.fire n).fuse = s.fuse := by
  unfold State.fire; split
  · rfl
  · dsimp only; rw [State.retake_fuse]; split <;> rfl
@[simp] theorem State.fireAll_fuse (s : State) (l : List Nat) : (s.fireAll l).fuse = s.fuse := by
  induction l with
  | nil => rfl
  | cons a t ih => exact (State.fire_fuse _ a).trans ih
@[simp] theorem State.raiseLines_fuse (s : State) : s.raiseLines.fuse = s.fuse := State.fireAll_fuse _ _
@[simp] theorem State.elapse_fuse (s : State) (n : Nat) : (s.elapse n).fuse = s.fuse := by
  unfold State.elapse; split
  · rfl
  · exact State.raiseLines_fuse s
@[simp] theorem State.until_fuse (s : State) (t : Nat) : (s.until t).fuse = s.fuse := by
  unfold State.until; split
  · exact State.elapse_fuse s _
  · rfl
@[simp] theorem State.atGrant_fuse (s : State) : s.atGrant.fuse = s.fuse := by
  unfold State.atGrant; split
  · exact State.elapse_fuse s 1
  · rfl
@[simp] theorem State.turnAt_fuse (s : State) (pg : Nat) : (s.turnAt pg).fuse = s.fuse := by
  unfold State.turnAt; dsimp only; split
  · exact State.elapse_fuse s 1
  · rfl
@[simp] theorem State.noteDelivery_variant (s : State) (n : Nat) : (s.noteDelivery n).variant = s.variant := by
  unfold State.noteDelivery; split <;> rfl
@[simp] theorem State.retake_variant (s : State) (n : Nat) : (s.retake n).variant = s.variant := by
  unfold State.retake; split
  · exact State.noteDelivery_variant s n
  · rfl
  · rfl
@[simp] theorem State.fire_variant (s : State) (n : Nat) : (s.fire n).variant = s.variant := by
  unfold State.fire; split
  · rfl
  · dsimp only; rw [State.retake_variant]; split <;> rfl
@[simp] theorem State.fireAll_variant (s : State) (l : List Nat) : (s.fireAll l).variant = s.variant := by
  induction l with
  | nil => rfl
  | cons a t ih => exact (State.fire_variant _ a).trans ih
@[simp] theorem State.raiseLines_variant (s : State) : s.raiseLines.variant = s.variant := State.fireAll_variant _ _
@[simp] theorem State.elapse_variant (s : State) (n : Nat) : (s.elapse n).variant = s.variant := by
  unfold State.elapse; split
  · rfl
  · exact State.raiseLines_variant s
@[simp] theorem State.until_variant (s : State) (t : Nat) : (s.until t).variant = s.variant := by
  unfold State.until; split
  · exact State.elapse_variant s _
  · rfl
@[simp] theorem State.atGrant_variant (s : State) : s.atGrant.variant = s.variant := by
  unfold State.atGrant; split
  · exact State.elapse_variant s 1
  · rfl
@[simp] theorem State.turnAt_variant (s : State) (pg : Nat) : (s.turnAt pg).variant = s.variant := by
  unfold State.turnAt; dsimp only; split
  · exact State.elapse_variant s 1
  · rfl
@[simp] theorem State.noteDelivery_upd (s : State) (n : Nat) : (s.noteDelivery n).upd = s.upd := by
  unfold State.noteDelivery; split <;> rfl
@[simp] theorem State.retake_upd (s : State) (n : Nat) : (s.retake n).upd = s.upd := by
  unfold State.retake; split
  · exact State.noteDelivery_upd s n
  · rfl
  · rfl
@[simp] theorem State.fire_upd (s : State) (n : Nat) : (s.fire n).upd = s.upd := by
  unfold State.fire; split
  · rfl
  · dsimp only; rw [State.retake_upd]; split <;> rfl
@[simp] theorem State.fireAll_upd (s : State) (l : List Nat) : (s.fireAll l).upd = s.upd := by
  induction l with
  | nil => rfl
  | cons a t ih => exact (State.fire_upd _ a).trans ih
@[simp] theorem State.raiseLines_upd (s : State) : s.raiseLines.upd = s.upd := State.fireAll_upd _ _
@[simp] theorem State.elapse_upd (s : State) (n : Nat) : (s.elapse n).upd = s.upd := by
  unfold State.elapse; split
  · rfl
  · exact State.raiseLines_upd s
@[simp] theorem State.until_upd (s : State) (t : Nat) : (s.until t).upd = s.upd := by
  unfold State.until; split
  · exact State.elapse_upd s _
  · rfl
@[simp] theorem State.atGrant_upd (s : State) : s.atGrant.upd = s.upd := by
  unfold State.atGrant; split
  · exact State.elapse_upd s 1
  · rfl
@[simp] theorem State.turnAt_upd (s : State) (pg : Nat) : (s.turnAt pg).upd = s.upd := by
  unfold State.turnAt; dsimp only; split
  · exact State.elapse_upd s 1
  · rfl
@[simp] theorem State.noteDelivery_pair (s : State) (n : Nat) : (s.noteDelivery n).pair = s.pair := by
  unfold State.noteDelivery; split <;> rfl
@[simp] theorem State.retake_pair (s : State) (n : Nat) : (s.retake n).pair = s.pair := by
  unfold State.retake; split
  · exact State.noteDelivery_pair s n
  · rfl
  · rfl
@[simp] theorem State.fire_pair (s : State) (n : Nat) : (s.fire n).pair = s.pair := by
  unfold State.fire; split
  · rfl
  · dsimp only; rw [State.retake_pair]; split <;> rfl
@[simp] theorem State.fireAll_pair (s : State) (l : List Nat) : (s.fireAll l).pair = s.pair := by
  induction l with
  | nil => rfl
  | cons a t ih => exact (State.fire_pair _ a).trans ih
@[simp] theorem State.raiseLines_pair (s : State) : s.raiseLines.pair = s.pair := State.fireAll_pair _ _
@[simp] theorem State.elapse_pair (s : State) (n : Nat) : (s.elapse n).pair = s.pair := by
  unfold State.elapse; split
  · rfl
  · exact State.raiseLines_pair s
@[simp] theorem State.until_pair (s : State) (t : Nat) : (s.until t).pair = s.pair := by
  unfold State.until; split
  · exact State.elapse_pair s _
  · rfl
@[simp] theorem State.atGrant_pair (s : State) : s.atGrant.pair = s.pair := by
  unfold State.atGrant; split
  · exact State.elapse_pair s 1
  · rfl
@[simp] theorem State.turnAt_pair (s : State) (pg : Nat) : (s.turnAt pg).pair = s.pair := by
  unfold State.turnAt; dsimp only; split
  · exact State.elapse_pair s 1
  · rfl
@[simp] theorem State.noteDelivery_dio (s : State) (n : Nat) : (s.noteDelivery n).dio = s.dio := by
  unfold State.noteDelivery; split <;> rfl
@[simp] theorem State.retake_dio (s : State) (n : Nat) : (s.retake n).dio = s.dio := by
  unfold State.retake; split
  · exact State.noteDelivery_dio s n
  · rfl
  · rfl
@[simp] theorem State.fire_dio (s : State) (n : Nat) : (s.fire n).dio = s.dio := by
  unfold State.fire; split
  · rfl
  · dsimp only; rw [State.retake_dio]; split <;> rfl
@[simp] theorem State.fireAll_dio (s : State) (l : List Nat) : (s.fireAll l).dio = s.dio := by
  induction l with
  | nil => rfl
  | cons a t ih => exact (State.fire_dio _ a).trans ih
@[simp] theorem State.raiseLines_dio (s : State) : s.raiseLines.dio = s.dio := State.fireAll_dio _ _
@[simp] theorem State.elapse_dio (s : State) (n : Nat) : (s.elapse n).dio = s.dio := by
  unfold State.elapse; split
  · rfl
  · exact State.raiseLines_dio s
@[simp] theorem State.until_dio (s : State) (t : Nat) : (s.until t).dio = s.dio := by
  unfold State.until; split
  · exact State.elapse_dio s _
  · rfl
@[simp] theorem State.atGrant_dio (s : State) : s.atGrant.dio = s.dio := by
  unfold State.atGrant; split
  · exact State.elapse_dio s 1
  · rfl
@[simp] theorem State.turnAt_dio (s : State) (pg : Nat) : (s.turnAt pg).dio = s.dio := by
  unfold State.turnAt; dsimp only; split
  · exact State.elapse_dio s 1
  · rfl
@[simp] theorem State.noteDelivery_was (s : State) (n : Nat) : (s.noteDelivery n).was = s.was := by
  unfold State.noteDelivery; split <;> rfl
@[simp] theorem State.retake_was (s : State) (n : Nat) : (s.retake n).was = s.was := by
  unfold State.retake; split
  · exact State.noteDelivery_was s n
  · rfl
  · rfl
@[simp] theorem State.fire_was (s : State) (n : Nat) : (s.fire n).was = s.was := by
  unfold State.fire; split
  · rfl
  · dsimp only; rw [State.retake_was]; split <;> rfl
@[simp] theorem State.fireAll_was (s : State) (l : List Nat) : (s.fireAll l).was = s.was := by
  induction l with
  | nil => rfl
  | cons a t ih => exact (State.fire_was _ a).trans ih
@[simp] theorem State.raiseLines_was (s : State) : s.raiseLines.was = s.was := State.fireAll_was _ _
@[simp] theorem State.elapse_was (s : State) (n : Nat) : (s.elapse n).was = s.was := by
  unfold State.elapse; split
  · rfl
  · exact State.raiseLines_was s
@[simp] theorem State.until_was (s : State) (t : Nat) : (s.until t).was = s.was := by
  unfold State.until; split
  · exact State.elapse_was s _
  · rfl
@[simp] theorem State.atGrant_was (s : State) : s.atGrant.was = s.was := by
  unfold State.atGrant; split
  · exact State.elapse_was s 1
  · rfl
@[simp] theorem State.turnAt_was (s : State) (pg : Nat) : (s.turnAt pg).was = s.was := by
  unfold State.turnAt; dsimp only; split
  · exact State.elapse_was s 1
  · rfl
@[simp] theorem State.noteDelivery_closed (s : State) (n : Nat) : (s.noteDelivery n).closed = s.closed := by
  unfold State.noteDelivery; split <;> rfl
@[simp] theorem State.retake_closed (s : State) (n : Nat) : (s.retake n).closed = s.closed := by
  unfold State.retake; split
  · exact State.noteDelivery_closed s n
  · rfl
  · rfl
@[simp] theorem State.fire_closed (s : State) (n : Nat) : (s.fire n).closed = s.closed := by
  unfold State.fire; split
  · rfl
  · dsimp only; rw [State.retake_closed]; split <;> rfl
@[simp] theorem State.fireAll_closed (s : State) (l : List Nat) : (s.fireAll l).closed = s.closed := by
  induction l with
  | nil => rfl
  | cons a t ih => exact (State.fire_closed _ a).trans ih
@[simp] theorem State.raiseLines_closed (s : State) : s.raiseLines.closed = s.closed := State.fireAll_closed _ _
@[simp] theorem State.elapse_closed (s : State) (n : Nat) : (s.elapse n).closed = s.closed := by
  unfold State.elapse; split
  · rfl
  · exact State.raiseLines_closed s
@[simp] theorem State.until_closed (s : State) (t : Nat) : (s.until t).closed = s.closed := by
  unfold State.until; split
  · exact State.elapse_closed s _
  · rfl
@[simp] theorem State.atGrant_closed (s : State) : s.atGrant.closed = s.closed := by
  unfold State.atGrant; split
  · exact State.elapse_closed s 1
  · rfl
@[simp] theorem State.turnAt_closed (s : State) (pg : Nat) : (s.turnAt pg).closed = s.closed := by
  unfold State.turnAt; dsimp only; split
  · exact State.elapse_closed s 1
  · rfl
@[simp] theorem State.noteDelivery_ports (s : State) (n : Nat) : (s.noteDelivery n).ports = s.ports := by
  unfold State.noteDelivery; split <;> rfl
@[simp] theorem State.retake_ports (s : State) (n : Nat) : (s.retake n).ports = s.ports := by
  unfold State.retake; split
  · exact State.noteDelivery_ports s n
  · rfl
  · rfl
@[simp] theorem State.fire_ports (s : State) (n : Nat) : (s.fire n).ports = s.ports := by
  unfold State.fire; split
  · rfl
  · dsimp only; rw [State.retake_ports]; split <;> rfl
@[simp] theorem State.fireAll_ports (s : State) (l : List Nat) : (s.fireAll l).ports = s.ports := by
  induction l with
  | nil => rfl
  | cons a t ih => exact (State.fire_ports _ a).trans ih
@[simp] theorem State.raiseLines_ports (s : State) : s.raiseLines.ports = s.ports := State.fireAll_ports _ _
@[simp] theorem State.noteDelivery_snapAt (s : State) (n : Nat) : (s.noteDelivery n).snapAt = s.snapAt := by
  unfold State.noteDelivery; split <;> rfl
@[simp] theorem State.retake_snapAt (s : State) (n : Nat) : (s.retake n).snapAt = s.snapAt := by
  unfold State.retake; split
  · exact State.noteDelivery_snapAt s n
  · rfl
  · rfl
@[simp] theorem State.fire_snapAt (s : State) (n : Nat) : (s.fire n).snapAt = s.snapAt := by
  unfold State.fire; split
  · rfl
  · dsimp only; rw [State.retake_snapAt]; split <;> rfl
@[simp] theorem State.fireAll_snapAt (s : State) (l : List Nat) : (s.fireAll l).snapAt = s.snapAt := by
  induction l with
  | nil => rfl
  | cons a t ih => exact (State.fire_snapAt _ a).trans ih
@[simp] theorem State.raiseLines_snapAt (s : State) : s.raiseLines.snapAt = s.snapAt := State.fireAll_snapAt _ _
@[simp] theorem State.elapse_snapAt (s : State) (n : Nat) : (s.elapse n).snapAt = s.snapAt := by
  unfold State.elapse; split
  · rfl
  · exact State.raiseLines_snapAt s
@[simp] theorem State.until_snapAt (s : State) (t : Nat) : (s.until t).snapAt = s.snapAt := by
  unfold State.until; split
  · exact State.elapse_snapAt s _
  · rfl
@[simp] theorem State.atGrant_snapAt (s : State) : s.atGrant.snapAt = s.snapAt := by
  unfold State.atGrant; split
  · exact State.elapse_snapAt s 1
  · rfl
@[simp] theorem State.turnAt_snapAt (s : State) (pg : Nat) : (s.turnAt pg).snapAt = s.snapAt := by
  unfold State.turnAt; dsimp only; split
  · exact State.elapse_snapAt s 1
  · rfl
@[simp] theorem State.noteDelivery_pending (s : State) (n : Nat) : (s.noteDelivery n).pending = s.pending := by
  unfold State.noteDelivery; split <;> rfl
@[simp] theorem State.retake_pending (s : State) (n : Nat) : (s.retake n).pending = s.pending := by
  unfold State.retake; split
  · exact State.noteDelivery_pending s n
  · rfl
  · rfl
@[simp] theorem State.fire_pending (s : State) (n : Nat) : (s.fire n).pending = s.pending := by
  unfold State.fire; split
  · rfl
  · dsimp only; rw [State.retake_pending]; split <;> rfl
@[simp] theorem State.fireAll_pending (s : State) (l : List Nat) : (s.fireAll l).pending = s.pending := by
  induction l with
  | nil => rfl
  | cons a t ih => exact (State.fire_pending _ a).trans ih
@[simp] theorem State.raiseLines_pending (s : State) : s.raiseLines.pending = s.pending := State.fireAll_pending _ _
@[simp] theorem State.elapse_pending (s : State) (n : Nat) : (s.elapse n).pending = s.pending := by
  unfold State.elapse; split
  · rfl
  · exact State.raiseLines_pending s
@[simp] theorem State.until_pending (s : State) (t : Nat) : (s.until t).pending = s.pending := by
  unfold State.until; split
  · exact State.elapse_pending s _
  · rfl
@[simp] theorem State.atGrant_pending (s : State) : s.atGrant.pending = s.pending := by
  unfold State.atGrant; split
  · exact State.elapse_pending s 1
  · rfl
@[simp] theorem State.turnAt_pending (s : State) (pg : Nat) : (s.turnAt pg).pending = s.pending := by
  unfold State.turnAt; dsimp only; split
  · exact State.elapse_pending s 1
  · rfl

@[simp] theorem State.elapse_zero (s : State) : s.elapse 0 = s := rfl

/-- The clock after `n` ft, and where an event brings it. -/
theorem State.elapse_tick (s : State) (n : Nat) : (s.elapse n).tick = s.tick + n := by
  unfold State.elapse
  split
  · omega
  · simp

theorem State.until_tick (s : State) (t : Nat) : (s.until t).tick = max s.tick t := by
  unfold State.until
  split
  · rw [State.elapse_tick]; omega
  · omega

/-- An access in a ft without a hardware update or an earlier access to the page is granted in it. -/
theorem State.atGrant_early {s : State} (h : s.closed ≠ some s.tick) : s.atGrant = s := if_neg h
theorem State.turnAt_early {s : State} {pg : Nat} (h : pg ∉ s.ports) : s.turnAt pg = { s with ports := pg :: s.ports } := by
  simp [State.turnAt, h]


/-! ### What a read gives after a write -/

@[simp] theorem State.getKey_setKey_same (s : State) (k : Nat) (w : Word) : (s.setKey k w).getKey k = w :=
  Tbl.get_set_same _ _ _ _

theorem State.getKey_setKey_ne (s : State) {k j : Nat} (w : Word) (h : j ≠ k) : (s.setKey k w).getKey j = s.getKey j :=
  Tbl.get_set_ne _ _ _ h

theorem State.getKey_setKey (s : State) (k j : Nat) (w : Word) :
    (s.setKey k w).getKey j = if j = k then w else s.getKey j := Tbl.get_set _ _ _ _ _

@[simp] theorem State.lane_setLane_same (s : State) (l : Nat) (x : Lane) : (s.setLane l x).lane l = x :=
  Tbl.get_set_same _ _ _ _

theorem State.lane_setLane_ne (s : State) {l m : Nat} (x : Lane) (h : m ≠ l) : (s.setLane l x).lane m = s.lane m :=
  Tbl.get_set_ne _ _ _ h

@[simp] theorem State.slot_setSlot_same (s : State) (n : Nat) (x : Slot) : (s.setSlot n x).slot n = x :=
  Tbl.get_set_same _ _ _ _

theorem State.slot_setSlot_ne (s : State) {n m : Nat} (x : Slot) (h : m ≠ n) : (s.setSlot n x).slot m = s.slot m :=
  Tbl.get_set_ne _ _ _ h

@[simp] theorem State.session_setSession_same (s : State) (n : Nat) (x : Session) : (s.setSession n x).session n = x :=
  Tbl.get_set_same _ _ _ _

theorem State.session_setSession_ne (s : State) {n m : Nat} (x : Session) (h : m ≠ n) :
    (s.setSession n x).session m = s.session m := Tbl.get_set_ne _ _ _ h

@[simp] theorem State.answered_answer_same (s : State) (p : Path) (st : Nat) (w : Word) :
    (s.answer p st w).answered p = ⟨st, w⟩ := Tbl.get_set_same _ _ _ _

@[simp] theorem State.getShadow_setShadow_same (s : State) (pg ofs : Nat) (w : Word) :
    (s.setShadow pg ofs w).getShadow pg ofs = w := Tbl.get_set_same _ _ _ _

@[simp] theorem State.getBank_setBank_same (s : State) (p k : Nat) (w : Word) : (s.setBank p k w).getBank p k = w :=
  Tbl.get_set_same _ _ _ _

/-- Two words of one bank are different keys, and so are words of two paths. -/
theorem State.getBank_setBank_ne (s : State) {p k q j : Nat} (w : Word) (h : bankKey q j ≠ bankKey p k) :
    (s.setBank p k w).getBank q j = s.getBank q j := Tbl.get_set_ne _ _ _ h

/-- A counter's own value after it rose, and every other register. -/
theorem State.getKey_addKey (s : State) (k j n : Nat) :
    (s.addKey k n).getKey j = if j = k then s.getKey k + word n else s.getKey j := State.getKey_setKey _ _ _ _
theorem State.getKey_setRegBit (s : State) (pg ofs k j : Nat) (b : Bool) :
    (s.setRegBit pg ofs k b).getKey j = if j = rkey pg ofs then setBit (s.reg pg ofs) k b else s.getKey j :=
  State.getKey_setKey _ _ _ _
theorem State.getKey_setRegFld (s : State) (pg ofs lo len v j : Nat) :
    (s.setRegFld pg ofs lo len v).getKey j = if j = rkey pg ofs then setFld (s.reg pg ofs) lo len v else s.getKey j :=
  State.getKey_setKey _ _ _ _

/-! ### Operations that are register writes -/

theorem State.setRegFld_eq (s : State) (pg ofs lo len v : Nat) :
    s.setRegFld pg ofs lo len v = s.setKey (rkey pg ofs) (setFld (s.getKey (rkey pg ofs)) lo len v) := rfl
theorem State.setRegBit_eq (s : State) (pg ofs k : Nat) (b : Bool) :
    s.setRegBit pg ofs k b = s.setKey (rkey pg ofs) (setBit (s.getKey (rkey pg ofs)) k b) := rfl
theorem State.addKey_eq (s : State) (k n : Nat) : s.addKey k n = s.setKey k (s.getKey k + word n) := rfl
theorem State.setReg64_eq (s : State) (pg lo v : Nat) :
    s.setReg64 pg lo v = (s.setKey (rkey pg lo) (loWord v)).setKey (rkey pg (lo + 4)) (hiWord v) := rfl
theorem State.setInd64_eq (s : State) (pg lo v : Nat) :
    s.setInd64 pg lo v = (s.setInd pg lo (loWord v)).setInd pg (lo + 4) (hiWord v) := by rw [State.setInd64]

/-! ### Writes in a row -/

theorem Tbl.drop_put {α : Type} (t : Tbl α) (k : Nat) (v : α) : Tbl.drop k (Tbl.put k v t) = Tbl.drop k t := by
  induction t with
  | nil => simp [Tbl.put, Tbl.drop]
  | cons e r ih =>
    obtain ⟨a, w⟩ := e
    simp only [Tbl.put]
    split
    · simp [Tbl.drop]
    · simp [Tbl.drop, ih]

theorem Tbl.drop_drop {α : Type} (t : Tbl α) (k : Nat) : Tbl.drop k (Tbl.drop k t) = Tbl.drop k t := by
  induction t with
  | nil => rfl
  | cons e r ih =>
    obtain ⟨a, w⟩ := e
    simp only [Tbl.drop]
    split
    · exact ih
    · simp_all [Tbl.drop]

/-- The later of two writes of one key is the one that counts. -/
@[simp] theorem Tbl.set_set {α : Type} [DecidableEq α] (d : Nat → α) (t : Tbl α) (k : Nat) (v w : α) :
    Tbl.set d (Tbl.set d t k v) k w = Tbl.set d t k w := by
  have h : Tbl.drop k (Tbl.set d t k v) = Tbl.drop k t := by
    simp only [Tbl.set]
    split
    · exact Tbl.drop_drop t k
    · rw [Tbl.drop_put, Tbl.drop_drop]
  simp only [Tbl.set] at h ⊢
  rw [h]

@[simp] theorem State.setLane_setLane (s : State) (l : Nat) (x y : Lane) : (s.setLane l x).setLane l y = s.setLane l y := by
  simp [State.setLane]

/-- A lane update and a register write do not meet. -/
theorem State.setLane_setKey (s : State) (l k : Nat) (x : Lane) (w : Word) :
    (s.setLane l x).setKey k w = (s.setKey k w).setLane l x := rfl

end Sys2Proof.Machine
end

