-- ==== Sys2Proof/Laws/Exec.lean ====
section
/-! SUPPORT. What exec answers, for every command at once. -/

namespace Sys2Proof.Machine

/-- All but the two commands that blow fuses end with `State.commit`, those that are hardware events with `State.land`, so they keep the
queue and the fuses. -/
theorem exec_commits (c : Instr) (s : State) :
    (∃ u, exec c s = .next (s.atGrant.commit u)) ∨ (∃ u, exec c s = .next (s.land u)) ∨
      (∃ r, c = .lifecycleTransitionEnd r) ∨ c = .fuseBlowComplete := by
  cases c
  case lifecycleTransitionEnd => exact .inr (.inr (.inl ⟨_, rfl⟩))
  case fuseBlowComplete => exact .inr (.inr (.inr rfl))
  all_goals first | exact .inl ⟨_, rfl⟩ | exact .inr (.inl ⟨_, rfl⟩)

end Sys2Proof.Machine
end

