-- ==== Sys2Proof/Laws/Frames.lean ====
section
/-! SUPPORT. What the shared operations reach: pending bits, interrupt sources and Cairn records touch registers of their own pages
only. A proof about a command chains these with `OnlyPages.trans`. -/

namespace Sys2Proof.Machine

open Sys2Proof.Config

theorem OnlyPages.refl (ps : List Nat) (s : State) : OnlyPages ps s s := ⟨rfl, fun _ _ => rfl⟩

theorem OnlyPages.trans {ps : List Nat} {s t u : State} (h : OnlyPages ps s t) (g : OnlyPages ps t u) : OnlyPages ps s u := by
  obtain ⟨h1, h2⟩ := h
  obtain ⟨g1, g2⟩ := g
  refine ⟨?_, fun k hk => (g2 k hk).trans (h2 k hk)⟩
  rw [g1, h1]

/-- A choice between two changes. -/
theorem OnlyPages.ite {ps : List Nat} {s a b : State} {c : Prop} [Decidable c] (h : OnlyPages ps s a) (g : OnlyPages ps s b) :
    OnlyPages ps s (if c then a else b) := by
  split
  · exact h
  · exact g

theorem OnlyPages.mono {ps qs : List Nat} {s t : State} (h : OnlyPages ps s t) (hs : ∀ p ∈ ps, p ∈ qs) : OnlyPages qs s t :=
  ⟨h.1, fun k hk => h.2 k (fun hp => hk (hs _ hp))⟩

theorem OnlyPages.setKey {ps : List Nat} (s : State) (k : Nat) (w : Word) (h : keyPage k ∈ ps) : OnlyPages ps s (s.setKey k w) := by
  refine ⟨rfl, fun j hj => State.getKey_setKey_ne s w ?_⟩
  rintro rfl
  exact hj h

theorem keyPage_dkey (pg ofs : Nat) (h : pg < 256) (ho : ofs < 4096) : keyPage (dkey pg ofs) = pg := by
  unfold keyPage dkey
  rw [if_neg (by omega), if_neg (by omega)]
  omega

theorem keyPage_ikey (pg a : Nat) (ha : a < 16777216) : keyPage (ikey pg a) = pg := by
  unfold keyPage ikey
  rw [if_pos (by omega)]
  omega

theorem keyPage_rkey (pg ofs : Nat) (h : pg < 256) (ho : ofs < 4096) : keyPage (rkey pg ofs) = pg := by
  unfold rkey
  split
  · exact keyPage_ikey pg ofs (by omega)
  · exact keyPage_dkey pg ofs h ho

theorem OnlyPages.setReg {ps : List Nat} (s : State) (pg ofs : Nat) (w : Word) (h : pg ∈ ps) (hp : pg < 256)
    (ho : ofs < 4096) : OnlyPages ps s (s.setReg pg ofs w) :=
  OnlyPages.setKey s _ w (by rw [keyPage_rkey pg ofs hp ho]; exact h)

theorem OnlyPages.bump {ps : List Nat} (s : State) (pg ofs n : Nat) (h : pg ∈ ps) (hp : pg < 256)
    (ho : ofs < 4096) : OnlyPages ps s (s.bump pg ofs n) := OnlyPages.setReg s pg ofs _ h hp ho

theorem OnlyPages.setRegBit {ps : List Nat} (s : State) (pg ofs k : Nat) (b : Bool) (h : pg ∈ ps) (hp : pg < 256)
    (ho : ofs < 4096) : OnlyPages ps s (s.setRegBit pg ofs k b) := OnlyPages.setReg s pg ofs _ h hp ho

theorem OnlyPages.setRegFld {ps : List Nat} (s : State) (pg ofs lo len v : Nat) (h : pg ∈ ps) (hp : pg < 256)
    (ho : ofs < 4096) : OnlyPages ps s (s.setRegFld pg ofs lo len v) := OnlyPages.setReg s pg ofs _ h hp ho

theorem OnlyPages.setInd {ps : List Nat} (s : State) (pg a : Nat) (w : Word) (h : pg ∈ ps) (ha : a < 16777216) :
    OnlyPages ps s (s.setInd pg a w) := OnlyPages.setKey s _ w (by rw [keyPage_ikey pg a ha]; exact h)

/-- What a note of a delivery can reach. -/
theorem OnlyPages.noteDelivery (ps : List Nat) (s : State) (n : Nat) : OnlyPages ps s (s.noteDelivery n) := by
  unfold State.noteDelivery
  split <;> exact ⟨rfl, fun _ _ => rfl⟩

/-- A fire of a source that no path or lane has taken in this ft reaches INT's registers only (R428). -/
theorem OnlyPages.fire {ps : List Nat} (s : State) (n : Nat) (hn : n < 128) (h : pgINT ∈ ps) (ht : s.intc.took = []) :
    OnlyPages ps s (s.fire n) := by
  have retake : ∀ t : State, t.intc.took = [] → t.retake n = t.noteDelivery n := fun t h => by simp [State.retake, h]
  unfold State.fire
  rw [if_neg (by omega)]
  dsimp only
  rw [retake _ (by split <;> exact ht)]
  exact ((((OnlyPages.bump s pgINT (0x200 + 4 * n) 1 h (by decide) (by omega)).trans
    (OnlyPages.ite (OnlyPages.bump _ pgINT 0x400 1 h (by decide) (by decide)) (OnlyPages.refl ps _))).trans
    (OnlyPages.setRegBit _ pgINT (0x040 + n / 32 * 4) (n % 32) true h (by decide) (by omega))).trans
    (OnlyPages.noteDelivery ps _ n))

/-- What a note of a summary line can reach. -/
theorem OnlyPages.noteLine (ps : List Nat) (s : State) (pg : Nat) (was : Bool) : OnlyPages ps s (s.noteLine pg was) := by
  unfold State.noteLine
  split
  · exact OnlyPages.refl ps s
  · split <;> exact ⟨rfl, fun _ _ => rfl⟩

/-- A pending bit reaches its page's IRQ_PEND (R127). -/
theorem OnlyPages.setPend {ps : List Nat} (s : State) (pg b : Nat) (hpg : pg < 128) (h : pg ∈ ps) : OnlyPages ps s (s.setPend pg b) :=
  OnlyPages.trans (OnlyPages.setReg s pg 0x010 _ h (by omega) (by decide)) (OnlyPages.noteLine ps _ pg _)

/-! ### Cairn (R453, R454) -/

theorem OnlyPages.cairn (ps : List Nat) (s : State) (c : Cairn) : OnlyPages ps s { s with cairn := c } := ⟨rfl, fun _ _ => rfl⟩

theorem OnlyPages.crnFill {ps : List Nat} (s : State) (n : Nat) (hc : pgCRN ∈ ps) :
    OnlyPages ps s (s.crnFill n) := by
  unfold State.crnFill
  dsimp only
  have h1 : OnlyPages ps s (s.setReg pgCRN 0x054 (word ((s.reg pgCRN 0x054).toNat + n))) :=
    OnlyPages.setReg s pgCRN 0x054 _ hc (by decide) (by decide)
  split
  · exact OnlyPages.trans h1 (OnlyPages.setPend _ pgCRN 2 (by decide) hc)
  · exact h1

theorem OnlyPages.crnRefold {ps : List Nat} (s : State) (r : CrnRec) (hc : pgCRN ∈ ps) :
    OnlyPages ps s (s.crnRefold r) := by
  unfold State.crnRefold
  split
  · exact OnlyPages.cairn ps s _
  · split
    · exact OnlyPages.cairn ps s _
    · split
      · exact OnlyPages.refl ps s
      · exact OnlyPages.trans (OnlyPages.trans (OnlyPages.cairn ps s _)
          (OnlyPages.setReg _ pgCRN 0x050 _ hc (by decide) (by decide))) (OnlyPages.crnFill _ _ hc)

theorem OnlyPages.crnCharge {ps : List Nat} (s : State) (r : CrnRec) (n : Nat) (hc : pgCRN ∈ ps) (hr : r.ctx < 512) :
    OnlyPages ps s (s.crnCharge r n) := by
  unfold State.crnCharge
  split
  · exact OnlyPages.setInd s pgCRN _ _ hc (by unfold crnUsed; omega)
  · exact OnlyPages.cairn ps s _

theorem OnlyPages.crnAccept {ps : List Nat} (s : State) (r : CrnRec) (hc : pgCRN ∈ ps) : OnlyPages ps s (s.crnAccept r) := by
  unfold State.crnAccept
  split
  · exact OnlyPages.trans (OnlyPages.cairn ps s _) (OnlyPages.setReg _ pgCRN 0x044 _ hc (by decide) (by decide))
  · exact OnlyPages.cairn ps s _

theorem OnlyPages.crnLose {ps : List Nat} (s : State) (c : Nat) (hc : pgCRN ∈ ps) (hr : c < 512) :
    OnlyPages ps s (s.crnLose c) := by
  unfold State.crnLose
  dsimp only
  have h1 : OnlyPages ps s ((s.addKey (ikey pgCRN (16 * c + 8)) 1).bump pgCRN 0x08C) :=
    OnlyPages.trans (OnlyPages.setInd s pgCRN _ _ hc (by omega)) (OnlyPages.setReg _ pgCRN 0x08C _ hc (by decide) (by decide))
  split
  · exact h1
  · exact OnlyPages.trans h1 (OnlyPages.setPend _ pgCRN 0 (by decide) hc)

theorem crnLast_ctx (s : State) (h : ∀ r, s.crnLast = some r → r.ctx < 512) (r : CrnRec) (hr : s.crnLast = some r) : r.ctx < 512 :=
  h r hr

/-- What R454 decides for an event reaches CRN's and INT's registers. -/
theorem OnlyPages.crnDecide {ps : List Nat} (s : State) (e : CrnRec) (hc : pgCRN ∈ ps) (hr : e.ctx < 512) :
    OnlyPages ps s (s.crnDecide e) := by
  unfold State.crnDecide
  dsimp only
  have h1 : OnlyPages ps s (s.bump pgCRN 0x080) := OnlyPages.setReg s pgCRN 0x080 _ hc (by decide) (by decide)
  refine OnlyPages.trans h1 ?_
  generalize s.bump pgCRN 0x080 = s
  split
  · rename_i r hf
    have hrc : r.ctx < 512 := by
      split at hf
      · split at hf
        · rename_i hs
          simp only [Option.some.injEq] at hf
          subst hf
          simp only [CrnRec.same, Bool.and_eq_true, decide_eq_true_eq] at hs
          omega
        · cases hf
      · cases hf
    refine OnlyPages.trans (OnlyPages.trans ?_ (OnlyPages.crnRefold _ _ hc)) (OnlyPages.setReg _ pgCRN 0x088 _ hc (by decide) (by decide))
    split
    · exact OnlyPages.crnCharge s r 16 hc hrc
    · exact OnlyPages.refl ps s
  · refine OnlyPages.ite ?_ (OnlyPages.trans (OnlyPages.ite ?_ (OnlyPages.refl ps s)) (OnlyPages.crnLose _ _ hc hr))
    · exact OnlyPages.trans (OnlyPages.trans (OnlyPages.crnCharge s e _ hc hr) (OnlyPages.crnAccept _ e hc))
        (OnlyPages.setReg _ pgCRN 0x084 _ hc (by decide) (by decide))
    · exact OnlyPages.setPend s pgCRN 1 (by decide) hc

theorem OnlyPages.markNow {ps : List Nat} (s : State) (c : Nat) (hc : pgCRN ∈ ps) : OnlyPages ps s (s.markNow c) :=
  OnlyPages.crnDecide s _ hc (Nat.zero_lt_succ 511)

theorem OnlyPages.markFirst {ps : List Nat} (s : State) (hc : pgCRN ∈ ps) : OnlyPages ps s s.markFirst :=
  OnlyPages.ite (OnlyPages.refl ps s) (OnlyPages.trans (OnlyPages.markNow s markStart hc) (OnlyPages.cairn ps _ _))

theorem OnlyPages.crnMark {ps : List Nat} (s : State) (c : Nat) (hc : pgCRN ∈ ps) : OnlyPages ps s (s.crnMark c) :=
  OnlyPages.trans (OnlyPages.markFirst s hc) (OnlyPages.markNow _ c hc)

/-- A record reaches CRN's and INT's registers (R453, R454). -/
theorem OnlyPages.present' {ps : List Nat} (s : State) (e : CrnRec) (hc : pgCRN ∈ ps) (hr : e.ctx < 512) :
    OnlyPages ps s (s.present' e) :=
  OnlyPages.trans (OnlyPages.markFirst s hc) (OnlyPages.crnDecide _ e hc hr)

theorem OnlyPages.record {ps : List Nat} (s : State) (code : Nat) (vals : List Nat) (ctx : Nat) (hc : pgCRN ∈ ps)
    (hr : ctx < 512) : OnlyPages ps s (s.record code vals ctx) :=
  OnlyPages.present' s _ hc hr

/-- A page event: its pending bit, then its record (R452). -/
theorem OnlyPages.event {ps : List Nat} (s : State) (pg b : Nat) (vals : List Nat) (ctx : Nat) (hpg : pg < 128) (h : pg ∈ ps)
    (hc : pgCRN ∈ ps) (hr : ctx < 512) : OnlyPages ps s (s.event pg b vals ctx) :=
  OnlyPages.trans (OnlyPages.setPend s pg b hpg h) (OnlyPages.record _ _ vals ctx hc hr)

/-! ### The port of a page (R142) -/

/-- An access that the gate grants: the block's effect in its turn at the port, and its status for the path. -/
theorem State.port_granted {s : State} {p : Path} {pg : Nat} {own : Bool} (f : State → State × Nat)
    (h : s.gate p pg true own = some stOk) : s.port p pg own f = (f (s.turnAt pg)).1.answer p (f (s.turnAt pg)).2 0 := by
  simp [State.port, h]

theorem State.portRead_granted {s : State} {p : Path} {pg : Nat} {own : Bool} (f : State → State × Nat × Word)
    (h : s.gate p pg false own = some stOk) :
    s.portRead p pg own f = (f (s.turnAt pg)).1.answer p (f (s.turnAt pg)).2.1 (f (s.turnAt pg)).2.2 := by
  simp [State.portRead, h]

/-- An access that the gate refuses: its status, and nothing else. -/
theorem State.port_refused {s : State} {p : Path} {pg st : Nat} {own : Bool} (f : State → State × Nat)
    (h : s.gate p pg true own = some (st + 1)) : s.port p pg own f = (s.turnAt pg).answer p (st + 1) 0 := by
  simp [State.port, h]

/-- A path that cannot present an access changes nothing. -/
theorem State.port_waits {s : State} {p : Path} {pg : Nat} {own : Bool} (f : State → State × Nat)
    (h : s.gate p pg true own = none) : s.port p pg own f = s := by
  simp [State.port, h]

/-- The end of a command that changed neither the queue nor the fuses: only what the model notes of the ft is new. -/
theorem State.commit_same (s t : State) (hp : t.pending = s.pending) (hf : t.fuse = s.fuse) :
    s.commit t = { t with was := s.before t.tick } := by
  cases s; cases t; simp_all [State.commit]

theorem OnlyPages.commit {ps : List Nat} {s t : State} (h : OnlyPages ps s t) : s.commit t = { t with was := s.before s.tick } := by
  rw [State.commit_same s t (by rw [h.1]) (by rw [h.1])]
  rw [h.1]

end Sys2Proof.Machine
end

