-- ==== Sys2Proof/Laws/Lanes.lean ====
section
/-! SUPPORT. What an instruction of a lane can do: the laws of the shared operations of Machine/Lanes.lean. -/

namespace Sys2Proof.Machine

open Sys2Proof.Config

theorem State.fetch_clean {s : State} {l : Nat} (h : s.cleanFetch l = true) : s.fetch l = (s, false) := by
  unfold State.cleanFetch at h
  unfold State.fetch
  dsimp only
  cases hr : (s.lane l).running with
  | false => rfl
  | true =>
    have h0 : s.struckBits (.code (((s.slot (s.lane l).slot).codeAt + (s.lane l).pc) / 32)) = 0 := by simpa [hr] using h
    simp [State.checkWord, h0]

theorem State.cleanFetch_step (s : State) (l : Nat) (b : Bool) :
    (s.setLane l { s.lane l with step := b }).cleanFetch l = s.cleanFetch l := by
  simp only [State.cleanFetch, State.lane_setLane_same]
  rfl

theorem State.insn_ready {s : State} {l : Nat} (f : State → State) (h : s.laneReady l = true) (hc : s.cleanFetch l = true) :
    s.insn l f = (f (s.setLane l { s.lane l with step := false })).bump (pgSCL l) 0x100 := by
  rw [State.insn, if_pos h, State.fetch_clean ((State.cleanFetch_step s l false).trans hc)]
  rfl

theorem State.insn_idle {s : State} {l : Nat} (f : State → State) (h : s.laneReady l = false) : s.insn l f = s := by
  rw [State.insn, h]; rfl

theorem State.commit_ran (s : State) (l : Nat) (x : Lane) :
    s.commit (s.ran l x) = { s.ran l x with was := s.before s.tick } := rfl

theorem Lane.getG_step (l : Lane) (b : Bool) (r : BitVec 5) : ({ l with step := b } : Lane).getG r = l.getG r := rfl

theorem Lane.setG_step (l : Lane) (b : Bool) (r : BitVec 5) (v : Dword) :
    ({ l with step := b } : Lane).setG r v = { l.setG r v with step := b } := by
  unfold Lane.setG
  split <;> rfl

theorem Lane.land_step (l : Lane) (b : Bool) (pc : Nat) : ({ l with step := b } : Lane).land pc = { l.land pc with step := b } := by
  unfold Lane.land
  generalize landLoops l.loops pc = r
  obtain ⟨a, q, c⟩ := r
  cases c with
  | none => rfl
  | some x => exact Lane.setG_step { l with loops := a, pc := q } b _ _

theorem Lane.setG_pc (l : Lane) (r : BitVec 5) (v : Dword) : (l.setG r v).pc = l.pc := by
  unfold Lane.setG
  split <;> rfl

theorem Lane.setG_loops (l : Lane) (r : BitVec 5) (v : Dword) : (l.setG r v).loops = l.loops := by
  unfold Lane.setG
  split <;> rfl

theorem Lane.next_step (l : Lane) (b : Bool) : ({ l with step := b } : Lane).next = { l.next with step := b } :=
  Lane.land_step l b (l.pc + 8)

/-- An instruction that acts on the lane alone, on a lane that can execute. -/
theorem State.laneInsn_ready {s : State} {l : Nat} (g : Lane → Lane) (h : s.laneReady l = true) (hc : s.cleanFetch l = true)
    (hg : g { s.lane l with step := false } = { g (s.lane l) with step := false }) : s.laneInsn l g = s.ran l (g (s.lane l)) := by
  rw [State.laneInsn, State.insn_ready _ h hc]
  simp [State.ran, hg]

/-- An instruction of a and b that writes G[D]. -/
theorem State.alu_ready {s : State} {l : Nat} (f : Fields) (op : Dword → Dword → Dword) (h : s.laneReady l = true)
    (hc : s.cleanFetch l = true) : s.alu l f op = s.ran l ((s.lane l).setG f.d (op ((s.lane l).getG f.a) ((s.lane l).opB f))).next := by
  rw [State.alu, State.laneInsn_ready _ h hc]
  rw [Lane.setG_step, Lane.next_step]
  rfl

end Sys2Proof.Machine
end

