-- ==== Sys2Proof/Laws/Memory.lean ====
section
/-! SUPPORT. The laws of the data SRAM: every operation on it keeps the canonical form, a read after a write gives the byte
written, and a write leaves every other byte alone. -/

namespace Sys2Proof.Machine

theorem Tbl.rising_clear {α : Type} (p : Nat → Bool) (t : Tbl α) (b : Option Nat) (h : Tbl.rising b t = true) :
    Tbl.rising b (Tbl.clear p t) = true := by
  induction t generalizing b with
  | nil => rfl
  | cons e r ih =>
    obtain ⟨a, v⟩ := e
    simp only [Tbl.rising, Bool.and_eq_true] at h
    simp only [Tbl.clear]
    split
    · cases b with
      | none => exact Tbl.rising_none _ (ih _ h.2)
      | some c =>
        have hc : c < a := by simpa using h.1
        exact Tbl.rising_weaken _ (Nat.le_of_lt hc) (ih _ h.2)
    · simp only [Tbl.rising, Bool.and_eq_true]; exact ⟨h.1, ih _ h.2⟩

theorem Tbl.mem_clear {α : Type} (p : Nat → Bool) (t : Tbl α) (e : Nat × α) (h : e ∈ Tbl.clear p t) :
    e ∈ t ∧ p e.1 = false := by
  induction t with
  | nil => simp [Tbl.clear] at h
  | cons x r ih =>
    obtain ⟨a, v⟩ := x
    simp only [Tbl.clear] at h
    split at h
    · obtain ⟨h1, h2⟩ := ih h; exact ⟨by simp [h1], h2⟩
    · rename_i hp
      rcases List.mem_cons.1 h with rfl | h
      · exact ⟨by simp, by simpa using hp⟩
      · obtain ⟨h1, h2⟩ := ih h; exact ⟨by simp [h1], h2⟩

/-- Clearing a range keeps the canonical form. -/
theorem Tbl.wf_clear {α : Type} [DecidableEq α] (d : Nat → α) (p : Nat → Bool) (t : Tbl α) (h : Tbl.wf d t = true) :
    Tbl.wf d (Tbl.clear p t) = true := by
  simp only [Tbl.wf, Bool.and_eq_true, List.all_eq_true, decide_eq_true_eq] at h ⊢
  exact ⟨Tbl.rising_clear p _ _ h.1, fun e he => h.2 e (Tbl.mem_clear p _ _ he).1⟩

/-- A cleared key reads as its unlisted value, every other as before. -/
theorem Tbl.get_clear {α : Type} (d : Nat → α) (p : Nat → Bool) (t : Tbl α) (k : Nat) :
    Tbl.get d (Tbl.clear p t) k = if p k then d k else Tbl.get d t k := by
  induction t with
  | nil => simp [Tbl.clear, Tbl.get]
  | cons e r ih =>
    obtain ⟨a, v⟩ := e
    simp only [Tbl.clear]
    split
    · rename_i hp
      rw [ih]
      by_cases hk : k = a
      · subst hk; simp [hp]
      · simp [Tbl.get, hk]
    · rename_i hp
      by_cases hk : k = a
      · subst hk; simp [Tbl.get, hp]
      · simp [Tbl.get, hk, ih]

theorem Tbl.wf_mapVals {α : Type} [DecidableEq α] (d : Nat → α) (f : α → α) (t : Tbl α) (h : Tbl.rising none t = true) :
    Tbl.wf d (Tbl.mapVals d f t) = true := by
  have hr : ∀ (t : Tbl α) (b : Option Nat), Tbl.rising b t = true → Tbl.rising b (Tbl.mapVals d f t) = true := by
    intro t
    induction t with
    | nil => intro b _; rfl
    | cons e r ih =>
      obtain ⟨a, v⟩ := e
      intro b h
      simp only [Tbl.rising, Bool.and_eq_true] at h
      simp only [Tbl.mapVals]
      split
      · cases b with
        | none => exact Tbl.rising_none _ (ih _ h.2)
        | some c =>
          have hc : c < a := by simpa using h.1
          exact Tbl.rising_weaken _ (Nat.le_of_lt hc) (ih _ h.2)
      · simp only [Tbl.rising, Bool.and_eq_true]; exact ⟨h.1, ih _ h.2⟩
  have hv : ∀ (t : Tbl α), ∀ e ∈ Tbl.mapVals d f t, e.2 ≠ d e.1 := by
    intro t
    induction t with
    | nil => simp [Tbl.mapVals]
    | cons e r ih =>
      obtain ⟨a, v⟩ := e
      simp only [Tbl.mapVals]
      split
      · exact ih
      · intro e he
        rcases List.mem_cons.1 he with rfl | he
        · assumption
        · exact ih e he
  simp only [Tbl.wf, Bool.and_eq_true, List.all_eq_true, decide_eq_true_eq]
  exact ⟨hr t none h, hv t⟩

/-! ### Bytes -/

theorem setByte_wf (m : List Host.Cell) (a : Nat) (b : Byte) (h : Memory.wf m = true) : Memory.wf (setByte m a b) = true :=
  Tbl.wf_set _ m a b h

theorem writeBytes_wf (m : List Host.Cell) (a : Nat) (bs : List Byte) (h : Memory.wf m = true) :
    Memory.wf (writeBytes m a bs) = true := by
  induction bs generalizing m a with
  | nil => exact h
  | cons b r ih => exact ih _ _ (setByte_wf m a b h)

/-- A store keeps the canonical form of the data SRAM. -/
theorem State.store_wf (s : State) (a : Nat) (bs : List Byte) (h : Memory.wf s.sram = true) :
    Memory.wf (s.store a bs).sram = true := writeBytes_wf s.sram a bs h

theorem reset_sram_wf : Memory.wf State.reset.sram = true := rfl

/-- A write leaves every byte outside its range alone. -/
theorem get_writeBytes_out (m : List Host.Cell) (a x : Nat) (bs : List Byte) (h : x < a ∨ a + bs.length ≤ x) :
    Tbl.get (fun _ => 0) (writeBytes m a bs) x = Tbl.get (fun _ => 0) m x := by
  induction bs generalizing m a with
  | nil => rfl
  | cons b r ih =>
    simp only [List.length_cons] at h
    rw [writeBytes, ih _ _ (by omega), setByte, Tbl.get_set_ne _ _ _ (by omega)]

/-- A read in the range of a write gives the byte written. -/
theorem get_writeBytes_in (m : List Host.Cell) (a i : Nat) (bs : List Byte) (h : i < bs.length) :
    Tbl.get (fun _ => 0) (writeBytes m a bs) (a + i) = bs[i] := by
  induction bs generalizing m a i with
  | nil => simp at h
  | cons b r ih =>
    cases i with
    | zero => rw [writeBytes, get_writeBytes_out _ _ _ _ (by omega)]; simp [setByte]
    | succ i =>
      have := ih (setByte m a b) (a + 1) i (by simpa using h)
      rw [writeBytes, show a + (i + 1) = a + 1 + i by omega, this]; simp

theorem State.store_byte_out (s : State) (a x : Nat) (bs : List Byte) (h : x < a ∨ a + bs.length ≤ x) :
    (s.store a bs).byte x = s.byte x := get_writeBytes_out s.sram a x bs h

theorem State.store_byte_in (s : State) (a i : Nat) (bs : List Byte) (h : i < bs.length) :
    (s.store a bs).byte (a + i) = bs[i] := get_writeBytes_in s.sram a i bs h

end Sys2Proof.Machine
end

