-- ==== Sys2Proof/Machine/Terminals.lean ====
section
/-! DEFINITION. The terminals (R55 to R71): what each drives, as it follows from the state. No command reads these values; they are
what an outside observer sees of Tables ELE-19 and SYS-5. -/

namespace Sys2Proof.Machine

set_option cleanup.letToHave false

open Sys2Proof.Config

/-- What the module drives on its terminals. Lists run over the terminals of one kind in their order. -/
structure Pins where
  /-- J1: the front end runs. -/
  frontEnd : Bool
  /-- J3: the supply of each sense link, and whether its LVDS pins are driven. -/
  senseSupply : List Bool
  senseLvds : List Bool
  /-- J4: the supply current of each DALI channel in mA, and whether its transmitter may pull the bus low. -/
  daliSupply : List Nat
  daliSend : List Bool
  /-- J5: the termination of each CAN channel, and whether it may drive the bus dominant. -/
  canTerm : List Bool
  canSend : List Bool
  /-- J6: termination, bias and driver of each RS-485 port. -/
  rsTerm : List Bool
  rsBias : List Bool
  rsSend : List Bool
  /-- J7: the transmitter of each floor port. -/
  t1sSend : List Bool
  /-- J8: cage supply, TX_DISABLE. J9: the link. J10: cage supply, TX_DISABLE. -/
  sfpSupply : Bool
  sfpTxDisable : Bool
  uplink : Bool
  colSupply : Bool
  colTxDisable : Bool
  /-- J11: the outputs that are on, and the sensor supply. J12: the closed pulse outputs. -/
  outputs : List Bool
  sns24 : Bool
  pulses : List Bool
  /-- J13: SPI_MISO and TDO (none at high impedance), and IRQ_N driven low. -/
  miso : Option Word
  tdo : Bool
  irqLow : Bool
  /-- J14: the charger's current code. -/
  charge : Nat
deriving DecidableEq, Repr

/-- The I/O domains are released (R69: in reset until then). -/
abbrev State.outOfReset (s : State) : Bool := s.power.powered && s.sys.released

/-- A switch of a bus page's CTL, off in reset and while its terminal is shed. -/
def State.lineSwitch (s : State) (ch b : Nat) : Bool := s.outOfReset && !(s.busCh ch).shed && s.regBit (busPage ch) 0x040 b

/-- What each terminal shows (Tables ELE-19, SYS-5). -/
def State.pins (s : State) : Pins :=
  let dali : List Nat := [6, 7, 8, 9]
  let can : List Nat := [0, 1, 2, 3, 4, 5]
  let rs : List Nat := [10, 11, 12, 13]
  { frontEnd := s.power.powered,
    senseSupply := s.allLinks.map fun k => s.outOfReset && s.regBit pgSNS (lnk k 0x084) 8,
    senseLvds := s.allLinks.map fun k => s.outOfReset && decide (lkPower ≤ s.linkState k) && decide (s.linkState k ≤ lkGap),
    daliSupply := dali.map fun ch => if s.daliSupplyOn ch then s.regFld (busPage ch) 0x044 0 7 else 0,
    daliSend := dali.map s.busSends,
    canTerm := can.map fun ch => s.lineSwitch ch 4,
    canSend := can.map s.busSends,
    rsTerm := rs.map fun ch => s.lineSwitch ch 4,
    rsBias := rs.map fun ch => s.lineSwitch ch 5,
    rsSend := rs.map fun ch => s.busSends ch && bit (s.rsbStat ch) 0,
    t1sSend := [0, 1].map s.t1sSends,
    sfpSupply := s.power.powered,
    sfpTxDisable := !(s.outOfReset && s.net.accepted),
    uplink := s.outOfReset && s.regBit (pgUPL 1) 0x044 0,
    colSupply := s.power.powered,
    colTxDisable := !(s.outOfReset && s.pair.accepted),
    outputs := (List.range 8).map s.doOn,
    sns24 := s.outOfReset && s.regBit pgDIO 0x074 1,
    pulses := (List.range 8).map fun n => bit (s.plsStat n) 0,
    miso := s.misoPin,
    tdo := s.tapRuns,
    irqLow := s.pinLow,
    charge := if s.outOfReset then s.regFld pgRTC 0x06C 0 5 else 0 }

/-! ### What a field bus carries -/

/-- The next length with a DLC code (R354). -/
def dlcLength (n : Nat) : Nat :=
  if n ≤ 8 then n else if n ≤ 24 then ceilDiv n 4 * 4 else if n ≤ 32 then 32 else if n ≤ 48 then 48 else 64

/-- The CAN frame of an image: an FD payload without a DLC code is padded with 0x00 (R354). -/
def canFrameOf (img : List Byte) : BusFrame :=
  let id := word (imgWord img 0)
  let b := (img.drop 16).take (imgLen img)
  ⟨id, false, b ++ List.replicate (if bit id 30 then dlcLength b.length - b.length else 0) 0⟩

/-- The reference message (R369): bytes 1 to 4 hold PHT.CYCLE and bytes 5 and 6 PHT.EPOCH, lowest byte first. -/
def State.refFrame (s : State) (ch occ : Nat) (skipped : Bool) (stamp : Nat) : BusFrame :=
  let c := s.reg (busPage ch) 0x060
  let id := setBit (setBit (word (s.regFld (busPage ch) 0x064 0 29)) 29 (bit c 4)) 30 (bit c 5)
  ⟨id, false, leBytes 1 (occ % 64) ++ leBytes 4 stamp ++ leBytes 2 (stamp / turn) ++ [if skipped then 1 else 0]⟩

/-- The frame that a CAN channel offers to its bus or sends. -/
def State.canWire (s : State) (ch : Nat) : Option BusFrame :=
  match (s.busCh ch).flight with
  | some (.ref occ _ skipped stamp) => some (s.refFrame ch occ skipped stamp)
  | some (.frame _ img) => some (canFrameOf img)
  | some (.msg _ m _) => some (canFrameOf m.bytes)
  | _ => none

/-- The forward frame of a DALI channel: its length in bits, its bits and its priority, where values outside 1 to 5 act as 5 (Table BUS-2). -/
def State.daliWire (s : State) (ch : Nat) : Option (Nat × Nat × Nat) :=
  let of := fun (img : List Byte) =>
    let p := imgWord img 0 / 256 % 8
    (8 * imgLen img, ofLeBytes ((img.drop 16).take (imgLen img)), if 1 ≤ p ∧ p ≤ 5 then p else 5)
  match (s.busCh ch).flight with
  | some (.frame _ img) => some (of img)
  | some (.msg _ m _) => some (of m.bytes)
  | _ => none

/-- A packet of OSDP v2.2 outside a secure channel (R375): mark byte, SOM, address, length, control byte with the sequence number and
the CRC flag, the command, and the CRC-16, lowest byte first (log entry 59). -/
def osdpPacket (addr seq : Nat) (cmd : List Byte) : List Byte :=
  let p := [(0x53 : Byte)] ++ leBytes 1 addr ++ leBytes 2 (cmd.length + 7) ++ leBytes 1 (seq + 4) ++ cmd
  [0xFF] ++ p ++ leBytes 2 (crcOf 16 0x1021 0x1D0F p)

/-- The bytes that an RS-485 port sends; none of a packet under a secure channel, whose keys stay inside the port (R376). -/
def State.rsWire (s : State) (ch : Nat) : Option (List Byte) :=
  let b := s.busCh ch
  let packet := fun (addr : Nat) (cmd : List Byte) =>
    if b.target.isSome || ((s.entryOf ch addr).map fun e => bit (s.pollWord ch e 3) 1) = some true then none
    else some (osdpPacket addr (s.osdpSeqOf ch addr) cmd)
  match b.flight with
  | some (.poll e) => packet (fld (s.pollWord ch e 0) 0 7) [0x60]
  | some (.msg _ m _) =>
    let body := (m.bytes.drop 16).take (imgLen m.bytes)
    if s.busMode ch = 2 then packet (imgWord m.bytes 0 % 128) body else some body
  | _ => none

end Sys2Proof.Machine
end

