-- ==== Sys2Proof/WellFormed.lean ====
section
/-! DEFINITION. Which commands are well formed: lanes, sessions and entries named by numbers that exist on the larger
variant, and facts of the length that their rule gives. A command that is not well formed names nothing of the block. -/

namespace Sys2Proof

/-- A path that exists: a tunnel session has a number from 1 to 511 (R145, Table LCK-3), a lane from 0 to 7. -/
def pathWf : Path → Bool
  | .supervisor => true
  | .tunnel s => decide (1 ≤ s ∧ s ≤ 511)
  | .mirror => true
  | .spi => true
  | .lane n => decide (n < 8)

/-- A scan lane that exists on the MF8192-A (Table DOC-2). -/
def laneWf (l : Nat) : Bool := decide (l < 8)

/-- An anchor generator that exists (Table ARCH-3). -/
def anchorWf : Anchor → Bool
  | .loopGroup g => decide (g < 16)
  | .meterSample => true
  | .halfCycle => true
  | .turnHalf => true
  | .classRef c => decide (c < 8)
  | .daliSlot ch => decide (ch < 4)
  | .osdpSlot port => decide (port < 4)

/-- The well-formed commands. -/
def Instr.wf : Instr → Bool
  | .mainsApplied _ => true
  | .systemReset cause _ => decide (4 ≤ cause ∧ cause ≤ 7)
  | .vStartReached => true
  | .railOutOfTolerance _ => true
  | .clockFailure => true
  | .clockRecovered _ => true
  | .powerFailDecision _ _ _ _ => true
  | .shedStage stage => decide (1 ≤ stage ∧ stage ≤ 3)
  | .vSaveReached => true
  | .saveComplete _ _ => true
  | .vMinReached => true
  | .holdupCapMeasure _ => true
  | .frontEndOvertemp _ => true
  | .daliSupplySetting p ch _ => pathWf p && decide (ch < 4)
  | .zeroCrossingEvaluation _ _ _ _ => true
  | .crossingMiss => true
  | .holdLong => true
  | .seekLong => true
  | .turnBoundary => true
  | .anchorOccurrence g => anchorWf g
  | .annCycleWrite p _ => pathWf p
  | .registerWrite p _ _ => pathWf p
  | .readClear p _ => pathWf p
  | .loReadLatch p _ => pathWf p
  | .hiWriteApply p _ _ => pathWf p
  | .indirectAccess p page _ _ _ => pathWf p && decide (page < 1024)
  | .indirectComplete page => decide (page < 1024)
  | .indirectTimeout page => decide (page < 1024)
  | .shadowCommit p page => pathWf p && decide (page < 1024)
  | .shadowDiscard p page => pathWf p && decide (page < 1024)
  | .snap p page => pathWf p && decide (page < 1024)
  | .fenceWrite p => pathWf p
  | .spiWrite _ _ => true
  | .spiRead _ => true
  | .spiFetch => true
  | .spiStatus => true
  | .spiBadFrame => true
  | .spiAccessComplete => true
  | .pointWindowWrite p j _ _ => pathWf p && decide (j < 8192)
  | .ptTunWrite p pt _ => pathWf p && decide (pt < 8192)
  | .ptDefWrite p pt _ => pathWf p && decide (pt < 8192)
  | .ptForceWrite p pt _ => pathWf p && decide (pt < 8192)
  | .ctxDefWrite p c _ => pathWf p && decide (c < 512)
  | .ctxWinWrite p c _ => pathWf p && decide (c < 512)
  | .grantWrite p g _ => pathWf p && decide (g < 2048)
  | .crDefWrite p n _ => pathWf p && decide (n < 12288)
  | .entryLatchWrite p page _ ia _ => pathWf p && decide (page < 1024) && decide (ia < 16777216)
  | .hwmClr p page _ => pathWf p && decide (page < 1024)
  | .baseAnchor => true
  | .inputCommit => true
  | .programDispatch l => laneWf l
  | .eventTaskDispatch l => laneWf l
  | .outputCommit => true
  | .outputPhaseEnd => true
  | .evbWrite p e _ => pathWf p && decide (e < 64)
  | .laneHalt p l => pathWf p && laneWf l
  | .laneStep p l => pathWf p && laneWf l
  | .pathAcq p _ => pathWf p
  | .pathRel p _ => pathWf p
  | .lockQueueGrant n => decide (n < 256)
  | .lockTimeout l => laneWf l
  | .lockHoldExpiry n => decide (n < 256)
  | .lockCfgWrite p n _ => pathWf p && decide (n < 256)
  | .nop l _ => laneWf l
  | .add l _ => laneWf l
  | .sub l _ => laneWf l
  | .mul l _ => laneWf l
  | .mulhs l _ => laneWf l
  | .divs l _ => laneWf l
  | .divu l _ => laneWf l
  | .rems l _ => laneWf l
  | .remu l _ => laneWf l
  | .and l _ => laneWf l
  | .or l _ => laneWf l
  | .xor l _ => laneWf l
  | .shl l _ => laneWf l
  | .shr l _ => laneWf l
  | .sar l _ => laneWf l
  | .mins l _ => laneWf l
  | .maxs l _ => laneWf l
  | .addsat l _ => laneWf l
  | .subsat l _ => laneWf l
  | .ldi l _ => laneWf l
  | .ldhi l _ => laneWf l
  | .ceq l _ => laneWf l
  | .cne l _ => laneWf l
  | .clts l _ => laneWf l
  | .cles l _ => laneWf l
  | .cltu l _ => laneWf l
  | .cleu l _ => laneWf l
  | .fadd l _ => laneWf l
  | .fsub l _ => laneWf l
  | .fmul l _ => laneWf l
  | .fdiv l _ => laneWf l
  | .fmin l _ => laneWf l
  | .fmax l _ => laneWf l
  | .fsqrt l _ => laneWf l
  | .fabs l _ => laneWf l
  | .fneg l _ => laneWf l
  | .fceq l _ => laneWf l
  | .fclt l _ => laneWf l
  | .fcle l _ => laneWf l
  | .cvtif l _ => laneWf l
  | .cvtfi l _ => laneWf l
  | .cvtsd l _ => laneWf l
  | .cvtds l _ => laneWf l
  | .br l _ => laneWf l
  | .bz l _ => laneWf l
  | .bnz l _ => laneWf l
  | .loop l _ => laneWf l
  | .lexit l _ => laneWf l
  | .call l _ => laneWf l
  | .ret l _ => laneWf l
  | .endRun l _ => laneWf l
  | .ld l _ => laneWf l
  | .st l _ => laneWf l
  | .sts l _ => laneWf l
  | .stc l _ => laneWf l
  | .ldq l _ => laneWf l
  | .stq l _ => laneWf l
  | .pld l _ => laneWf l
  | .pldx l _ => laneWf l
  | .pst l _ => laneWf l
  | .pstx l _ => laneWf l
  | .tmrTon l _ => laneWf l
  | .tmrTof l _ => laneWf l
  | .tmrTp l _ => laneWf l
  | .tmrTrd l _ => laneWf l
  | .tmrTrst l _ => laneWf l
  | .edgRise l _ => laneWf l
  | .edgFall l _ => laneWf l
  | .edgBoth l _ => laneWf l
  | .lockAcquire l _ => laneWf l
  | .lockRelease l _ => laneWf l
  | .fence l _ => laneWf l
  | .regr l _ => laneWf l
  | .regw l _ => laneWf l
  | .postedWriteEnd l => laneWf l
  | .msg l _ => laneWf l
  | .msgr l _ => laneWf l
  | .evt l _ => laneWf l
  | .cred l _ => laneWf l
  | .credLookup l => laneWf l
  | .nowCapture l _ => laneWf l
  | .nowTick l _ => laneWf l
  | .nowCycle l _ => laneWf l
  | .loadBufferWrite p ofs _ => pathWf p && decide (ofs < 0x7FF000)
  | .load p slot => pathWf p && decide (slot < 1024)
  | .change p slot _ => pathWf p && decide (slot < 1024)
  | .switch p slot => pathWf p && decide (slot < 1024)
  | .abort p slot => pathWf p && decide (slot < 1024)
  | .unload p slot => pathWf p && decide (slot < 1024)
  | .restart p slot => pathWf p && decide (slot < 1024)
  | .loaderCommandComplete => true
  | .switchFt => true
  | .loopSampleDone g => decide (g < 16)
  | .loopEnable p n => pathWf p && decide (n < 1088)
  | .loopDisable p n => pathWf p && decide (n < 1088)
  | .recover p n => pathWf p && decide (n < 1088)
  | .lpDefConfigure p n _ => pathWf p && decide (n < 1088)
  | .lpDefFree p n _ => pathWf p && decide (n < 1088)
  | .pidTuningWrite p n which _ => pathWf p && decide (n < 64) && decide (which < 5)
  | .sosCtlWrite p s _ => pathWf p && decide (s < 4096)
  | .outLimitWrite p n _ _ => pathWf p && decide (n < 1088)
  | .sampleProcessing codes => decide (codes.length = 16)
  | .pulseEmit n => decide (n < 8)
  | .pulseOff n => decide (n < 8)
  | .chDefWrite p c _ => pathWf p && decide (c < 52)
  | .chWrapClear p c _ => pathWf p && decide (c < 52)
  | .plsCtlWrite p n _ => pathWf p && decide (n < 8)
  | .plsSrcWrite p n _ _ => pathWf p && decide (n < 8)
  | .headDetected k => decide (k < 3)
  | .linkTrained k rounds => decide (k < 3) && decide (rounds.length = 8)
  | .linkTimeLimit k => decide (k < 3)
  | .upFrame k fr => decide (k < 3) && decide (fr.samples.length = 12)
  | .senseSupplyTrip k => decide (k < 3)
  | .senseLinkRetry k => decide (k < 3)
  | .canFrameValidated ch fr => decide (ch < 6) && decide (fr.payload.length ≤ 64)
  | .rxQueueEntry ch k => decide (ch < 14) && decide (8 ≤ k ∧ k ≤ 15)
  | .takeForTransmission ch => decide (ch < 14)
  | .transmissionEnd ch _ => decide (ch < 14)
  | .canRecover p ch => pathWf p && decide (ch < 6)
  | .canRecovered ch => decide (ch < 6)
  | .daliBackwardFrame ch _ => decide (ch < 4)
  | .daliEventFrame ch _ => decide (ch < 4)
  | .daliCollision ch => decide (ch < 4)
  | .busFail ch => decide (ch < 4)
  | .busFailClear ch => decide (ch < 4)
  | .overvolt ch => decide (ch < 4)
  | .overvoltClear p ch => pathWf p && decide (ch < 4)
  | .uartMessageEnd port _ => decide (port < 4)
  | .osdpReply port addr _ => decide (port < 4) && decide (addr < 127)
  | .osdpReplyTimeout port => decide (port < 4)
  | .qcfgWrite p ch k _ => pathWf p && decide (ch < 14) && decide (k < 16)
  | .crdAllocWrite p c _ => pathWf p && decide (c < 512)
  | .mapDefWrite p ch m _ => pathWf p && decide (ch < 10) && decide (m < 512)
  | .fltActWrite p ch fl _ => pathWf p && decide (ch < 10) && decide (fl < 256)
  | .ofCfgWrite p ch o _ => pathWf p && decide (ch < 10) && decide (o < 64)
  | .pollDefWrite p port e _ => pathWf p && decide (port < 4) && decide (e < 16)
  | .bitTimingWrite p ch which _ => pathWf p && decide (ch < 6) && decide (which < 3)
  | .ethLinkChange port _ _ _ => decide (port < 4)
  | .portCtlWrite p port _ => pathWf p && decide (port < 2)
  | .sfpPresenceChange _ _ => true
  | .sfpCacheRefresh bytes => decide (bytes.length = 512)
  | .lpiEntry => true
  | .lldpEeeTlv _ => true
  | .t1sCollision port _ => decide (port < 2)
  | .plcaWrite p port _ _ => pathWf p && decide (port < 2)
  | .tunnelDatagram g => decide (g.via < 4)
  | .tunnelRequest => true
  | .reorderTimeout s => decide (1 ≤ s ∧ s ≤ 511)
  | .sessionIdle s => decide (1 ≤ s ∧ s ≤ 511)
  | .sesDefWrite p s _ => pathWf p && decide (1 ≤ s ∧ s ≤ 511)
  | .sesCtlClose p s => pathWf p && decide (1 ≤ s ∧ s ≤ 511)
  | .fabricRequest m beats _ => decide (m < 16) && decide (1 ≤ beats ∧ beats ≤ 8)
  | .pathGrant => true
  | .starvation m => decide (m < 16)
  | .sidebandAssert m _ => decide (m < 16)
  | .bankPwrWrite p which _ => pathWf p && decide (which < 2)
  | .bankStateReached b => decide (b < 32)
  | .scrub _ => true
  | .btRegionStart => true
  | .btRegionEnd _ => true
  | .swset p _ => pathWf p
  | .take p _ => pathWf p
  | .done p _ => pathWf p
  | .routeWrite p n _ => pathWf p && decide (n < 128)
  | .enEffect => true
  | .secondRollover => true
  | .timeRegisterWrite p ofs _ => pathWf p && decide (0x044 ≤ ofs ∧ ofs ≤ 0x060)
  | .rtcCommitInstant => true
  | .timeRead p ofs => pathWf p && decide (0x040 ≤ ofs ∧ ofs < 0x060)
  | .centRead p => pathWf p
  | .alarmCtlWrite p a _ => pathWf p && decide (a < 2)
  | .backupSupplyLost => true
  | .tempCompensation _ => true
  | .vbakLow _ => true
  | .recordWritten => true
  | .hourlyMark => true
  | .cairnFreeze p _ => pathWf p
  | .cairnUnfreeze p _ => pathWf p
  | .freezeMaxExpiry => true
  | .cairnRelease p _ => pathWf p
  | .quotaWrite p c _ => pathWf p && decide (c < 512)
  | .lcAdv p _ => pathWf p
  | .lifecycleTransitionEnd _ => true
  | .submit p => pathWf p
  | .keyUpdateComplete _ => true
  | .attest p => pathWf p
  | .plainKeyGo p _ => pathWf p
  | .fuseBlow p ofs _ => pathWf p && decide (0x040 ≤ ofs ∧ ofs ≤ 0x060)
  | .fuseBlowComplete => true
  | .claim p => pathWf p
  | .release p => pathWf p
  | .updBegin p => pathWf p
  | .manifestChunk p i _ => pathWf p && decide (i < 8192)
  | .chunk p i _ => pathWf p && decide (i < 8192)
  | .imageDigestCheck _ _ => true
  | .install p => pathWf p
  | .updAbort p => pathWf p
  | .confirm p => pathWf p
  | .revert p => pathWf p
  | .bufferOwnerTimeout => true
  | .healthLeftTick => true
  | .trialConfirmation => true
  | .colLinkTrained rounds => decide (rounds.length = 8)
  | .colLinkDown => true
  | .health _ => true
  | .time _ => true
  | .copyStart => true
  | .copyData _ _ _ => true
  | .copyEnd _ _ _ => true
  | .copyAck _ _ => true
  | .copyAckTimeout => true
  | .logApplyComplete => true
  | .mirrorReq _ _ _ _ => true
  | .mirrorRsp _ _ _ => true
  | .archiveList _ => true
  | .archiveData _ _ _ _ => true
  | .echo => true
  | .colFrameError => true
  | .mirRead p => pathWf p
  | .mirWrite p => pathWf p
  | .mirrorTimeout => true
  | .heartbeatDecision => true
  | .peerLost => true
  | .joinWaitExpiry => true
  | .faultDelayExpiry _ => true
  | .sysRestart p _ => pathWf p
  | .supervisorWatchdogExpiry _ => true
  | .diEdge n _ _ => decide (n < 16)
  | .diStampRead p n => pathWf p && decide (n < 16)
  | .diMapWrite p n _ => pathWf p && decide (n < 16)
  | .doMapWrite p m _ => pathWf p && decide (m < 8)
  | .doTrip m => decide (m < 8)
  | .doFaultClear p _ => pathWf p
  | .openLoad m => decide (m < 8)
  | .mainsGoodInDown _ => true
  | .vReadyCrossing _ => true
  | .railRecovered _ => true
  | .dioSupplyChange _ _ _ => true
  | .cablePresenceChange metres _ _ => decide (metres ≤ 3)
  | .daliSupplyCutoff ch => decide (ch < 4)
  | .headIdleSymbols k => decide (k < 3)
  | .canIntegrated ch => decide (ch < 6)
  | .canBusError ch _ _ => decide (ch < 6)
  | .plcaStatusChange port _ => decide (port < 2)
  | .ethFrameReceived port _ _ => decide (port < 4)
  | .handoverTimeout => true
  | .gratuitousArpRepeat => true
  | .updCommandComplete => true
  | .attestComplete _ => true
  | .supervisorConsistencyFault => true

end Sys2Proof
end

