-- ==== Sys2Proof/Tests/Slice0.lean ====
section
/-! SUPPORT. Tests of the model. An ill-formed term for each check of WellFormed; for each statement of Certificates/Slice0 whose clauses have
hypotheses, a theorem `wit_<Name>` that names states and operands that meet them, clause by clause; and a few results worked out by hand from
the spec. -/

namespace Sys2Proof.Tests

-- One theorem at a time: side by side their checks take a thread each.
set_option Elab.async false

open Sys2Proof.Machine Sys2Proof.Config

/-! ### Small states -/

/-- The module after reset with register words set, by page and offset, and by indirect address. -/
def r0 : State := State.reset
def withRegs (l : List (Nat × Nat × Word)) (s : State) : State := l.foldl (fun s e => s.setReg e.1 e.2.1 e.2.2) s
def withInds (l : List (Nat × Nat × Word)) (s : State) : State := l.foldl (fun s e => s.setInd e.1 e.2.1 e.2.2) s

/-- Lane 0 as given, and lane registers. -/
def onLane (ln : Lane) (s : State := r0) : State := s.setLane 0 ln
def gs (l : List (Nat × Dword)) : Tbl Dword := l.foldl (fun t e => Tbl.set (fun _ => 0) t e.1 e.2) []

/-- Fields of an instruction word. -/
def fl (d a b : Nat) (imm : Nat := 0) (i : Bool := false) (x : Nat := 0) : Fields :=
  ⟨BitVec.ofNat 5 d, BitVec.ofNat 5 a, BitVec.ofNat 5 b, i, BitVec.ofNat 8 x, BitVec.ofNat 32 imm⟩

/-! ### Witnesses: the block as a whole, scan instructions -/

theorem wit_IdleStepIsOneFt :
    r0.pending = [] ∧ r0.ridge.locked = false ∧ r0.fabric.struck = [] ∧
    r0.crd crFree + r0.crd crQuota + r0.crd crQueued + r0.crd crFlight = creditTotal r0.small ∧ ({ r0 with ridge := { locked := true } } : State).pending = [] := by decide

theorem wit_steps : ∃ t, step r0 = .next t := ⟨_, rfl⟩

theorem wit_KilledServicePortStaysShut : ({ r0 with fuse := { blown := [(0x040, 1), (0x04C, 2)] } } : State).portKilled := by
  unfold State.portKilled; decide

def twoG (x y : Dword) : State := onLane { g := gs [(1, x), (2, y)] }

theorem wit_DivisionResults :
    r0.executes 0 ∧ (twoG 7 3).executes 0 ∧ ((twoG 7 3).lane 0).opB (fl 3 1 2) ≠ 0 ∧
    ((twoG 0x8000000000000000 (-1)).lane 0).getG 1 = 0x8000000000000000 ∧
    ((twoG 0x8000000000000000 (-1)).lane 0).opB (fl 3 1 2) = -1 ∧ ((twoG 7 0).lane 0).opB (fl 3 1 2) = 0 := by
  unfold State.executes; decide

theorem wit_FloatResults :
    let nan : Dword := 0x7FF0000000000001
    let a := fun (s : State) => (s.lane 0).getG 1
    let b := fun (s : State) => (s.lane 0).opB (fl 3 1 2)
    let isNan := fun (x : Dword) => 0x7FF0000000000000 < x.toNat % 2 ^ 63
    isNan (a (twoG nan nan)) ∧ isNan (b (twoG nan nan)) ∧ ¬ isNan (a (twoG 1 nan)) ∧ isNan (b (twoG 1 nan)) ∧
    isNan (a (twoG nan 1)) ∧ ¬ isNan (b (twoG nan 1)) ∧ a (twoG 0x8000000000000000 0) = 0x8000000000000000 ∧
    b (twoG 0x8000000000000000 0) = 0 ∧ a (twoG 0 0x8000000000000000) = 0 ∧
    0x43E0000000000000 ≤ (a (twoG 0x43E0000000000000 0)).toNat ∧ (a (twoG 0x7FF0000000000000 0)).toNat ≤ 0x7FF0000000000000 ∧
    0xC3E0000000000000 ≤ (a (twoG 0xC3E0000000000000 0)).toNat ∧ (a (twoG 0xFFF0000000000000 0)).toNat ≤ 0xFFF0000000000000 := by
  decide

def inLoop (k : Nat) : Lane :=
  { g := gs [(1, 5)], running := true, slot := 1, evb := some 63, frames := [⟨16, []⟩], loops := [⟨8, 24, k, 3, 4⟩], pc := 16 }

theorem wit_FlowOfControl :
    (onLane (inLoop 0)).executes 0 ∧ (inLoop 0).getG 2 = 0 ∧ (inLoop 0).getG 1 ≠ 0 ∧
    ((fl 4 0 0 0).imm.toNat % 8192 = 0) ∧ ((fl 4 0 0 8191).imm.toNat % 8192 ≠ 0) ∧ 1 + 1 < 3 ∧ ¬ 2 + 1 < 3 ∧
    (inLoop 1).loops = [⟨8, 24, 1, 3, 4⟩] ∧ (inLoop 2).frames = [⟨16, []⟩] := by
  unfold State.executes; decide

theorem wit_TimerResults :
    (twoG 1 5).executes 0 ∧ decide (((twoG 1 5).lane 0).getG 1 ≠ 0) = true ∧ decide (((twoG 1 5).lane 0).getG 3 ≠ 0) = false ∧
    (let s := { twoG 1 5 with slots := [(0, { timers := [(3, { run := true, q := true }), (4, { q := true })] })] }
     (s.timer 0 3).run = true ∧ (s.timer 0 4).run = false ∧ (s.timer 0 4).q = true ∧ (s.timer 0 5).run = false ∧
     (s.timer 0 5).q = false) := by
  unfold State.executes; decide

/-- A program of context 0 with one data section of 64 bytes, and a lane that runs it in slot 0. -/
def tiny : Prog :=
  ⟨0, 0, 0, false, false, 100, 0, 1, [⟨64, false, none⟩], [], [], 1, [0], 10, 256, [], [], 0, []⟩
def inSlot (g : List (Nat × Dword)) (s : State := r0) : State :=
  onLane { g := gs g, running := true } { s with slots := [(0, { state := 3, prog := some tiny, sects := [0] })] }

theorem wit_DataInstructions :
    (inSlot []).executes 0 ∧ (inSlot []).section 0 0 = some (0, 64) ∧ (inSlot []).bankStat (bankOf 56) = 0 ∧
    (inSlot []).bankStat (bankOf 32) = 0 ∧ 56 + 8 ≤ 64 ∧ 32 + 32 ≤ 64 ∧ (inSlot []).fabric.poison = [] ∧
    (inSlot []).struckBits (.sram 1) = 0 := by
  unfold State.executes; decide

/-- Point 8,191 is TUNNEL-free, of type BOOL and of context 0. -/
def pt8191 : State := withInds [(pgPTM, 32 * 8191, 1)] (inSlot [])

theorem wit_PointInstructions :
    pt8191.executes 0 ∧ pt8191.past.resolve 0 8191 = some (8191, false) ∧ pt8191.past.resolveOwn 0 8191 = some 8191 ∧
    pt8191.struckBits (.held 0) = 0 ∧
    (0 : Nat) < (fl 1 2 3 0x10000).imm.toNat / 65536 % 16384 := by
  unfold State.executes; decide

def ofCtx1 : State := { inSlot [] with slots := [(0, { state := 3, prog := some { tiny with ctx := 1 }, sects := [0] })] }

def struck (l : List (EccWord × Nat)) (s : State := r0) : State := { s with fabric := { s.fabric with struck := l } }

theorem wit_RunTimeFaultsOfAccesses :
    (inSlot []).laneReady 0 = true ∧ (inSlot []).closed ≠ some 0 ∧ (inSlot []).cleanFetch 0 = true ∧
    ((inSlot []).lane 0).running = true ∧ 3 ≤ (struck [(.code 0, 3)] (inSlot [])).struckBits (.code 0) ∧
    (struck [(.held 0, 3)] (inSlot [])).cleanFetch 0 = true ∧ (inSlot []).struckBits (.held 0) = 0 ∧
    Tbl.get (fun _ => false) ({ inSlot [] with fabric := { poison := [(0, true)] } } : State).fabric.poison 0 = true ∧ (inSlot [(1, 57)]).section 0 0 = some (0, 64) ∧ 64 < 64 / 8 * 8 + 8 ∧ 64 < 64 / 32 * 32 + 32 ∧
    (fl 1 2 3 0x10000).imm.toNat / 65536 % 16384 ≤ (((inSlot [(2, 1)]).lane 0).getG 2).toNat ∧ ofCtx1.laneReady 0 = true ∧
    ofCtx1.past.resolve 1 0 = none ∧ ofCtx1.past.resolveOwn 1 0 = none := by decide

def lk (k : LockSt) : State := { inSlot [] with locks := [(5, k)] }

theorem wit_LockInstructions :
    (lk {}).executes 0 ∧ 255 < lockLimit false ∧ ofCtx1.lockCtx 5 = 0 ∧ (inSlot []).slotCtx 0 = 0 ∧
    (lk { state := lkHeld, kind := 1, holder := 0 }).breaksOrder 1 0 5 = true ∧ (lk {}).breaksOrder 1 0 5 = false ∧
    (lk {}).lockTaken 5 = false ∧ (lk { state := lkBroken }).lockTaken 5 = false ∧
    (lk { state := lkHeld, kind := 1, holder := 9 }).breaksOrder 1 0 5 = false ∧
    (lk { state := lkHeld, kind := 1, holder := 9 }).lockTaken 5 = true ∧
    (lk { state := lkHeld, kind := 1, holder := 0 }).lock 5 = { state := lkHeld, kind := 1, holder := 0 } ∧ (lk {}).overdue = [] ∧
    (let s := lk { state := lkHeld, kind := 1, holder := 0 }
     ({ s with tick := 250000000 } : State).overdue = [5]) := by
  unfold State.executes; decide

def posting (n : Nat) (a : Word) : State := onLane { posts := List.replicate n ⟨0, 0, 0, a, 0⟩ }

theorem wit_RegisterInstructions :
    (posting 3 0).executes 0 ∧ ((posting 3 0).lane 0).posts.length < 4 ∧ 4 ≤ ((posting 4 0).lane 0).posts.length ∧
    r0.pathPending (.lane 0) = false ∧ (posting 1 0).pathPending (.lane 0) = true ∧ (r0.lane 0).postedTo (progTarget 0x4048) = false ∧
    (r0.lane 0).fencePosted = false ∧ r0.portBusy 1 = false ∧ slowTarget (progTarget 0x4048) = none ∧
    r0.presents (.lane 0) (progTarget 0x4048) false = true ∧ r0.presents (.lane 0) (progTarget 0x4048) true = true ∧
    isFence (progTarget 0x4048) = false ∧
    ((r0.readAt (.lane 0) (progTarget 0x4048)).answered (.lane 0)).status ≠ stDenied ∧
    ((r0.writeAt (.lane 0) (progTarget 0x4048) 1).answered (.lane 0)).status ≠ stDenied ∧
    slowTarget (progTarget (word (pgFUS * 0x4000 + 0x024))) = some (pgFUS, .plain) ∧
    r0.gate (.lane 0) pgFUS false (ownedReg pgFUS 0x024 false) = some stOk ∧
    0x01000000 ≤ (0x01000000 : Word).toNat ∧ r0.pathLive (.lane 0) = true ∧ r0.portBusy 0x16 = false ∧ r0.early ∧ r0.fences = [] ∧
    r0.alive = true ∧ (r0.lane 0).posts = [] ∧ ((posting 1 0x01000000).lane 0).posts = [⟨0, 0, 0, 0x01000000, 0⟩] ∧
    ((posting 1 0x01000000).lane 0).posting = false := by
  unfold State.executes State.early; decide

/-- Transmit queue 0 and receive queue 8 of CAN0, enabled for context 0 with a depth of `d` credits, and CAN0 in MODE `m` and ERROR_ACTIVE. -/
def queues (d m : Nat) (s : State) : State :=
  withRegs [(0x18, 0x200, word (0x8000 + 65536 * d)), (0x18, 0x220, word (0x8000 + 65536 * d)), (0x18, 0x040, word m)] s

theorem wit_EventsLookupsTimeAndMessages :
    r0.executes 0 ∧ (inSlot [(2, 64)]).section 0 0 = some (0, 64) ∧ 0 + 32 * ceilDiv 64 32 ≤ 64 ∧
    (queues 1 1 r0).granted 0 0 true = true ∧ r0.granted 0 0 true = false ∧ (queues 1 0 r0).busDown 0 = true ∧
    (queues 1 1 r0).busDown 0 = false ∧ fld ((queues 0 1 r0).qcfg 0 0) 16 8 < creditsOf ((queues 0 1 r0).busQueue 0 0) + 1 ∧
    (queues 1 1 r0).granted 8 0 false = true ∧ r0.granted 8 0 false = false ∧ (queues 1 1 r0).busQueue 0 8 = [] ∧
    r0.crdAvail 0 < 4096 ∧ creditsOf ((queues 1 1 r0).busQueue 0 0) + 1 ≤ fld ((queues 1 1 r0).qcfg 0 0) 16 8 := by
  unfold State.executes; decide

def oneMessage : State :=
  (withInds [(0x18, 0x100004, 1)] (withRegs [(0x18, crFree, 4094), (0x18, crQuota, 1), (0x18, crQueued, 1)]
    (queues 1 1 (inSlot [(2, 64)])))).setBus 0 { queue := [(8, [⟨0, 1, [7]⟩])] }

theorem wit_MessagesMove :
    oneMessage.executes 0 ∧ oneMessage.section 0 0 = some (0, 64) ∧ oneMessage.fabric.poison = [] ∧ oneMessage.fabric.struck = [] ∧
    oneMessage.crd crFree + oneMessage.crd crQuota + oneMessage.crd crQueued + oneMessage.crd crFlight = creditTotal false ∧
    oneMessage.granted 0 0 true = true ∧ oneMessage.busDown 0 = false ∧ 1 ≤ oneMessage.crdAvail 0 ∧ 1 ≤ oneMessage.crd crQuota ∧
    oneMessage.granted 8 0 false = true ∧ oneMessage.busQueue 0 8 = [⟨0, 1, [7]⟩] ∧ 1 ≤ oneMessage.crd crQueued ∧
    creditsOf (oneMessage.busQueue 0 0) + 1 ≤ fld (oneMessage.qcfg 0 0) 16 8 ∧ ∀ b, b < 32 → oneMessage.bankStat b = 0 := by
  unfold State.executes; decide

/-! ### Witnesses: paths, registers, pages -/

def unpowered : State := { r0 with power := { powered := false } }
def busyPage (pg : Nat) (op : IndOp) (s : State := r0) : State := s.setBusy pg (some op)
/-- Fuses as read: blown bits, and FUSE_VARIANT at 0x048. -/
def fuses (l : List (Nat × Word)) (s : State := r0) : State :=
  { s with fuse := { blown := l.filter (·.1 ≠ 0x048) }, variant := ((l.find? (·.1 = 0x048)).map (·.2)).getD s.variant }

theorem wit_PagePortAnswers :
    unpowered.pathLive .supervisor = false ∧ r0.closed ≠ some r0.tick ∧ (busyPage 52 ⟨.supervisor, .plain, false, 0, 0, .told⟩).portBusy 52 = true ∧
    (busyPage 52 ⟨.supervisor, .plain, false, 0, 0, .told⟩).pathLive .supervisor = true ∧
    ({ r0 with fences := [.supervisor] } : State).pathLive .supervisor = false ∧ (Tbl.get (fun _ => none) (busyPage 52 ⟨.supervisor, .plain, false, 0, 0, .told⟩).busy 52 : Option IndOp) ≠ none ∧
    r0.pathLive .spi = true ∧ r0.portBusy 0 = false ∧ r0.spiEnabled = true ∧
    r0.present 53 = false ∧ r0.present 1023 = false ∧ r0.present 52 = true ∧ (fuses [(0x048, 1)]).present pgSNS = false ∧
    (fuses [(0x058, 4)]).fuseAllows (.lane 0) .control true = false ∧ (fuses [(0x054, 0x20000)]).fuseAllows .spi .secure false = false ∧
    ofCtx1.ctxOf (.lane 0) = 1 ∧ ofCtx1.present pgSYS = true ∧ ownedReg pgSYS 0x048 true = false ∧ ownedReg pgSYS 0x048 false = false ∧
    ¬ (pageIndirect pgSYS ∧ 0x048 = 0x024) ∧ ¬ (pgSYS = pgSYS ∧ 0x048 = 0x050) := by decide

theorem wit_HeaderWrites :
    r0.gate .supervisor 0 true false = some stOk ∧ r0.gate .supervisor 52 true false = some stOk ∧ bit (2 : Word) 0 = false ∧
    r0.early ∧ 0 ∉ r0.intc.fell ∧ r0.intc.rise = [] ∧ Alias.plain ≠ Alias.clear ∧ r0.reg 1 0x010 &&& r0.reg 1 0x014 = 0 ∧
    (withRegs [(1, 0x010, 1)] r0).reg 1 0x010 &&& ((aliasValue .plain 0 1 &&& word (irqMask 1)) ||| 0) ≠ 0 := by
  unfold State.early; decide

theorem wit_ReadsClearAndLatch :
    r0.early ∧ r0.gate .supervisor pgPTM false false = some stOk ∧ r0.gate (.tunnel 511) pgPHT false false = some stOk := by
  unfold State.early; decide

theorem wit_IndirectAccesses :
    let op : IndOp := ⟨.supervisor, .plain, false, 0, 0, .told⟩
    let r : PortReq := ⟨.spi, false, word (pgFUS * 0x4000 + 0x024), 0, none, .told⟩
    let s := busyPage pgFUS op
    r0.early ∧ r0.gate .supervisor pgFUS true false = some stOk ∧ (Tbl.get (fun _ => none) s.busy pgFUS : Option IndOp) = some op ∧
    s.tick ≤ 0 + 8000 ∧ s.waiting = [] ∧ s.fences = [] ∧
    (let u := r0.setBank (pathIdx .supervisor) (dkey pgFUS 0x020) 0x80000058
     u.indAt .supervisor pgFUS = 0x058 ∧ bit (u.indAddr .supervisor pgFUS) 31 = true) ∧
    (let u := r0.setBank (pathIdx .supervisor) (dkey pgFUS 0x020) 0x40
     u.indAt .supervisor pgFUS = 0x040 ∧ bit (u.indAddr .supervisor pgFUS) 31 = false) ∧
    ({ s with waiting := [r] } : State).waiting = [r] ∧ r.ia = none ∧ slowTarget r.target = some (pgFUS, .plain) ∧
    (({ s with waiting := [r] } : State).setBusy pgFUS none).gate r.path pgFUS r.write false = some stOk ∧
    r0.gate .supervisor pgPTM false true = some stOk ∧ r0.ctxOf .supervisor = 0 ∧ r0.indAt .supervisor pgPTM = 32 * 0 := by
  unfold State.early; decide

theorem wit_ShadowsAndSnapshots :
    r0.early ∧ r0.gate .supervisor 0x20 true false = some stOk ∧ r0.gate .supervisor 0x27 true false = some stOk ∧
    r0.gate .supervisor pgSCN true false = some stOk ∧ r0.gate .supervisor pgPTM true false = some stOk ∧
    (let s := (r0.setShadow pgSCN 0x060 0x102).setShadow pgSCN 0x068 0x103
     (s.applyShadows pgSCN (shadowOfs pgSCN)).classesOk = false ∧ s.gate .supervisor pgSCN true false = some stOk) := by
  unfold State.early; decide

theorem wit_FencesLatchesAndMarks :
    r0.early ∧ (posting 1 0).pathPending (.lane 0) = true ∧ (posting 1 0).pathLive (.lane 0) = true ∧ r0.pathPending .supervisor = false ∧
    r0.gate .supervisor pgSYS true true = some stOk ∧ 8191 < pointLimit r0.small ∧ r0.gate .supervisor pgPTM true true = some stOk ∧
    r0.mayForce 0 8191 = true ∧ r0.gate .supervisor pgKEY true false = some stOk := by
  unfold State.early; decide

def mirrored : State := withRegs [(pgPAR, 0x040, 5)] { r0 with pair := { up := true, accepted := true } }

theorem wit_MirrorRequests :
    unpowered.alive = false ∧ r0.mirrorOpen = false ∧ mirrored.alive = true ∧ mirrored.mirrorOpen = true ∧
    mirrorOwn (regAddr pgPAR .plain 0x0C0) = true ∧ mirrorOwn (regAddr pgPAR .plain 0x0D4) = false ∧
    targetOf (regAddr pgPAR .plain 0x0D4) = .page pgPAR .plain 0x0D4 := by decide

def spiHas (n : Nat) (wr : Bool) : State := { r0 with spi := { queue := List.replicate n ⟨wr, regAddr pgSYS .plain 0x048, 1⟩ } }

theorem wit_ServicePort :
    r0.alive = true ∧ r0.spiEnabled = true ∧ (spiHas 15 true).spi.queue.length < 16 ∧ 16 ≤ (spiHas 16 true).spi.queue.length ∧
    ({ rdDone := true } : Spi).rdDone = true ∧ r0.spi.rdDone = false ∧ (spiHas 1 false).spi.queue = [⟨false, 0x4048, 1⟩] ∧
    (spiHas 1 false).spi.going = false ∧
    (spiHas 1 false).early ∧ (spiHas 1 false).portBusy (targetPage (targetOf 0x4048)) = false ∧
    (spiHas 1 false).presents .spi (targetOf 0x4048) false = true ∧ (spiHas 1 true).presents .spi (targetOf 0x4048) true = true ∧
    slowTarget (targetOf 0x4048) = none ∧
    (let s := spiHas 1 false; (s.readAt .spi (targetOf 0x4048)).spi = s.spi) := by
  unfold State.early; decide

/-! ### Witnesses: interrupts, locks of paths, Cairn, power, starts and faults -/

/-- Source 127 PENDING and enabled, with ROUTE any. -/
def irq127 (pend active : Word) : State :=
  withRegs [(pgINT, 0x04C, pend), (pgINT, 0x05C, active)] { r0 with intc := { en := [(3, 0x80000000)] } }

theorem wit_InterruptSources :
    r0.mayWrite .supervisor pgINT ∧ r0.intc.took = [] ∧ r0.intc.rise = [] ∧
    ({ r0 with intc := { took := [(some 0, 95)] } } : State).intc.took = [(some 0, 80 + 15)] ∧ fld (127 : Word) 0 7 = 127 ∧ (irq127 0x80000000 0).consumes .supervisor 127 = true ∧
    (withRegs [(pgINT, routeOfs 127, 3)] r0).consumes .supervisor 127 = false ∧ (irq127 0x80000000 0).delivered 127 = true ∧
    r0.delivered 127 = false ∧ r0.srcActive 127 = false ∧ (irq127 0 0x80000000).srcActive 127 = true ∧
    ((withRegs [(pgSCN, 0x4FC, 0x80000000 + 127 * 4096)] r0).bindingOf 127 64).isSome = true ∧ r0.bindingOf 0 64 = none ∧
    fld (2 : Word) 0 2 = 2 ∧ fld (3 : Word) 0 2 ≠ 2 ∧ (irq127 0x80000000 0).srcPend 127 = true ∧
    (irq127 0x80000000 0).bindingOf 127 64 = none ∧
    ({ r0 with intc := { writes := [(3, 3, 5)] } } : State).intc.writes = [(3, 3, 5)] := by
  unfold State.mayWrite State.early; decide

def heldBy (n : Nat) (k : LockSt) : State := { r0 with locks := [(n, k)] }
def queuedOn (k : LockSt) (d : Option Nat) : State :=
  onLane { slot := 3, wait := some ⟨5, 7, d, 0⟩ } { r0 with locks := [(5, { k with queue := [0, 1] })] }

theorem wit_LocksOutsidePrograms :
    r0.mayWrite .supervisor pgLCK true ∧ r0.mayWrite .supervisor pgLCK ∧ r0.overdue = [] ∧
    lockLimit (fuses [(0x048, 1)]).small ≤ fld (64 : Word) 0 8 ∧ ofCtx1.ctxOf (.lane 0) ≠ 0 ∧ ofCtx1.lockCtx 255 ≠ ofCtx1.ctxOf (.lane 0) ∧
    (heldBy 255 { state := lkHeld, kind := 2 }).breaksOrder 2 (pathIdx .supervisor) 255 = true ∧
    (heldBy 255 { state := lkHeld, kind := 1 }).breaksOrder 2 (pathIdx .supervisor) 255 = false ∧
    (heldBy 255 { state := lkHeld, kind := 1 }).lockTaken 255 = true ∧ r0.lockTaken 255 = false ∧
    ((heldBy 0 { state := lkHeld, kind := 2 }).lock 0).holder = pathIdx .supervisor ∧
    ((queuedOn { freed := some 4 } none).lock 5).queue = [0, 1] ∧ ((queuedOn { freed := some 4 } none).lock 5).state ≠ lkHeld ∧
    ((queuedOn { freed := some 4 } none).lane 0).wait = some ⟨5, 7, none, 0⟩ ∧
    ((queuedOn { state := lkHeld } (some 9)).lane 0).wait = some ⟨5, 7, some 9, 0⟩ ∧
    ((queuedOn { state := lkHeld } (some 9)).lock 5).state = lkHeld ∧ 255 < lockLimit r0.small ∧ ¬ 255 < lockLimit (fuses [(0x048, 1)]).small ∧
    fld (0x00800000 : Word) 23 9 ≠ r0.lockCtx 5 ∧
    (let s := { r0 with slots := [(0, { state := 3, prog := some { tiny with code := [BitVec.ofNat 64 (0x70 * 2 ^ 56 + 5)], spans := [(5, 9)] } })] }
     (s.progs.any fun e => e.2.namesLock 5) = true ∧ (s.progs.any fun e => e.2.spans.any fun x => x.1 = 5 && decide (8 < x.2)) = true) := by
  unfold State.mayWrite State.early; decide

/-- A buffered MARK of 32 bytes. -/
def mark32 : CrnRec := ⟨2, 0, 0, 0, 0, List.replicate 16 0, 0, 0, 0⟩
def buffered (tail : Word) (frozen : Word) : State :=
  withRegs [(pgCRN, 0x050, tail), (pgCRN, 0x044, frozen)] { r0 with cairn := { buffer := [mark32] } }

theorem wit_CairnCommands :
    (buffered 0x1FFFE0 0).cairn.buffer = [mark32] ∧ (buffered 0x1FFFE0 0).crnFits mark32 = true ∧
    (buffered 0x1FFFE0 0).crnFrozen = false ∧ 0x1FFFE0 + mark32.bytes ≤ cairnBytes false ∧ (buffered 0 1).crnFrozen = true ∧
    r0.cairn.buffer.length < 256 ∧ 16352 + 32 ≤ reserveBytes ∧ r0.mayWrite .supervisor pgCRN ∧
    ({ r0 with cairn := { marked := true } } : State).cairn.marked = true ∧
    r0.crnBoundary 16 1 0 0 = false ∧ r0.crnBoundary 0 1 0 0 = true ∧
    (let s := withRegs [(pgCRN, 0x054, 32)] { r0 with cairn := { mram := [(0, 1)] } }
     s.crnBoundary 32 3 0 32 = true ∧ 32 = (0 + 16 * (fld (s.crnHead 0) 0 4 + 1)) % cairnBytes false) ∧
    r0.ctxState 511 = 0 ∧ (withInds [(pgPTM, 0x040000 + 16 * 511 + 4, 1)] r0).ctxState 511 ≠ 0 ∧
    cairnBytes false - 16384 < 256 * (0 - 0 + fld (8191 : Word) 0 13) ∧ 256 * 8128 ≤ cairnBytes false - 16384 ∧
    256 * fld (0 : Word) 0 13 < ((withInds [(pgCRN, 16 * 511 + 4, 48)] r0).ind pgCRN (16 * 511 + 4)).toNat ∧
    (r0.ind pgCRN (16 * 511 + 4)).toNat ≤ 256 * 0 := by
  unfold State.mayWrite State.early; decide

def pwr (st : Word) (s : State := r0) : State := withRegs [(pgPWR, 0x040, st)] s
def supply (p : Power) (s : State) : State := { s with power := p }

theorem wit_PowerCommands :
    (pwr 1).pwrState ≠ pwStart ∧ r0.pwrState = pwStart ∧ (pwr 2).pwrState = pwRide ∧
    unpowered.power.powered = false ∧ r0.power.powered = true ∧ r0.power.pf = false ∧ r0.saving = false ∧
    (supply { capDone := true } (pwr 1)).pwrState = pwNormal ∧ r0.power.capDone = false ∧
    (let s := supply { store := 10 ^ 18 } r0; (s.until (s.storeTick 5300)).storeOf 5300 ≤ (s.until (s.storeTick 5300)).storeNow) ∧
    (withRegs [(pgPWR, 0x048, 0)] (pwr 2)).regBit pgPWR 0x048 0 = false ∧
    (withRegs [(pgPWR, 0x048, 1)] (pwr 2)).regBit pgPWR 0x048 0 = true ∧ (pwr 2).regBit pgPWR 0x04C 2 = false ∧
    (withRegs [(pgPWR, 0x04C, 3)] (pwr 2)).regBit pgPWR 0x04C 1 = true ∧
    (supply { pf := true } (pwr 2)).power.pf = true ∧ (supply { pf := true } (pwr 2)).saving = false ∧
    (supply { pf := true } r0).pwrState ≠ pwRide ∧ (pwr 2).sys.fault = 0 ∧ r0.railsLow = false ∧
    (let s := withRegs [(pgPWR, 0x044, 0x155)] (pwr 1); (s.countValue 0).railsLow = true ∧ s.pwrState = pwNormal) ∧ 3050 < 3051 ∧
    r0.storeFeeds = false ∧ (supply { pf := true } r0).storeFeeds = true ∧ (supply { pf := true } r0).pwrState ≠ pwSave ∧
    r0.sysState ≠ ssSave := by decide

def mainsOn (s : State) : State := { s with power := { s.power with mainsGood := true } }

theorem wit_Starts :
    unpowered.power.powered = false ∧ unpowered.pwrState ≠ pwDown ∧ r0.power.powered = true ∧
    ({ r0 with sys := { released := true } } : State).sys.released = true ∧ r0.saving = false ∧ r0.sysState ≠ ssHalted ∧
    (withRegs [(pgSYS, 0x040, 5)] r0).sysState = ssHalted ∧
    (pwr 4).pwrState = pwDown ∧ r0.pwrState ≠ pwDown ∧ r0.alive = true ∧ unpowered.alive = false ∧
    ({ r0 with sys := { held := 2 } } : State).sys.held = 2 ∧ r0.sys.held ≠ 2 ∧ r0.sys.held ≠ 3 ∧
    (withRegs [(pgSYS, 0x040, 6)] { r0 with sys := { saveCause := 6 } }).saving = true ∧
    (withRegs [(pgSYS, 0x040, 6)] { r0 with sys := { saveCause := 6 } }).pwrState ≠ pwSave ∧ 4 ≤ 6 ∧
    (mainsOn (pwr 3)).pwrState = pwSave ∧ (mainsOn (pwr 3)).power.mainsGood = true ∧
    (let s := pwr 3 { r0 with sys := { draft := some ⟨1, 1, true, 1, 0, [], false, false, {}⟩ } }
     s.pwrState = pwSave ∧ s.power.mainsGood = false ∧ s.sys.fault = 0 ∧ s.sys.draft = some ⟨1, 1, true, 1, 0, [], false, false, {}⟩ ∧
     s.sys.restart = 0) := by decide

def faulted (info cfg : Word) : State :=
  withRegs [(pgSYS, 0x040, 4), (pgSYS, 0x058, info), (pgSYS, 0x054, cfg)] { r0 with sys := { fault := 7, faultSaved := true } }
def wishes (n : Nat) (b : Bool) : State := { r0 with pair := { wish := n, flagged := b } }

theorem wit_ModuleFaults :
    unpowered.alive = false ∧ r0.alive = true ∧ (4 : BitVec 3) ≠ 0 ∧
    (let s := faulted 0x1000 0x20200
     s.alive = true ∧ s.sys.fault ≠ 0 ∧ s.sysState = ssFault ∧ s.regBit pgSYS 0x054 0 = false ∧ s.faultSaveDue = false ∧
     s.pwrState ≠ pwSave ∧ s.regFld pgSYS 0x058 12 4 < s.regFld pgSYS 0x054 16 4) ∧
    (let s := faulted 0x2000 0x20200
     s.regFld pgSYS 0x054 16 4 ≤ s.regFld pgSYS 0x058 12 4 ∧ s.onTrial = false) ∧
    r0.mayWrite .supervisor pgSYS ∧ fld (0x52530001 : Word) 16 16 = 0x5253 ∧ fld (0x52530002 : Word) 0 2 = 2 ∧
    fld (0x52530003 : Word) 0 2 = 3 ∧ r0.faultSaveDue = false ∧ r0.saving = false ∧ r0.handsOver = false ∧
    (let s := withRegs [(pgPAR, 0x044, 17)] { r0 with sys := { released := true } }
     s.handsOver = true ∧ s.saving = false ∧ s.faultSaveDue = false) ∧
    (wishes 0 false).pair.wish = 0 ∧ (wishes 1 true).pair.flagged = true ∧ (wishes 1 false).pair.wish = 1 ∧
    (wishes 2 false).pair.wish = 2 ∧ (wishes 2 false).pair.flagged = false := by
  unfold State.mayWrite State.early; decide


/-! ### Witnesses: Ridgeline, the base cycle -/

/-- A passage through 0 V at a tick, 100 V in 16 ft, after a half-cycle whose negative peak was 300 V. -/
def pass (at_ : Nat) : Passage := ⟨at_ - 8, [-50000, 50000], 300⟩

/-- The tracker at 50 Hz in state `st`, with the next crossing predicted at ft 16,000,000 and the angle `acc` in 2^-32 units there. -/
def tracker (st : Word) (acc : Nat) : State :=
  { withRegs [(pgPHT, 0x040, st)] (r0.setReg64 pgPHT 0x060 2305843009214) with
    tick := 16000000
    ridge := { acc := acc, locked := true, tm := ⟨8000000, 1⟩, periods := [⟨8000000, 1⟩], pred := ⟨16000000, 1⟩, rm := 2305843009214,
               lastValid := some 8000000 } }
def seeking (q : List Nat) : State := { r0 with tick := 16000000, ridge := { qual := q } }

theorem wit_ZeroCrossings :
    let near := tracker 1 (2 ^ 64)
    let far := tracker 1 (2 ^ 64 + 2 ^ 62)
    let err := fun (s : State) => ((s.until 16000064).phaseErr ((s.until 16000064).tick - 16000000)).natAbs
    let inside := fun (s : State) (x : Nat) =>
      Frac.le (Frac.abs (Frac.sub (Frac.ofNat x) s.ridge.pred)) s.window &&
        periodLegal (Frac.sub (Frac.ofNat x) (Frac.sub s.ridge.pred s.ridge.tm))
    near.crossing ⟨15999992, [-50000, 50000], 0⟩ = none ∧ near.crossing (pass 16000000) = some 16000000 ∧
    near.crossing (pass 24000000) = some 24000000 ∧ near.tracking = true ∧ near.ridge.refAt.any (16000000 ≤ ·) = false ∧
    ({ near with ridge := { near.ridge with refAt := some 16000000 } } : State).ridge.refAt.any (16000000 ≤ ·) = true ∧
    inside near 16000000 = true ∧ inside near 24000000 = false ∧ near.phtState = stLock ∧ err near ≤ near.slewTh ∧
    far.crossing (pass 16000000) = some 16000000 ∧ far.slewTh < err far ∧ (tracker 3 (2 ^ 64)).phtState = stSlew ∧
    err (tracker 3 (2 ^ 64)) ≤ (tracker 3 (2 ^ 64)).lockTh ∧ r0.tracking = false ∧ r0.ridge.qual = [] ∧
    r0.crossing (pass 100) = some 100 ∧ 1 < r0.regFld pgPHT 0x07C 0 4 := by decide

theorem wit_ZeroCrossings_firstLock :
    let s := seeking ((List.range 8).map fun k => 64000000 - 8000000 * k)
    let ps := periodsOf ((72000000 :: s.ridge.qual).take (s.regFld pgPHT 0x07C 0 4))
    s.crossing (pass 72000000) = some 72000000 ∧ s.tracking = false ∧ s.ridge.locked = false ∧ 72000000 - 64000000 ≤ 25 * ftPerMs ∧
    s.regFld pgPHT 0x07C 0 4 ≤ 7 + 2 ∧ periodsFit ps = true ∧
    periodsFit (periodsOf [64100000, 64000000]) = false ∧ periodsFit (periodsOf [72000000, 64000000]) = true ∧
    0 + 2 < s.regFld pgPHT 0x07C 0 4 := by decide

def inAngle (a : Nat) : State := tracker 1 (a * turn)

theorem wit_HoldAndAnnouncements :
    r0.tracking = false ∧ (tracker 1 0).tracking = true ∧ 0 + 1 < (withRegs [(pgPHT, 0x07C, 0xF0)] (tracker 1 0)).regFld pgPHT 0x07C 4 4 ∧
    (tracker 1 0).regFld pgPHT 0x07C 4 4 ≤ 0 + 1 ∧ r0.phtState ≠ stHold ∧
    (tracker 2 0).phtState = stHold ∧ (tracker 2 0).regBit pgPHT 0x040 5 = false ∧ (tracker 0x22 0).regBit pgPHT 0x040 5 = true ∧
    r0.phtState = stSeek ∧ r0.regBit pgPHT 0x040 6 = false ∧ (tracker 1 0).phtState ≠ stSeek ∧
    r0.mayWrite .supervisor pgPHT ∧
    (let s := withRegs [(pgPAR, 0x044, 18)] (inAngle 0x20000000)
     s.role = roleStandby ∧ s.pairState = psSync) ∧ (inAngle 0x1FFFFFFF).angle < 0x20000000 ∧ 0xE0000000 ≤ (inAngle 0xE0000000).angle ∧
    (inAngle 0x20000000).phtState = stLock ∧ (inAngle 0x20000000).role ≠ roleStandby ∧ ¬ (inAngle 0x20000000).angle < 0x20000000 ∧
    ¬ 0xE0000000 ≤ (inAngle 0xDFFFFFFF).angle := by
  unfold State.mayWrite State.early; decide

def announced (n : Nat) : State := { r0 with ridge := { locked := true, ann := some n } }
def released (s : State) : State := { s with sys := { s.sys with released := true } }

theorem wit_TurnsAndAnchors :
    r0.ridge.locked = false ∧ (tracker 1 0).ridge.locked = true ∧ (tracker 1 0).ridge.ann = none ∧
    (announced (2 ^ 48 - 1)).ridge.ann = some (2 ^ 48 - 1) ∧ (released (tracker 1 0)).meterRuns = true ∧
    (withRegs [(pgSCN, 0x098, 0x102)] (tracker 1 0)).clsEn 7 = true ∧ (tracker 1 0).clsEn 0 = false ∧ (tracker 1 0).owes (genRef 7) = false ∧
    (let s := withRegs [(0x18, 0x040, 1), (0x18, 0x054, 1), (0x18, 0x060, 15), (pgSYS, 0x040, 3), (pgPWR, 0x040, 1)]
       { released (tracker 1 0) with dio := { follows := [(0, true)] } }
     s.masterOf 0 7 = true ∧ s.busSends 0 = true) := by decide

/-- Class 0 enabled with a period of 2 half-cycles, SCN.CTL.RUN, a program in slot 0, NORMAL. -/
def running (s : State := tracker 1 0) : State :=
  let t := released (withRegs [(pgSCN, 0x060, 0x102), (pgSCN, 0x040, 1), (pgPWR, 0x040, 1), (pgSYS, 0x040, 3), (pgPAR, 0x044, 1)] s)
  { t with slots := [(0, { state := 1, prog := some tiny, sects := [0] })], sys := { t.sys with firstDone := true } }
def inCycle (y : Cycle) : State := { running with scan := { cycle := some y } }

theorem wit_BaseAnchors :
    running.scan.owed = [] ∧ r0.baseClass = none ∧ (running r0).ridge.locked = false ∧ running.baseClass = some 0 ∧ running.ridge.locked = true ∧
    running.pair.demote = false ∧ running.pair.wish = 0 ∧ running.isStandby = false ∧ running.scan.cycle = none ∧
    running.canCycle = true ∧ (withRegs [(pgSCN, 0x040, 0)] running).canCycle = false ∧ running.sys.firstDone = true ∧
    running.scan.skip = [] ∧ (inCycle { at_ := 0, due := 1 }).scan.cycle = some { at_ := 0, due := 1 } ∧
    (inCycle { at_ := 0, due := 1 }).anyHalt = false ∧ 0 + 1 < (inCycle { at_ := 0, due := 1 }).regFld pgSYS 0x068 0 8 ∧
    (inCycle { at_ := 0, due := 1 }).regFld pgSYS 0x068 0 8 ≤ 254 + 1 ∧
    ((inCycle { at_ := 0, due := 1 }).endedBy 16000000).scan.cycle = some { at_ := 0, due := 1 } ∧
    (let s := inCycle { at_ := 0, due := 1, phase := 3, x := 15999990 }
     s.tick ≤ 15999990 + 1 + 64 ∧ 15999990 + 1 + 64 ≤ ((s.untilTheta (s.clsNext 0)).reachAll (s.clsNext 0) (s.dueSet 0)).tick) ∧
    running.copyRuns = false := by decide

def due (e : Option Nat) : State :=
  { inCycle { at_ := 0, due := 1, phase := 2 } with lanes := [(7, { work := [⟨0, e⟩] })] }

theorem wit_CyclePhases :
    (due none).intc.rise = [] ∧ (due none).intc.took = [] ∧ (inCycle { at_ := 0, due := 1, phase := 2 }).scan.cycle = some { at_ := 0, due := 1, phase := 2 } ∧
    (inCycle { at_ := 0, due := 1, staged := [(8191, 5, 1)] }).scan.cycle = some { at_ := 0, due := 1, staged := [(8191, 5, 1)] } ∧
    (due none).laneIdle 7 = some { at_ := 0, due := 1, phase := 2 } ∧ (due none).dueWork 7 = [⟨0, none⟩] ∧
    (let s := { withRegs [(pgSCN, 0x4FC, 0x80000000 + 127 * 4096), (pgINT, 0x04C, 0x80000000)] (due (some 63)) with
                intc := { en := [(3, 0x80000000)] } }
     s.dueWork 7 = [⟨0, some 63⟩]) ∧
    (due none).lanesDone = false ∧ (inCycle { at_ := 0, due := 1, phase := 2 }).lanesDone = true ∧
    (let s := { inCycle { at_ := 0, due := 1, phase := 2 } with lanes := [(3, { held := [⟨0, 8191, 5⟩], ended := [0] })] }
     s.lanesDone = true ∧ (s.lane 3).held = [⟨0, 8191, 5⟩] ∧ 0 ∈ (s.lane 3).ended ∧ s.ptForced 8191 = false ∧
     (∀ m, m < 8 → m ≠ 3 → (s.lane m).held = [])) ∧
    running.copyRuns = false ∧ (withRegs [(pgPAR, 0x044, 17)] running).copyRuns = true := by decide

/-- Class 0 with a period of 1 half-cycle and a program in slot 0 whose bound is past any budget. -/
def overBudget (s : State) : State :=
  withRegs [(pgSCN, 0x060, 0x101)] { s with slots := [(0, { state := 1, prog := some { tiny with bound := 10 ^ 9 }, sects := [0] })] }

def eventSlot (data : Word) : State :=
  { withRegs [(pgSCN, 0x4FC, data)] r0 with slots := [(1023, { state := 1, prog := some { tiny with event := true } })] }

theorem wit_BindingsAndHalts :
    r0.mayWrite .supervisor pgSCN ∧ r0.mayWrite .supervisor (pgSCL 7) ∧
    (let w := settled pgSCN 0x400 evbRow .plain 0 (0x80000000 + 127 * 4096 + 1023)
     bit w 31 = true ∧ fld w 12 7 = 127 ∧ fld w 0 10 = 1023 ∧ ((eventSlot 0).setReg pgSCN 0x400 w).budgetOk = true) ∧
    (let s := eventSlot (0x80000000 + 127 * 4096)
     s.regBit pgSCN (0x400 + 4 * 63) 31 = true ∧ s.evbSource 63 = 127) ∧
    ((overBudget r0).setReg pgSCN 0x400 0x8107F3FF).budgetOk = false ∧
    bit (settled pgSCN 0x4FC evbRow .plain 0 0) 31 = false ∧ r0.debugEnabled = true ∧
    (fuses [(0x040, 1)]).debugEnabled = false ∧ (fuses [(0x040, 1)]).mayWrite .supervisor (pgSCL 7) ∧
    (withRegs [(pgSCL 7, 0x044, 1)] r0).regBit (pgSCL 7) 0x044 0 = true ∧ (r0.lane 7).running = false ∧ (r0.lane 7).step = false ∧
    opOf 0 = 0x00 ∧ r0.executes 7 := by
  unfold State.executes State.mayWrite State.early; decide +kernel

/-! ### Witnesses: points, contexts, programs -/

/-- Context 1 ACTIVE with window 0 to 15, and points by their first words. -/
def ctx1 (pts : List (Nat × Nat × Word)) (s : State := r0) : State :=
  withInds (pts.map fun e => (pgPTM, 32 * e.1 + e.2.1, e.2.2)) (withInds [(pgPTM, 0x040010, 0x100000), (pgPTM, 0x040014, 1)] s)
/-- The same module with path lane 0 of context 1. -/
def byCtx1 (s : State) : State :=
  onLane { running := true } { s with slots := [(0, { state := 1, prog := some { tiny with ctx := 1 }, sects := [0] })] }

theorem wit_PointWrites :
    r0.mayWrite .supervisor pgPTM true ∧ (∀ l, Path.supervisor ≠ .lane l) ∧ r0.portBusy 0x16 = false ∧ r0.windowTarget 0 8192 = none ∧ 8191 < 8192 ∧
    (ctx1 [(8191, 0, 1), (8191, 4, 5)]).windowTarget 0 8191 = some 8191 ∧
    (byCtx1 (ctx1 [])).mayWrite (.lane 0) pgPTM true ∧ (byCtx1 (ctx1 [])).ctxOf (.lane 0) ≠ 0 ∧
    (let w := entSettle pgPTM RegMap.entPoint 0x1C .plain 0 0x80000007
     let s := ctx1 [(8191, 0, 1)]
     bit w 31 = true ∧ r0.ptType 8191 = 0 ∧ s.ptType 8191 ≠ 0 ∧ s.ptKind 8191 = wkNone ∧
     (ctx1 [(8191, 0, 1), (8191, 4, 1)]).ptKind 8191 = wkBus ∧ s.comingWriter 8191 = false ∧ (s.setPtWord 8191 0x1C w).budgetOk = true) ∧
    (overBudget (ctx1 [(8191, 0, 1)])).budgetOk = false ∧
    ((overBudget (ctx1 [(8191, 0, 1)])).setPtWord 8191 0x1C (entSettle pgPTM RegMap.entPoint 0x1C .plain 0 0x80000007)).budgetOk = false ∧
    bit (entSettle pgPTM RegMap.entPoint 0x1C .plain 0 0) 31 = false ∧
    bit ((ctx1 [(8191, 0, 1), (8191, 0x1C, 0x80000000)]).ptWord 8191 0x1C) 31 = true ∧
    (let w := entSettle pgPTM RegMap.entPoint 0 .plain 0 0x11
     fld w 0 4 = 1 ∧ fld w 4 9 = 1 ∧ r0.ctxState 1 = 0 ∧ (ctx1 []).ctxState 1 ≠ 0 ∧ fld w 0 4 ≠ r0.ptType 5) ∧
    (ctx1 [(5, 0, 2), (5, 0x10, 1)]).ptForced 5 = true ∧ (ctx1 [(5, 0, 2)]).ptForced 5 = false ∧
    (ctx1 [(5, 0, 2), (5, 4, 5)]).ptKind 5 ≠ wkNone ∧ (ctx1 [(5, 0, 2)]).grantSource 5 = false ∧ (ctx1 [(5, 0, 2)]).pointRefd 5 = false ∧
    ((withRegs [(pgPTM, 0x040, 8192)] r0).reg pgPTM 0x040).toNat = pointLimit false ∧ r0.mayForce 0 8191 = true ∧
    (byCtx1 (ctx1 [])).mayForce 1 8191 = false ∧ bit (1 : Word) 0 = true ∧ bit (0 : Word) 0 = false := by
  unfold State.mayWrite State.early
  exact ⟨by decide +kernel, fun _ h => Path.noConfusion h, by decide +kernel⟩

theorem wit_ContextWrites :
    r0.mayWrite .supervisor pgPTM true ∧ (byCtx1 r0).mayWrite (.lane 0) pgPTM true ∧ 511 < ctxLimit r0.small ∧ (byCtx1 r0).ctxOf (.lane 0) ≠ 0 ∧ r0.ctxOf .supervisor = 0 ∧ fld (0 : Word) 0 2 = 0 ∧
    (ctx1 [(5, 0, 0x11)]).ctxInUse 1 = true ∧ (ctx1 []).ctxInUse 1 = false ∧
    (let s := withInds [(pgPTM, 0x050000, 0x80000005), (pgPTM, 0x050004, 0x00200001)] (ctx1 [(5, 0, 1)])
     s.winCovers 1 0x00210000 = true ∧ (0x00210000 : Word) ≠ s.ctxWin 1 ∧ s.winCovers 1 0x00200000 = false) ∧
    (let s := ctx1 [(3, 0, 0x11), (3, 4, 5), (3, 0x1C, 0x80000000)]
     fld (0x00030000 : Word) 16 14 < fld (s.ctxWin 1) 16 14 ∧ s.winBreaks 1 0x00030000 = true ∧ s.winBreaks 1 0x00040000 = false) ∧
    ((withRegs [(pgPTM, 0x04C, 512)] r0).reg pgPTM 0x04C).toNat = ctxLimit false ∧ r0.ctxState 511 = 0 ∧ 2047 < grantLimit r0.small ∧
    grValid 0x80000005 = true ∧
    (let s := ctx1 [(5, 0, 1)]
     s.grantBad 2047 0x80000005 0x00100001 = false ∧ s.grantBad 2047 0x80000005 0x000F0001 = true ∧
     s.latchedWord .supervisor spGrant (grAddr 2047) 0 (s.grSrc 2047) = s.grSrc 2047) ∧
    (let s := withInds [(pgPTM, 0x050000, 0x80000005), (pgPTM, 0x050004, 0x00200001)] (ctx1 [(5, 0, 1)])
     let u := { s with slots := [(0, { state := 1, prog := some { tiny with ctx := 1, code := [BitVec.ofNat 64 (0x60 * 2 ^ 56 + 32)] } })] }
     grValid (u.grSrc 0) = true ∧ u.indexRefd 1 32 = true) ∧
    12287 < credLimit r0.small ∧
    (let w := entSettle pgPTM RegMap.entCred 0x18 .plain 0 0x00001001
     fld w 12 2 ≠ 0 ∧ fld w 0 9 = 1 ∧ r0.ctxState 1 = 0 ∧ (ctx1 []).ctxState 1 ≠ 0) ∧
    (let s := withInds [(pgPTM, 0x080000, 7), (pgPTM, 0x080018, 0x00001001)] (ctx1 [])
     s.creds = [0] ∧ s.crOwner 0 = 1 ∧ s.crKey 0 = 7) ∧ r0.points.lookups = [] := by
  unfold State.mayWrite State.early; decide

def looking (code : Nat) : State :=
  { r0 with points := { lookups := [{ lane := 7, d := 1, key := 0, lift := false, group := 0, ctx := 0, result := some (code, 12287) }] } }

theorem wit_ContextWrites_lookups :
    (looking 0).points.lookups ≠ [] ∧ (looking 0).points.lookups.map (·.result) = [some (0, 12287)] ∧ 12287 < 12288 ∧
    (looking 0).points.lookups.map (·.waits) = [true] ∧ (looking 0).points.lookups.map (·.asRead) = [true] ∧
    fld ((withInds [(pgPTM, crAddr 12287 + 0x14, 0xFFFF)] (looking 0)).crWord 12287 0x14) 0 16 = 0xFFFF ∧
    fld ((withInds [(pgPTM, crAddr 12287 + 0x14, 3)] (looking 0)).crWord 12287 0x14) 0 16 ≠ 0xFFFF := by decide

/-- A container with the one instruction END in the load buffer (Tables LDR-2, LDR-3; its CRC-32 computed apart). -/
def container : List (Nat × Nat) :=
  [(0x00, 0x43505344), (0x04, 0x400001), (0x08, 112), (0x14, 0xFF0001), (0x18, 104), (0x1C, 8), (0x20, 1), (0x3C, 0x0111F8B9),
   (0x6C, 0x47000000)]
def buffered1 (s : State := r0) : State := container.foldl (fun s e => s.store (bufferBase + e.1) (leBytes 4 e.2)) s
def slots (l : List (Nat × Slot)) (s : State := r0) : State := { s with slots := l }
def active : Slot := { state := 1, prog := some { tiny with gen := 0 }, sects := [0] }
def changing (b : Nat) (a : Option Nat) : Slot := { active with change := some ⟨b, a, false⟩ }
def ldrBusy (s : State) : State := s.setLdr 0x004 0x80000000

def refusal (r : Except (Nat × Nat) Prog) : Option (Nat × Nat) := match r with | .error e => some e | .ok _ => none

theorem wit_LoaderCommands :
    r0.mayWrite .supervisor pgSCN ∧ (ldrBusy r0).ldrBusy = true ∧ r0.ldrBusy = false ∧
    refusal ((slots [(1023, active)]).loadCheck false 1023) = some (stSlotState, 0) ∧ refusal (r0.loadCheck true 1023) = some (stSlotState, 0) ∧
    (slots [(5, changing 1023 none), (1023, { active with state := 3 })]).budgetOk
      ((slots [(5, changing 1023 none), (1023, { active with state := 3 })]).armCharge 5) = true ∧
    (let s := overBudget r0
     let u := { s with slots := s.slots ++ [(5, changing 1023 none), (1023, { active with state := 3 })] }
     u.budgetOk (u.armCharge 5) = false) ∧
    (let g := { tiny with pdefs := [⟨5, 1, none⟩] }
     (ctx1 [(5, 0, 1), (5, 0x10, 1)] (slots [(7, { active with prog := some g })])).forcedBad 0 (some g) [] [] = true) ∧
    ((slots [(5, changing 1023 none)]).slot 5).change = some ⟨1023, none, false⟩ ∧ (r0.slot 1023).change = none ∧
    5 ∉ r0.switchingNow ∧ 5 ∈ (inCycle { at_ := 0, due := 1, switching := [5] }).switchingNow ∧ (r0.slot 1023).prog = none ∧
    ((slots [(5, active)]).slot 5).prog = some { tiny with gen := 0 } ∧ ((slots [(5, active)]).slot 5).state = 1 ∧
    (slots [(5, active)]).forcedBad 0 (some tiny) [] [] = false ∧ ((slots [(5, active)]).inUseItem 5 0 (some tiny) []).isSome = false ∧
    (let s := withRegs [(pgSCN, 0x4FC, 0x80000005)] (slots [(5, active)])
     s.regBit pgSCN 0x4FC 31 = true ∧ s.regFld pgSCN 0x4FC 0 10 = 5) ∧
    (r0.slot 1023).state ≠ 2 ∧ ((slots [(1023, { active with state := 2 })]).slot 1023).state = 2 ∧
    ((slots [(5, changing 1023 (some 0))]).slot 5).change = some ⟨1023, some 0, false⟩ := by
  unfold State.mayWrite State.early; decide +kernel

theorem wit_LoaderCommands_load : (buffered1.loadCheck false 1023).toOption.isSome = true := by decide +kernel
theorem wit_LoaderCommands_change : ((buffered1 (slots [(1023, active)])).loadCheck true 1023).toOption.isSome = true := by decide +kernel

theorem wit_LoadBufferAndSwitch :
    r0.mayWrite .supervisor pgSCN ∧ 0x100000 ≤ 0x100000 ∧ 0xFFFFF < 0x100000 ∧ (ldrBusy r0).ldrBusy = true ∧ r0.ldrBusy = false ∧
    (let s := { (r0.setLdr 0x004 0x80000003) with
                slots := [(1023, active)], loader := { op := opLoad, slot := 1023, prog := some { tiny with gen := 0 } } }
     s.ldrBusy = true ∧ s.loader.op = opLoad ∧ s.loader.prog = some { tiny with gen := 0 }) ∧
    (let s := { (r0.setLdr 0x004 0x80000003) with
                slots := [(5, changing 1023 none)], loader := { op := opChange, slot := 5, prog := some { tiny with gen := 0 } } }
     s.loader.op = opChange ∧ (s.slot 5).change = some ⟨1023, none, false⟩) ∧ (ldrBusy r0).loader.prog = none ∧
    (let s := { inCycle { at_ := 0, due := 1, phase := 3, switching := [5] } with
                slots := [(5, changing 1023 (some 0)), (1023, { active with state := 3 })] }
     s.scan.cycle = some { at_ := 0, due := 1, phase := 3, switching := [5] } ∧ (s.slot 5).change = some ⟨1023, some 0, false⟩ ∧
     (s.slot 1023).prog = some { tiny with gen := 0 }) ∧
    ((slots [(5, { active with unload := some 3 })]).slot 5).unload = some 3 ∧
    ((slots [(5, active)]).slot 5).prog = some { tiny with gen := 0 } ∧ ((slots [(5, active)]).slot 5).unload = none := by
  unfold State.mayWrite State.early; decide

/-! ### Witnesses: loops -/

/-- Cascade loop 1,023 and PID loop 1,087 (entry 63), configured for context 0 in group 15, in state `st`; group 15 enabled at 1 × 2^26. -/
def lpDef : Word := 0x1F000
def loops (st : Word) (s : State := r0) : State :=
  withRegs [(pgLPE, 0x13C, 0x80000001)]
    (withInds [(pgLPE, loopAddr 1023 + 0x30, lpDef), (pgLPE, loopAddr 1023 + 0x34, st), (pgLPE, loopAddr 1023 + 0x40, 0x10000),
               (pgLPE, loopAddr 1087 + 0x30, lpDef), (pgLPE, loopAddr 1087 + 0x34, st)] s)

theorem wit_LoopWrites :
    r0.mayWrite .supervisor pgLPE true ∧ r0.mayWrite .supervisor pgLPE ∧
    (fuses [(0x048, 1)]).loopExists 256 = false ∧ (fuses [(0x048, 1)]).loopExists 1040 = false ∧ r0.loopExists 1087 = true ∧
    (byCtx1 (loops 1)).mayLoop (.lane 0) 1023 = false ∧ (byCtx1 (loops 1)).mayWrite (.lane 0) pgLPE true ∧
    r0.mayLoop .supervisor 1087 = true ∧ r0.lpState 1087 = lpFree ∧ r0.grpEn (r0.loopGroup 1087) = false ∧
    (loops 1).lpState 1087 = lpStopped ∧ (loops 1).grpEn ((loops 1).loopGroup 1087) = true ∧ (loops 2).lpState 1023 = lpRunning ∧
    (loops 3).lpState 1023 = lpFaulted ∧ 1087 = 1024 + 63 ∧ 4 < 5 ∧ sosLimit r0.small ≤ 4096 ∧ 4095 < sosLimit r0.small ∧
    (byCtx1 r0).maySect (.lane 0) 4095 = false ∧ r0.maySect .supervisor 4095 = true ∧
    (loops 2).loopLive 1087 = true ∧ (loops 1).grpDue ((loops 1).loopGroup 1087) = false ∧
    (let s := loops 2 { running with ridge := { (tracker 1 0).ridge with acc := 2 ^ 90 } }
     s.grpDue (s.loopGroup 1087) = true) := by
  unfold State.mayWrite State.early; decide

/-- Points 1 (REAL), 2 and 8,191 for LP_DEF of loop 1,023, whose sections lie at `first`, `k` of them. -/
def forLoop (k first : Word) (s : State := r0) : State :=
  withInds [(pgPTM, 32, 6), (pgPTM, 64, 6), (pgPTM, 32 * 8191, 6), (pgLPE, loopAddr 1023, 1), (pgLPE, loopAddr 1023 + 0x0C, 8191),
            (pgLPE, loopAddr 1023 + 0x40, first + 65536 * k)] s

theorem wit_LoopWrites_lpDef :
    r0.ctxState 511 = 0 ∧ ¬ 512 < ctxLimit r0.small ∧ r0.ctxState 0 ≠ 0 ∧ isPid 1023 = false ∧ isPid 1087 = true ∧
    (ctx1 [] (fuses [(0x050, 0)])).pidRight 1 = false ∧ r0.pidRight 0 = true ∧ (loops 2).loopLive 1023 = true ∧
    r0.loopLive 1023 = false ∧ r0.loopPoints 0 0 0 8191 = none ∧ (forLoop 1 4095).loopPoints 0 1 0 8191 = some (1, 0, 8191) ∧
    (forLoop 1 4095).hasLatched .supervisor (spLoop 1023) (loopAddr 1023) 0x40 = false ∧
    (forLoop 1 4095).loopWord 1023 0x40 = 0x10FFF ∧ sosLimit false < 4095 + 2 ∧
    (loops 1).sectsUsed 5 = [0] ∧ (forLoop 1 4095).ptKind 8191 = wkNone ∧ (forLoop 1 4095).comingWriter 8191 = false ∧
    (withInds [(pgPTM, 32 * 8191 + 4, 1)] (forLoop 1 4095)).ptKind 8191 ≠ wkNone ∧
    sosLimit false < ((withRegs [(pgLPE, 0x058, 4096)] (forLoop 1 4095)).reg pgLPE 0x058).toNat - 0 + 1 ∧
    r0.lpState 1087 ≠ lpStopped ∧ (loops 1).lpState 1023 = lpStopped := by decide

/-- PID loop 1,087 alone in group 15, RUNNING, with a captured input. -/
def pidRun : State :=
  let s := withInds [(pgLPE, loopAddr 1087 + 0x30, lpDef), (pgLPE, loopAddr 1087 + 0x34, 2)] (withRegs [(pgLPE, 0x13C, 0x80000001)] r0)
  { s with loops := { running := [(15, some 7)],
                      loop := [(1087, { pend := some 5, cap := some ⟨0x3F800000, false, 0x40000000, false, 0, false, []⟩ })] } }
def pidLocked : State := { running (tracker 1 0) with loops := pidRun.loops, regs := pidRun.regs }

theorem wit_LoopSamples :
    15 < 16 ∧ r0.grpEn 15 = false ∧ pidRun.grpEn 15 = true ∧ running.working = true ∧ running.isStandby = false ∧
    pidRun.groupLoops 15 = [1087] ∧ pidRun.lpState 1087 = lpRunning ∧ (pidRun.loopRec 1087).pend = some 5 ∧
    (Tbl.get (fun _ => none) pidRun.loops.capped 15 : Option Nat) ≠ some (pidRun.grpNext 15) ∧
    pidRun.ptForced (pidRun.loopRec 1087).outPt = false ∧ (withInds [(pgPTM, 0x10, 1)] pidRun).ptForced 0 = true ∧
    (Tbl.get (fun _ => none) r0.loops.running 15 : Option Nat) = none ∧
    (Tbl.get (fun _ => none) pidRun.loops.running 15 : Option Nat) = some 7 ∧
    (pidRun.loopRec 1087).cap = some ⟨0x3F800000, false, 0x40000000, false, 0, false, []⟩ ∧ (pidRun.loopRec 1087).starting = false ∧
    bit (pidRun.lpStat 1087) 4 = false ∧ bit (pidRun.loopWord 1087 0x20) 20 = false ∧ pidRun.loopWord 1087 0x1C = 0 ∧
    pidLocked.ridge.locked = true ∧
    pidRun.owes (genGroup 15) = false ∧ (pidRun.setOwes (genGroup 15) true).owes (genGroup 15) = true ∧
    (running.setOwes (genGroup 15) true).working = true ∧ pidRun.intc.took = [] ∧ pidRun.struckBits (.loop 1087) = 0 ∧
    3 ≤ (struck [(.loop 1087, 3)] pidRun).struckBits (.loop 1087) ∧
    pidRun.past.resolveOwn (pidRun.loopOwner 1087) (fld (pidRun.loopWord 1087 0x0C) 0 13) = some (pidRun.loopRec 1087).outPt ∧
    r0.past.resolveOwn 1 0 = none := by decide

/-! ### Witnesses: meter, sense links, reception -/

def metering (m : Meter) : State := { released (tracker 1 0) with meter := m }
def pulsing (x : Pulse) (owed : Word) (s : State := released r0) : State :=
  withRegs [(pgPLS, plsOfs 7 0x14, owed)] { s with meter := { pulse := [(7, x)] } }

theorem wit_MeterCommands :
    (metering {}).meter.await = none ∧ r0.meterRuns = false ∧ (metering { await := some (9, 5) }).meterRuns = true ∧
    (metering { await := some (9, 5) }).meter.await = some (9, 5) ∧
    ((9, 5, [0]) :: ([] : List (Nat × Nat × List Int)).take 11).find? (fun e => e.1 + 8 = 9) = none ∧
    ((9, 5, [0]) :: ([(1, 4, [0])] : List (Nat × Nat × List Int)).take 11).find? (fun e => e.1 + 8 = 9) ≠ none ∧
    (metering {}).meter.closing = false ∧ (pulsing {} 1).started 0 = false ∧
    ({ pulsing {} 1 with dio := { follows := [(1, true)] } } : State).started 1 = true ∧
    (pulsing {} 1).sampled pgPLS (plsOfs 7 0x14) ≠ 0 ∧ (pulsing {} 0).sampled pgPLS (plsOfs 7 0x14) = 0 ∧
    unpowered.plsDrives = false ∧ (pulsing {} 1).plsDrives = true ∧ (pulsing {} 0).plsOwed 7 = 0 ∧ (pulsing {} 1).plsOwed 7 ≠ 0 ∧
    ((pulsing { on := true } 1).pulse 7).on = true ∧ ((pulsing {} 1).pulse 7).on = false ∧
    r0.mayWrite .supervisor pgPLS ∧
    bit (settled pgPLS (plsOfs 7 0x0C) (plsRow (plsOfs 7 0x0C)) .plain 0 1) 0 = true ∧ r0.plsEn 7 = false ∧
    r0.plsSourceOk (r0.reg pgPLS (plsOfs 7 0)) = false ∧ (withInds [(pgMTR, 0, 0x80000000)] r0).plsSourceOk 0 = true ∧
    r0.regBit pgPLS (plsOfs 7 0x10) 1 = true ∧ (withRegs [(pgPLS, plsOfs 7 0x10, 0)] r0).regBit pgPLS (plsOfs 7 0x10) 1 = false ∧
    (fuses [(0x048, 1)]).chExists 12 = false ∧ (fuses [(0x048, 1)]).mayWrite .supervisor pgMTR true ∧
    r0.chExists 51 = true ∧ (byCtx1 r0).ctxOf (.lane 0) ≠ 0 ∧ (byCtx1 r0).mayChannel 1 51 = false ∧ r0.mayChannel 0 51 = true ∧
    r0.ctxState 511 = 0 ∧ r0.ctxState 0 ≠ 0 ∧ r0.chLocked 51 = false ∧
    (let s := withInds [(pgMTR, 256 * 51 + 0x18, 4), (pgMTR, 256 * 51, 0x80000000)] r0
     s.chLocked 51 = true ∧ fld (0x00100000 : Word) 20 4 ≠ s.chK 51 ∧ s.chEn 51 = true ∧ bit (0 : Word) 31 = false ∧
     s.chPulsed 51 = false ∧ s.inGroup 51 = false) ∧
    (let s := withRegs [(pgPLS, plsOfs 7 0x0C, 1), (pgPLS, plsOfs 7 0, 47)] r0
     s.chPulsed 47 = true) ∧
    (let s := { withRegs [(pgPLS, plsOfs 7 0x14, 1)] (pulsing {} 0) with was := { at_ := some 0 } }
     s.plsOwed 7 ≠ 0 ∧ s.sampled pgPLS (plsOfs 7 0x14) = 0) := by
  unfold State.mayWrite State.early; decide

def linked (k : Nat) (st : Word) (x : Link := {}) : State :=
  withInds [(pgSNS, lnk k 0x084, st)] { released r0 with links := [(k, x)] }

/-- An up frame of sample 256 with a good CRC, and a read of a head of link 2. -/
def up256 (rstat : Nat) : UpFrame :=
  let f : UpFrame := ⟨0, 0, List.replicate 12 0, rstat, 7, 0⟩
  { f with crc := crcOf 16 0x1021 0xFFFF (upBytes f) }

theorem wit_SenseLinks :
    r0.linkLives 2 = false ∧ (released r0).linkLives 3 = false ∧ (linked 2 1).linkLives 2 = true ∧
    (linked 2 1).linkState 2 = lkDetect ∧ ((linked 2 1).link 2).wait = false ∧ ((linked 2 1 { wait := true }).link 2).wait = true ∧
    (linked 2 2).linkState 2 = lkPower ∧ (linked 2 3).linkState 2 = lkTrain ∧ (linked 2 4).linkState 2 = lkRun ∧
    (linked 2 5).linkState 2 = lkGap ∧ (linked 2 6).linkState 2 = lkFault ∧ (linked 2 0).linkState 2 < 2 ∧
    5 < (linked 2 6).linkState 2 ∧
    (let s := { linked 2 4 with ridge := { acc := 258 * 8388608 * turn } }
     s.linkTalks 2 = true ∧ upGood (up256 0) = true ∧ (s.framesDue.find? fun n => (up256 0).seq = n % 256) = some 256 ∧
     s.headAccess 2 = none ∧ upGood (up256 1) = true ∧ (up256 1).rstat = 1) ∧ (linked 2 1).linkTalks 2 = false ∧
    upGood { up256 0 with crc := 0 } = false ∧ (linked 2 4).framesDue = [] ∧
    (let s := busyPage pgSNS ⟨.supervisor, .plain, false, 0, 0, .told⟩ (r0.setBank (pathIdx .supervisor) (dkey pgSNS 0x020) 0x300000)
     (s.headAccess 2).isSome = true) ∧
    (linked 2 2).tick ≤ ((linked 2 2).link 2).since + 200 * ftPerMs ∧
    ((linked 2 2).link 2).since + 200 * ftPerMs < ({ linked 2 2 with tick := 80000001 } : State).tick := by decide +kernel

/-- CAN 5 sends and receives (MODE NORMAL, ERROR_ACTIVE); DALI 3 and RS-485 port 3 are on; the first OUTPUT phase is over. -/
def buses (s : State := r0) : State :=
  let s := released (withRegs [(0x1D, 0x040, 1), (0x1D, 0x054, 1), (0x23, 0x040, 1), (0x27, 0x040, 1)] s)
  { s with dio := { s.dio with follows := [(0, true)] } }
def filter5 (act : Word) : State := withInds [(0x1D, 16 * 255 + 4, 0x7FF), (0x1D, 16 * 255, 0x7FF), (0x1D, 16 * 255 + 8, act)] buses

theorem wit_BusReception :
    r0.busHears 5 = false ∧ buses.busHears 5 = true ∧ buses.filterFor 5 0x7FF = none ∧
    (filter5 2).filterFor 5 0x7FF = some 255 ∧ fld (2 + 256 * 127 : Word) 0 2 = 2 ∧ fld (2 + 256 * 127 : Word) 8 7 = 127 ∧
    bit (buses.imgCfg 0x1D 127) 31 = false ∧ bit ((withInds [(0x1D, 0x020000 + 4 * 127, 0x80000000)] buses).imgCfg 0x1D 127) 31 = true ∧
    imgFresh (setFresh (busImage 0 0 0 0 []) true) = true ∧ fld (3 : Word) 0 2 = 3 ∧ fld (1 : Word) 0 2 < 2 ∧
    r0.busHears 9 = false ∧ buses.busHears 9 = true ∧ buses.filterFor 9 5 = none ∧
    (withInds [(0x23, 16 * 31, 5), (0x23, 16 * 31 + 4, 0xFF), (0x23, 16 * 31 + 8, 0x803)] buses).filterFor 9 5 = some 31 ∧
    (r0.busCh 13).arriving = [] ∧
    240 < (List.replicate 241 (0 : Byte)).length ∧ buses.filterFor 9 (0xFFFFFF : BitVec 32) = none ∧
    (r0.busCh 9).reply = none ∧ ((r0.setBus 9 { reply := some 15 }).busCh 9).reply = some 15 ∧ buses.busHears 13 = true ∧
    buses.busMode 13 = 1 ∧ r0.busMode 13 ≠ 1 ∧ (r0.busCh 13).open_ = false := by decide +kernel

/-- One message of one credit is on its way to queue 15 of port 3. -/
def arriving : State := withRegs [(0x18, crFree, 4095), (0x18, crFlight, 1)] (r0.setBus 13 { arriving := [(15, ⟨0, 1, [7]⟩)] })

theorem wit_BusReception_arrives :
    (arriving.busCh 13).arriving.find? (·.1 = 15) = some (15, ⟨0, 1, [7]⟩) ∧ 1 ≤ arriving.crd crFlight ∧ arriving.creditsOk ∧
    arriving.fabric.struck = [] ∧ ∀ m, (15, m) ∉ (r0.busCh 13).arriving := by
  refine ⟨by decide, by decide, ?_, rfl, fun m => List.not_mem_nil⟩
  unfold State.creditsOk; decide +kernel

/-- An OSDP exchange of port 3 with poll entry 15, address 126. -/
def polling (r : Nat) (tgt : Option Nat) : State :=
  (withInds [(0x27, 0x050000 + 240, 126), (0x27, 0x050008 + 240, 0x80000800)] buses).setBus 13
    { open_ := true, reply := some 0, flight := some (.poll 15), retries := r, target := tgt }

theorem wit_BusReception_osdp :
    ((polling 0 none).busCh 13).open_ = true ∧ ((polling 0 none).busCh 13).reply ≠ none ∧
    (polling 0 none).flightAddr 13 = some 126 ∧ (polling 0 none).flightAddr 13 ≠ some 5 ∧ ((polling 0 none).busCh 13).target = none ∧
    ((polling 0 (some 15)).busCh 13).target = some 15 ∧ ((polling 0 none).busCh 13).flight = some (.poll 15) ∧
    (polling 0 none).entryOf 13 126 = some 15 ∧ ((polling 0 none).busCh 13).retries < (polling 0 none).regFld 0x27 0x054 8 4 ∧
    (polling 15 none).regFld 0x27 0x054 8 4 ≤ ((polling 15 none).busCh 13).retries := by decide

/-! ### Witnesses: transmission and configuration of the field buses -/

/-- Channel `ch` with `nb`, one credit under way and one in the queue. -/
def sending (ch : Nat) (nb : BusCh) (s : State := buses) : State :=
  withRegs [(0x18, crFree, 4094), (0x18, crFlight, 1), (0x18, crQueued, 1)] (s.setBus ch nb)
def two : List Byte := busImage 16 2 0 0 [1, 2]
def queued7 : BusCh := { queue := [(7, [⟨0, 1, two⟩])] }

theorem wit_BusTransmission :
    r0.busSends 13 = false ∧ buses.busSends 5 = true ∧ buses.busSends 9 = true ∧ buses.busSends 13 = true ∧ (buses.busCh 5).flight = none ∧
    (buses.busCh 9).open_ = false ∧ (let s := withRegs [(0x27, 0x040, 2)] buses; s.busSends 13 = true ∧ s.busMode 13 ≠ 1) ∧
    (let b := (sending 9 { open_ := true, second := some (.msg 7 ⟨0, 1, two⟩ true) }).busCh 9
     b.open_ = true ∧ b.ref = none ∧ b.second = some (.msg 7 ⟨0, 1, two⟩ true)) ∧
    ((sending 5 { ref := some (.ref 63 0 false 0) }).busCh 5).ref = some (.ref 63 0 false 0) ∧ buses.busMode 13 = 1 ∧
    imageBad 5 two = false ∧ imageBad 9 two = false ∧ imageBad 13 two = false ∧ imageBad 9 (busImage 0 1 0 0 [1]) = true ∧
    (buses.busCh 5).built = [] ∧ buses.oldestTx 5 txQueues = none ∧
    (let s := sending 5 queued7
     s.oldestTx 5 txQueues = some (7, ⟨0, 1, two⟩) ∧ 1 ≤ s.crd crQueued ∧
     s.creditsOk ∧ s.fabric.struck = [] ∧ 1 ≤ s.crd crFlight) ∧ (0 : Nat) < 512 ∧
    ((sending 9 { built := [(63, two)] }).busCh 9).built = [(63, two)] ∧
    ((sending 5 { flight := some (.ref 63 0 true 0) }).busCh 5).flight = some (.ref 63 0 true 0) ∧
    ((sending 9 { flight := some (.frame 63 two) }).busCh 9).flight = some (.frame 63 two) ∧
    ((sending 13 { flight := some (.poll 15) }).busCh 13).flight = some (.poll 15) ∧
    ((sending 9 { flight := some (.msg 7 ⟨0, 1, two⟩ false) }).busCh 9).flight = some (.msg 7 ⟨0, 1, two⟩ false) ∧
    imgWord two 0 / 16 % 2 = 1 ∧ imgWord two 0 / 32 % 2 = 0 := by
  unfold State.creditsOk; decide +kernel

theorem wit_BusTransmission_states :
    r0.mayWrite .supervisor 0x1D true ∧ buses.canStat 5 ≠ csBusOff ∧
    (withRegs [(0x1D, 0x054, 3)] buses).canStat 5 = csBusOff ∧ buses.regBit 0x1D 0x054 3 = false ∧
    (withRegs [(0x1D, 0x054, 0x18)] buses).regBit 0x1D 0x054 3 = true ∧
    (withRegs [(0x1D, 0x054, 0x18)] buses).regBit 0x1D 0x054 4 = true ∧ r0.busHears 5 = false ∧ buses.busHears 5 = true ∧
    (let s := sending 9 { open_ := true, flight := some (.poll 0) }
     (s.busCh 9).open_ = true ∧ (s.busCh 9).flight ≠ none ∧ s.busDown 9 = false) ∧
    (buses.busCh 9).flight = none ∧ buses.regBit 0x23 0x048 2 = false ∧
    (withRegs [(0x23, 0x048, 4)] buses).regBit 0x23 0x048 2 = true ∧ (withRegs [(0x23, 0x040, 2)] buses).busDown 9 = true ∧
    buses.daliSupplyOn 9 = false ∧ (withRegs [(0x23, 0x044, 127)] buses).daliSupplyOn 9 = true ∧ buses.ridge.locked = false ∧
    (let s : State := { withRegs [(0x23, 0x050, 0x80000000)] buses with ridge := { locked := true } }
     s.regBit 0x23 0x050 31 = true ∧ s.busSends 9 = true ∧ (s.busCh 9).open_ = false ∧
     ((s.setBus 9 { flight := some (.frame 0 two) }).busCh 9).flight = some (.frame 0 two) ∧
     (s.setBus 9 { s.busCh 9 with sched := true }).busSends 9 = true ∧ s.owes (genDali 3) = false) ∧
    (let s := withRegs [(0x23, 0x050, 0x80000000)] r0
     (s.setBus 9 { s.busCh 9 with sched := true }).busSends 9 = false) ∧
    (buses.setBus 5 { recoverAt := some 0 }).tick = 0 := by
  unfold State.mayWrite State.early; decide +kernel

theorem wit_BusConfiguration :
    r0.mayWrite .supervisor 0x18 true ∧ r0.mayWrite .supervisor 0x27 true ∧
    (let s := sending 5 queued7
     let w := settled 0x1D 0x200 (qcfgRow 5 7) .plain 0 511
     s.busQueue 5 7 ≠ [] ∧ fld w 0 9 ≠ fld (s.qcfg 5 7) 0 9) ∧ r0.busQueue 5 15 = [] ∧
    ctxLimit r0.small ≤ 512 ∧ r0.ctxState 511 = 0 ∧ r0.ctxState 0 ≠ 0 ∧ r0.crdAlloc 0 + r0.crd crFree < fld 8191 0 13 ∧
    (let s := withRegs [(0x18, crFree, 4095)] (withInds [(0x18, 0x100000, 1)] r0)
     s.crdAlloc 0 = 1 ∧ fld 0 0 13 + s.crdAvail 0 < s.crdAlloc 0) ∧
    fld 4096 0 13 ≤ r0.crdAlloc 0 + r0.crd crFree ∧ r0.crdAlloc 0 ≤ fld 4096 0 13 + r0.crdAvail 0 ∧
    r0.creditsOk := by
  unfold State.mayWrite State.early State.creditsOk; decide +kernel

theorem wit_BusConfiguration_tables :
    (RegMap.rowOf 0x1D (timingOfs 0)).isSome = true ∧ buses.busMode 5 ≠ 0 ∧ r0.busMode 5 = 0 ∧ 255 < filterCount 5 ∧ 31 < filterCount 9 ∧
    (let w := entSettle 0x1D RegMap.entOut 8 .plain 0 3
     fld w 0 3 ≠ fld (r0.ind 0x1D (0x030000 + 16 * 63 + 8)) 0 3) ∧ r0.mapped 5 63 true = false ∧
    (withInds [(0x1D, 0x040004 + 8 * 511, 0x8000007F)] r0).mapped 5 63 true = true ∧ 511 < mapCount 5 ∧
    bit (entSettle 0x1D RegMap.entMap 4 .plain 0 0x7FFFFFFF) 31 = false ∧ bit (entSettle 0x1D RegMap.entMap 4 .plain 0 0x80000000) 31 = true ∧
    r0.mapInvalid 5 0 8191 0x80000000 = true ∧ r0.ptKind 8191 = wkNone ∧
    r0.keyOwner 1023 = 0 ∧ keyLimit true ≤ 1023 ∧
    (let s := withRegs [(0x20, 0x044, 127), (0x21, 0x044, 127), (0x22, 0x044, 127)] r0
     inputLimit s.small < s.budgetWith (s.daliCurrent - s.regFld 0x23 0x044 0 7 + 127) ∧
     s.budgetWith (s.daliCurrent - s.regFld 0x23 0x044 0 7 + 119) ≤ inputLimit s.small) := by decide

theorem wit_BusConfiguration_maps :
    (let s := withInds [(0x1D, 0x020000 + 4 * 127, 0x80000000), (0x1D, 0x040000 + 8 * 511, 8191)] (ctx1 [(8191, 0, 1)])
     let w := entSettle 0x1D RegMap.entMap 4 .plain 0 (0x80000000 + 2 * 127 + 511 * 256 + 0x20000)
     bit w 31 = true ∧ mapOut w = false ∧ s.mapInvalid 5 511 8191 w = false ∧ s.ptKind 8191 = wkNone ∧
     (((s.dropLatch .supervisor (spBus 0x1D 2)).setInd 0x1D (0x040000 + 8 * 511) 8191).setInd 0x1D (0x040004 + 8 * 511) w).budgetOk = true ∧
     (s.setPtWord 8191 4 1).ptKind 8191 ≠ wkNone ∧ (s.setPtWord 8191 4 1).mapInvalid 5 511 8191 w = false ∧ s.comingWriter 8191 = false ∧
     bit (s.mapDef 5 511) 31 = false ∧ ((overBudget s).setInd 0x1D (0x040004 + 8 * 511) w).budgetOk = false) ∧
    (let s := withInds [(0x1D, 0x030008 + 16 * 63, 0x80000000)] (ctx1 [(8191, 0, 1)])
     let w := entSettle 0x1D RegMap.entMap 4 .plain 0 (0x80000001 + 2 * 63 + 0x20000)
     mapOut w = true ∧ s.mapInvalid 5 511 8191 w = false) ∧
    (let w := entSettle 0x27 RegMap.entPoll 8 .plain 0 0x80000080
     let adr := entSettle 0x27 RegMap.entPoll 0 .plain 0 0x17E
     let s := withInds [(pgKEY, keyAddr 1023, 0x10000)] r0
     bit w 31 = true ∧ bit adr 8 = true ∧ s.keyOwner 1023 ≠ 0 ∧ s.keyOwner 1023 ≠ fld (s.qcfg 13 (fld w 8 4)) 0 9 ∧ r0.keyOwner 1023 = 0 ∧
     1023 < keyLimit r0.small) := by decide +kernel

/-! ### Witnesses: Ethernet ports, the tunnel -/

/-- Uplink 1 with a link, EEE up; port 1 of T1S in CSMA/CD. -/
def nets (s : State := r0) : State := released (withRegs [(pgUPL 1, 0x040, 0x11), (pgUPL 1, 0x044, 9), (pgT1S 1, 0x040, 1)] s)

theorem wit_EthernetPorts :
    r0.portReady 3 = false ∧ nets.portReady 3 = true ∧ nets.regBit (netPage 3) 0x044 0 = true ∧ nets.portReady 2 = false ∧
    (let s := { withRegs [(pgUPL 0, 0x040, 1)] nets with net := { accepted := true } }
     s.portReady 2 = true ∧ s.regBit (netPage 2) 0x044 0 = false ∧ s.net.accepted = true) ∧
    r0.t1sUp 1 = false ∧ nets.t1sUp 1 = true ∧ nets.regBit (netPage 3) 0x044 0 = true ∧ r0.regBit (netPage 3) 0x044 0 = false ∧
    1522 ≤ 1522 ∧ 1522 < 1523 ∧ nets.regBit (pgUPL 1) 0x044 3 = true ∧ nets.regBit (pgUPL 1) 0x040 4 = true ∧
    nets.regBit (pgUPL 1) 0x044 4 = false ∧ r0.mayWrite .supervisor (pgUPL 1) true ∧
    (let old := nets.reg (pgUPL 1) 0x040
     fld (portCtlOf 1 old) 1 3 ≠ fld (portCtlOf 1 (settled (pgUPL 1) 0x040 portCtlRow .plain old 0x1F)) 1 3 ∧
     fld (portCtlOf 1 old) 1 3 = fld (portCtlOf 1 (settled (pgUPL 1) 0x040 portCtlRow .plain old 0x01)) 1 3 ∧
     bit (portCtlOf 1 (settled (pgUPL 1) 0x040 portCtlRow .plain old 0x01)) 0 = true) ∧
    r0.net.accepted = false ∧ r0.t1sSends 1 = false ∧ nets.t1sSends 1 = true ∧
    r0.mayWrite .supervisor (pgT1S 1) true ∧ nets.regFld (pgT1S 1) 0x040 0 2 ≠ 0 ∧ r0.regFld (pgT1S 1) 0x040 0 2 = 0 ∧
    (let s := withRegs [(pgT1S 1, 0x040, 2)] nets
     s.t1sUp 1 = true ∧ s.regFld (pgT1S 1) 0x040 0 2 = 2 ∧ s.regBit (pgT1S 1) 0x04C 0 ≠ true) := by
  unfold State.mayWrite State.early; decide +kernel

/-- A request of session 511 with no operation, its tag zeros, as it arrives and as the ingress queue holds it; the tunnel enabled
on port 1 with session 511 CLOSED or OPEN on key slot 0. -/
def gram (seq : Nat) (count : Nat := 0) (n : Nat := 511) : List Byte :=
  [(1 : Byte), 1] ++ beBytes 2 n ++ [0] ++ beBytes 1 count ++ [0, 0] ++ beBytes 8 seq ++ List.replicate 32 0
def request (seq : Nat) (ops : List TunOp := []) : Datagram := ⟨511, 0, seq, 1, 2, ops⟩
def tunnel (st : Word) (x : Session := {}) (l : List Datagram := []) (flags : Word := 0) : State :=
  let s := withInds [(pgTUN, 32 * 511 + 4, 0x10000 + flags), (pgTUN, 32 * 511 + 8, st), (pgTUN, 32 * 511 + 12, 5), (pgKEY, keyAddr 0, 0x111), (pgKEY, keyAddr 0 + 4, 0xFFFFFFFF)]
    (withRegs [(pgTUN, 0x040, 1), (pgTUN, 0x044, 2)] (nets r0))
  { s with tun := { session := [(511, x)], ingress := l } }

theorem wit_TunnelSessions :
    r0.tunnelRuns = false ∧ (tunnel 1).tunnelRuns = true ∧ (tunnel 1).regBit pgTUN 0x044 1 = true ∧ (tunnel 1).portUp 1 = true ∧
    gramSession (gram 1) = 511 ∧ (tunnel 1).badHeader (gram 1) = false ∧ (tunnel 1).badHeader (gram 1 0 512) = true ∧
    (tunnel 1).badHeader (gram 1 1) = true ∧ (tunnel 1).sesState 511 ≠ sesOpen ∧ (tunnel 1).authFails (gram 0) = true ∧
    (let s := tunnel 2 {} [] 0x20000
     s.sesState 511 = sesOpen ∧ s.sesPeerLock 511 = true ∧ (s.session 511).addr ≠ 1) ∧
    (tunnel 2 {} (List.replicate 63 (request 1))).tun.ingress.length < 64 ∧
    64 ≤ (tunnel 2 {} (List.replicate 64 (request 1))).tun.ingress.length ∧
    (let s := tunnel 2 { held := [(request 6, 3)], cache := [(4, ⟨511, 0, 0, 0, 4, 5, [], []⟩)] } [request 9]
     s.tun.ingress = [request 9] ∧ s.tun.run = none ∧ s.closed ≠ some s.tick ∧ s.sesNext 511 + 3 < (request 9).seq ∧
     s.sesNext 511 < (request 8).seq ∧ (request 8).seq ≤ s.sesNext 511 + 3 ∧ (s.session 511).held.any (fun e => e.1.seq = 8) = false ∧
     (s.session 511).held.any (fun e => e.1.seq = 6) = true ∧ 4 < s.sesNext 511 ∧
     (s.session 511).cache.find? (fun r => r.1 = 4) = some (4, ⟨511, 0, 0, 0, 4, 5, [], []⟩) ∧
     (s.session 511).cache.find? (fun r => r.1 = 3) = none ∧ oldestHeld (s.session 511).held = some (request 6, 3)) ∧
    (let s := tunnel 2 {} [request 5 [⟨15, 0, 0, 0⟩]]
     (request 5).seq = s.sesNext 511 ∧ s.sesNext 511 + 1 < 2 ^ 64 ∧ (request 5).flags = 0 ∧ (s.session 511).held = [] ∧
     (∀ o ∈ (request 5 [⟨15, 0, 0, 0⟩]).ops, o.opcode ≠ 1 ∧ o.opcode ≠ 2) ∧ oldestHeld (s.session 511).held = none) ∧
    ({ tunnel 2 with tun := { run := some ⟨request 5, [], [], false⟩ } } : State).tun.run.isSome = true ∧ r0.tun.ingress = [] ∧
    r0.mayWrite .supervisor pgTUN true ∧
    (let s := tunnel 2
     let w := entSettle pgTUN RegMap.entSession 4 .plain 0 0x10000
     fld w 0 9 = 0 ∧ bit w 16 = true ∧ s.ctxState 0 ≠ 0 ∧ s.sesKeyOk 0 0 = true ∧ fld w 0 9 = s.sesCtx 511 ∧ s.sesKey 511 = 0 ∧
     s.sesKeyOk 0 1 = false ∧ (withInds [(pgKEY, keyAddr 1023, 0x111)] s).sesKeyOk 0 1023 = true ∧ 1023 ≠ s.sesKey 511) := by
  unfold State.mayWrite State.early; decide +kernel

/-- The request of SEQ 1, worked out outside the model. -/
def gram1 : List Byte := leBytes 48
  0x52f451a0525f4503f48435d994c2dc8400000000000000000000000000000000010000000000000000000000ff010101

theorem wit_TunnelSessions_authentic : (tunnel 1).authFails gram1 = false ∧ (tunnel 1).badHeader gram1 = false := by decide +kernel

/-! ### Witnesses: fabric, clock, keys, updates -/

def fab (f : Fabric) (s : State := r0) : State := { s with fabric := f }

theorem wit_FabricAndBanks :
    r0.fabMasked 15 = false ∧ (withRegs [(pgFAB, 0x04C, 0x8000)] r0).fabMasked 15 = true ∧ r0.fabric.upTo = r0.tick ∧
    Tbl.get (fun _ => 0) r0.fabric.mayAt 15 ≤ r0.tick ∧ r0.fabric.queue = [] ∧ r0.fabric.struck = [] ∧
    (fab { queue := [⟨15, 8, 0, 0, [], false⟩] }).fabric.queue.any (fun e => e.m = 15) = true ∧
    (fab { d0 := { owner := 15, busy := true } }).fabric.d0.busy = true ∧
    (let s := fab { d0 := { owner := 15, parked := true } }
     s.fabric.d0.parkedOn 15 = true ∧ s.fabSync.fabric.d0.parkedOn 15 = true) ∧
    (let s := fab { d1 := { owner := 15, parked := true } }
     s.fabric.d0.parkedOn 15 = false ∧ s.fabric.d1.parkedOn 15 = true ∧ s.fabSync.fabric.d1.parkedOn 15 = true) ∧
    (let s := fab { queue := [⟨15, 8, 0, 0, [], false⟩], upTo := 1 } { r0 with tick := 1 }
     s.fabric.upTo = s.tick ∧ 0 < s.tick ∧ (s.fabFt s.tick).fabric.d0.busy = false) ∧
    (let s := fab { queue := [⟨15, 8, 0, 0, [], false⟩], d0 := { busy := true, start := 9, left := 8 }, upTo := 1 } { r0 with tick := 1 }
     (s.fabFt s.tick).fabric.d0.busy = true ∧ (s.fabFt s.tick).fabric.d1.busy = false) ∧
    (let s := withRegs [(pgFAB, 0x044, 2)]
       (fab { queue := [⟨15, 8, 0, 0, [], false⟩], d0 := { busy := true, start := 9, left := 8 }, d1 := { owner := 1, busy := true, start := 9, left := 8 } })
     s.fabric.upTo = s.tick ∧ s.fabric.queue.find? (fun e => e.m = 14 && !e.counted) = none ∧
     s.fabric.queue.find? (fun e => e.m = 15 && !e.counted) = some ⟨15, 8, 0, 0, [], false⟩ ∧
     (s.until (0 + s.regFld pgFAB 0x044 0 16 + 1)).fabSync.fabric.queue.any (fun e => e.m = 15) = true) ∧
    (let s := withRegs [(pgFAB, 0x044, 2)] (fab { queue := [⟨15, 8, 0, 0, [], false⟩] })
     (s.until (0 + s.regFld pgFAB 0x044 0 16 + 1)).fabSync.fabric.queue.any (fun e => e.m = 15) = false) ∧
    (fuses [(0x048, 1)]).small = true ∧ r0.small = false := by decide +kernel

theorem wit_FabricAndBanks_banks :
    r0.mayWrite .supervisor pgFAB true ∧
    (let old := r0.reg pgFAB 0x0E0
     fld old 30 2 = 0 ∧ fld (bankClamp 0xC0000000 16) 30 2 = 2 ∧ r0.bankAlloc 15 = false ∧ fld (bankClamp 0 16) 30 2 = 0) ∧
    (inSlot []).bankAlloc 0 = true ∧ (released r0).bankAlloc 31 = true ∧ r0.bankStat 31 = 0 ∧
    (withRegs [(pgFAB, 0x0EC, 0xC0000000)] r0).bankStat 31 = 3 ∧ unpowered.power.powered = false ∧ r0.power.powered = true ∧
    r0.small = false ∧ (withRegs [(pgFAB, 0x120, 1)] r0).regBit pgFAB 0x120 0 = true ∧ r0.btPaused = false ∧ r0.fabric.bt = none ∧
    r0.btRegion / 256 = 0 ∧ (withRegs [(pgFAB, 0x0E8, 1)] r0).bankStat 0 ≠ 0 ∧ (withRegs [(pgFAB, 0x120, 0)] r0).regBit pgFAB 0x120 0 = false ∧
    r0.bankStat 0 = 0 ∧ r0.bankStat 1 = 0 ∧ r0.bankStat 2 = 0 ∧ r0.bankStat 3 = 0 ∧
    (fab { bt := some ⟨0, 256, 2816⟩ }).fabric.bt = some ⟨0, 256, 2816⟩ ∧ r0.fabric.struck = [] := by
  unfold State.mayWrite State.early; decide

theorem wit_TimeOfDay :
    r0.rtc.lost = false ∧ r0.rtc.setAt ≠ some r0.tick ∧ ({ r0 with rtc := { setAt := some 0 } } : State).rtc.setAt = some r0.tick ∧ ({ r0 with rtc := { lost := true } } : State).rtc.lost = true ∧ r0.rtc.frozen = none ∧
    (∀ o ∈ timeOfs, (r0.reg pgRTC o).toNat < 256) ∧ r0.clock.seconds ≤ r0.clock.tick.seconds ∧
    (let s : State := { r0 with rtc := { next := [(1, some r0.clock.tick.seconds)] } }
     s.alNext 1 = some s.clock.tick.seconds ∧ s.power.powered = true ∧ s.alNext 0 = none) ∧
    (let s : State := { r0 with rtc := { next := [(1, some (r0.clock.tick.seconds + 1))] } }
     s.alNext 1 = some (s.clock.tick.seconds + 1)) ∧
    (let s : State := withRegs [(pgRTC, 0x064, 12)] { r0 with rtc := { frozen := some (List.replicate 9 1) } }
     s.rtc.frozen ≠ none ∧ s.regFld pgRTC 0x064 1 3 < 7 ∧ (withRegs [(pgRTC, 0x064, 14)] s).regFld pgRTC 0x064 1 3 = 7) ∧
    r0.early ∧ r0.gate .supervisor pgRTC false false = some stOk ∧ r0.mayWrite .supervisor pgRTC true ∧ r0.rtc.touched = false ∧
    ({ r0 with rtc := { touched := true } } : State).rtc.touched = true ∧ r0.rtc.commit = none ∧
    ({ r0 with rtc := { commit := some (List.replicate (shadowOfs pgRTC).length 0) } } : State).rtc.commit ≠ none ∧
    unpowered.power.powered = false ∧ r0.regBit pgRTC 0x064 5 = false ∧ 2199 < 2200 ∧
    (withRegs [(pgRTC, 0x074, 0)] r0).regBit pgRTC 0x074 0 = false ∧ (withRegs [(pgRTC, 0x074, 1)] r0).regBit pgRTC 0x074 0 = true ∧
    (880 : Int) = 40 * ((32 : Nat) : Int) - 400 := by
  unfold State.mayWrite State.early; decide

/-- The vault of a module of the lifecycle of three fuse bits, with an authority key in slot 1,023 and a usable master key in slot 1,022,
both of zeros. -/
def vault (lc : Word) (l : List Submission) : State :=
  { withInds [(pgKEY, keyAddr 1023, 0x411), (pgKEY, keyAddr 1022, 0x811), (pgKEY, keyAddr 1023 + 4, 1),
      (pgKEY, keyAddr 1022 + 4, 1), (pgKEY, keyAddr 1023 + 8, 0xFFFFFFFE)] (fuses [(0x040, lc)]) with
    keys := { queue := l } }

/-- Key-update messages (Table KEY-4) for slot 0 of context 0, sealed by the authority slot 1,023 with a key of zeros and worked out outside the
model: an ERASE, its like of a COUNTER one lower, a RETURN, a DERIVE from slot 1,022, a LOAD of an AES-128 key. -/
def eraseMsg : List Byte := leBytes 120
  0xf7c74ba504b01a401d4817d17e71b2bdf7e6375950e387ccb3430c48b53d3388514de44a8c981f4a65b1d2e3758920bad8a0c61e0b2803f700000000000000000000000000000000000000070000000000000000ffffffff000000000000000000000000000000000000000003ff000000000301554b5344
def lowMsg : List Byte := leBytes 120
  0x52950e22368234c7065ffe316bf717539aeaab3edf8179c486e5b5c82ea4c4ffc48dd1d796a6b52b6cdc3dd6b1b849a6b373c2fe801bbeb000000000000000000000000000000000000000070000000000000000fffffffe000000000000000000000000000000000000000003ff000000000301554b5344
def returnMsg : List Byte := leBytes 120
  0xbd5461fd394bd94c95e6aaac61fdab32f7e6375950e387ccb3430c48b53d3388514de44a8c981f4a65b1d2e3758920bad8a0c61e0b2803f700000000000000000000000000000000000000070000000000000000ffffffff000000000000000000000000000000000000000003ff000000000401554b5344
def deriveMsg : List Byte := leBytes 120
  0x6044e0f3d3dfb64889909fa4f1546504f7e6375950e387ccb3430c48b53d3388514de44a8c981f4a65b1d2e3758920bad8a0c61e0b28000900000000000000000000000000000000000000070000001100000000ffffffff000000000000000000000000000000000000000003ff000000000201554b5344
def loadMsg : List Byte := leBytes 120
  0x9470cbbeac2e6d5da6db52191fc407eef7e6375950e387ccb3430c48b53d33887375594178e1a57d9daa945735ca14f819a9f806e27fdf7400000000000000000000000000000000000000070000000200000000ffffffff000000000000000000000000000000000000000003ff000000000101554b5344

/-- What the vault makes of a message. -/
def verdict (s : State) (ctx : Nat) (b : List Byte) : Nat := s.kumStatus ctx (kumOf b) (s.vaultFacts b)

theorem wit_KeysAndFuses :
    r0.mayWrite .supervisor pgKEY ∧ r0.mayWrite .supervisor pgKEY true ∧ vaultPath .supervisor = true ∧ vaultPath (.lane 0) = false ∧
    (inSlot []).mayWrite (.lane 0) pgKEY ∧
    (let data : Word := 0x4C430001
     fld data 16 16 = 0x4C43 ∧ fld data 0 2 = r0.lifecycle + 1 ∧ fld data 0 2 = lcCommission ∧ ¬ (fld (0x4C430003 : Word) 0 2 = r0.lifecycle + 1)) ∧
    (let s := withRegs [(pgPWR, 0x050, 0x10000)] (pwr 1)
     s.pwrState = pwNormal ∧ s.regBit pgPWR 0x050 16 = true ∧ s.keys.transition = none) ∧ r0.regBit pgPWR 0x050 16 = false ∧
    ({ r0 with keys := { transition := some 1 } } : State).keys.transition = some 1 ∧ r0.lifecycle < 1 ∧ 1 ≤ lcReturn ∧
    (vault 1 []).lifecycle = lcCommission ∧ (vault 3 []).lifecycle = lcField ∧ (vault 7 []).lifecycle = lcReturn ∧
    keyLimit r0.small ≤ 1024 ∧ keyLimit true ≤ 256 ∧ 1023 < keyLimit r0.small ∧ attrOk 0 = true ∧ attrOk 0x1F = false ∧
    (vault 1 []).keyState 1023 ≠ ksFree ∧ r0.keyState 1023 = ksFree ∧ r0.keyLocked 1023 = false ∧
    (withInds [(pgKEY, keyAddr 1023, 4)] r0).keyState 1023 = ksFree ∧ (withInds [(pgKEY, keyAddr 1023, 4)] r0).keyLocked 1023 = true ∧
    bit (r0.kumStat 0) 0 = false ∧ bit ((r0.setKumStat 0 true 0 0).kumStat 0) 0 = true ∧ r0.lifecycle ≠ lcField ∧
    0 < keyLimit r0.small ∧ (vault 3 []).lifecycle < lcReturn ∧ (vault 1 []).lifecycle < lcField ∧ lcCommission < (vault 3 []).lifecycle := by
  unfold State.mayWrite State.early; decide +kernel

theorem wit_KeysAndFuses_messages :
    verdict (vault 3 []) 0 eraseMsg = stOk ∧ verdict (vault 3 []) 0 returnMsg = stOk ∧ verdict (vault 3 []) 0 deriveMsg = stOk ∧
    verdict (vault 3 []) 0 loadMsg = stOk := by decide +kernel

theorem wit_KeysAndFuses_refusals :
    (kumOf eraseMsg).op = kmErase ∧ (kumOf returnMsg).op = kmReturn ∧ (kumOf deriveMsg).op = kmDerive ∧ (kumOf loadMsg).op = kmLoad ∧
    verdict (vault 3 []) 0 lowMsg = stKumCounter ∧ verdict (vault 0 []) 0 eraseMsg = stLifecycle ∧
    verdict (vault 3 []) 0 (eraseMsg.set 119 0) = stKumAuth ∧ verdict (vault 3 []) 511 eraseMsg = stDenied ∧
    (vault 3 [⟨0, 0, returnMsg⟩]).keys.queue = [⟨0, 0, returnMsg⟩] ∧ (vault 3 []).keys.transition = none ∧
    r0.keys.queue = [] ∧ r0.keys.attesting = [] ∧
    ({ r0 with keys := { attesting := [(515, [1]), (0, [])] } } : State).keys.attesting = [(515, [1]), (0, [])] := by decide +kernel

theorem wit_KeysAndFuses_blows :
    r0.mayWrite .supervisor pgFUS true ∧ RegMap.rowOf pgFUS 0xFFC = none ∧ (RegMap.rowOf pgFUS 0x04C).isSome = true ∧
    r0.keys.blowing = none ∧ ({ r0 with keys := { blowing := some (0x04C, 1) } } : State).keys.blowing = some (0x04C, 1) ∧
    bit ((fuses [(0x044, 1)]).fuseReg 0x044) 0 = true ∧ bit (r0.fuseReg 0x044) 0 = false ∧
    (2 : Word) ≠ 0 ∧ (2 : Word) &&& 0x5 = 0 ∧ ¬ ((1 : Word) &&& 0x5 = 0) := by
  unfold State.mayWrite State.early; decide

/-- The supervisor owns the chunk buffer, at a stage. -/
def updating (stage : Word) (u : Update := {}) (n : Word := 2) : State :=
  withRegs [(pgUPD, 0x068, 0x8000), (pgUPD, 0x040, stage), (pgUPD, 0x05C, n)] { r0 with upd := u }

theorem wit_UpdateEngine :
    r0.mayWrite .supervisor pgUPD true ∧ (updating 0).ownsBuffer .supervisor = true ∧ r0.ownsBuffer .supervisor = false ∧
    (updating 0).updBusy = false ∧ (updating 0x80000000).updBusy = true ∧ r0.updBusy = false ∧ r0.regBit pgUPD 0x068 15 = false ∧
    (updating 0).regBit pgUPD 0x068 15 = true ∧ (updating 0).updStage = sgEmpty ∧ (updating 1).updStage = sgManifest ∧
    (updating 2).updStage = sgChunks ∧ (updating 3).updStage = sgComplete ∧ (updating 1).hasManifest 0 = false ∧ manifestMost ≤ 65 ∧ 64 < manifestMost ∧
    (updating 3).onTrial = false ∧ (updating 16).onTrial = true ∧ r0.upd.writing = none ∧
    (updating 2 { writing := some (1, [], true) }).upd.writing = some (1, [], true) ∧
    (updating 2 { writing := some (1, [], false) }).upd.writing = some (1, [], false) ∧
    (updating 2 {} 0).reg pgUPD 0x060 = (updating 2 {} 0).reg pgUPD 0x05C ∧ (updating 2).reg pgUPD 0x060 ≠ (updating 2).reg pgUPD 0x05C := by
  unfold State.mayWrite State.early; decide

/-- A number of 4n bytes as n words, its most significant byte first. -/
def beWords (n v : Nat) : List Word := (List.range n).map fun i => word (ofLeBytes (((beBytes (4 * n) v).drop (4 * i)).take 4))

/-- The manifest of an image of one chunk of zeros, signed with ECDSA P-256 by the private key 7 (worked out outside the model), or its magic
replaced; and the public key of 7. -/
def manifest (magic : Word := 0x4D555344) : List Word :=
  let digest := beWords 8 0xad7facb2586fc6e966c004d7d1d16b024f5805ff7cb47c7a85dabd8b48892ca7
  [magic, 0x00800001, 4096, 1, 0, 0x01000000, 0, 0] ++ digest ++ List.replicate 16 0 ++ digest ++
    beWords 8 0x5ecbe4d1a6330a44c8f7ef951d4bf165e6c6b721efada985fb41661bc6e7fd6c ++
    beWords 8 0xb632fbf74df35d77888ecb2e0840807f6ea67ea2a5260ee4172f2dc967f67987
def key7 : BitVec 512 :=
  0x8e533b6fa0bf7b4625bb30667c01fb607ef9f8b8a80fef5b300628703187b2a373eb1dbde03318366d069f83a6f5900053c73633cb041b21c55e1a86c1f400b4
/-- Manifest chunk 0 as the buffer brings it, and as it stands. -/
def storing (magic : Word) : State :=
  let s := updating 1 { buffer := (List.range 1024).zip (manifest magic), romKeys := [(0, key7)] }
  { s with upd := { s.upd with manifs := [(256, s.bufferWords)], manHave := [(0, true)] } }

theorem wit_UpdateEngine_manifest :
    (storing 0x4D555344).hasManifest 0 = true ∧ (storing 0x4D555344).manChunks = 1 ∧ manifestChunks 1 = 1 ∧
    (∀ j, j < manifestChunks 1 → (storing 0x4D555344).hasManifest j = true) ∧ (storing 0x4D555344).manStatus = stOk ∧
    (storing 0).manStatus ≠ stOk := by decide +kernel

/-- The chunk of zeros arrives, or stands in the staging slot. -/
def chunking (u : Update) : State :=
  updating 2 { u with manifs := [(256, manifest)], chunks := [(16384, List.replicate 1024 0)] } 1

theorem zero_digest :
    sha256 (List.replicate 4096 0) = beBytes 32 0xad7facb2586fc6e966c004d7d1d16b024f5805ff7cb47c7a85dabd8b48892ca7 := by decide +kernel

theorem wit_UpdateEngine_chunks :
    (chunking {}).updStage = sgChunks ∧ ((chunking {}).reg pgUPD 0x05C).toNat = 1 ∧ (chunking {}).hasChunk 0 = false ∧
    (chunking { have_ := [(0, true)] }).hasChunk 0 = true ∧
    (let s := (chunking { have_ := [(0, true)] }).setReg pgUPD 0x060 1
     s.updStage = sgChunks ∧ s.reg pgUPD 0x060 = s.reg pgUPD 0x05C) := by decide +kernel

theorem wordBytes_zero (n : Nat) : wordBytes (List.replicate n 0) = List.replicate (4 * n) 0 := by
  induction n with
  | zero => rfl
  | succ n ih =>
    rw [List.replicate_succ, show 4 * (n + 1) = 4 * n + 1 + 1 + 1 + 1 by omega]
    simp only [List.replicate_succ, ← ih]
    rfl

theorem wit_UpdateEngine_digests :
    sha256 (wordBytes (chunking {}).bufferWords) = (chunking {}).chunkDigest 0 ∧ (chunking {}).imageMatches = true := by
  have h : (chunking {}).bufferWords = List.replicate 1024 0 := by
    have : ∀ i, Tbl.get (fun _ => (0 : Word)) (chunking {}).upd.buffer i = 0 := fun _ => rfl
    simp only [State.bufferWords, this, List.map_const', List.length_range]
  have m : (chunking {}).manChunks = 1 ∧ (chunking {}).manWord 2 = 4096 := by decide +kernel
  have g : (((List.range 1).flatMap fun i => wordBytes ((chunking {}).stagedChunk i)).take 4096) = List.replicate 4096 0 := by
    have : (chunking {}).stagedChunk 0 = List.replicate 1024 0 := rfl
    simp only [List.range_one, List.flatMap_cons, List.flatMap_nil, this, wordBytes_zero, List.append_nil, List.take_replicate]
    rfl
  rw [State.imageMatches, m.1, m.2, show (4096 : Word).toNat = 4096 from rfl, g, h, wordBytes_zero, zero_digest]
  decide +kernel

def trial (s : State) : State := withRegs [(pgUPD, 0x040, 0x10), (pgUPD, 0x050, 1)] s

theorem wit_UpdateEngine_trial :
    r0.trialHealthy = false ∧ r0.onTrial = false ∧ (trial (released r0)).trialHealthy = false ∧
    (let s := trial (running (withRegs [(pgSCN, 0x040, 1)] (released (tracker 1 0))))
     let t : State := { s with scan := { s.scan with ended := true }, ridge := { s.ridge with locked := true } }
     t.trialHealthy = true ∧ t.sys.released = true ∧ t.power.powered = true ∧ t.pwrState ≠ pwRide ∧ t.saving = false) ∧
    (let s := trial (released r0)
     s.onTrial = true ∧ s.sys.released = true ∧ s.power.powered = true ∧ s.pwrState ≠ pwRide ∧ s.saving = false ∧
     (s.reg pgUPD 0x050).toNat = 1 ∧ s.regBit pgUPD 0x040 5 = false ∧ ¬ (s.role = rolePrimary ∧ s.pairState ≠ psSync)) ∧
    (let s := withRegs [(pgPAR, 0x044, 1)] (trial (released r0))
     s.role = rolePrimary ∧ s.pairState ≠ psSync) ∧
    1 < ((withRegs [(pgUPD, 0x050, 2)] (trial r0)).reg pgUPD 0x050).toNat := by decide

/-! ### Witnesses: the pair, digital inputs and outputs -/

/-- Role and pair state (Table PAR-1), the pair enabled, and the health word of the partner. -/
def paired (role st : Nat) (p : Pair := {}) (hw : Word := 0) (s : State := r0) : State :=
  withRegs [(pgPAR, 0x040, 5), (pgPAR, 0x044, word (role + 4 * st)), (pgPAR, 0x060, hw)] { s with pair := p }
def linkUp : Pair := { up := true, accepted := true }
def healthFrame (w : Word) (sum : Word := (paired 0 0).cfgSum) : HealthFrame := ⟨w, 0, BitVec.ofNat 16 r0.activeImage.proto, sum, 0, 0, 1⟩

/-- A frame on the Col link with a struck payload word. -/
def struckFrame (n : Nat) : State := { paired 1 4 linkUp with fabric := { struck := [(.col 0, n)] } }

theorem wit_PairLinkAndRoles_frame :
    (struckFrame 2).pair.up = true ∧ (struckFrame 2).alive = true ∧ (struckFrame 2).frameStruck = true ∧
    ∀ i, (struckFrame 2).struckBits (.col i) ≤ 2 := by
  refine ⟨by decide, by decide, by decide, fun i => ?_⟩
  by_cases h : i = 0
  · subst h; decide
  · simp [State.struckBits, struckFrame, Ne.symm h]

theorem wit_PairLinkAndRoles :
    r0.alive = true ∧ unpowered.alive = false ∧ r0.pair.accepted = false ∧ (paired 0 0 { accepted := true }).pair.accepted = true ∧
    r0.pair.up = false ∧ (paired 0 0 linkUp).pair.up = true ∧ (paired 2 6 { accepted := true }).pairState = psOrphan ∧
    (paired 2 4 linkUp).isStandby = true ∧ (paired 1 4 linkUp).isStandby = false ∧
    (let s : State := { paired 0 0 with ridge := { locked := true } }
     s.pairOn = true ∧ s.ridge.locked = true ∧ s.role = roleNone ∧ s.pair.heard = false) ∧ (withRegs [(pgPAR, 0x040, 0)] r0).pairOn = false ∧
    (paired 1 4 linkUp).role = rolePrimary ∧ (paired 1 4 linkUp).pairState ≠ psSolo ∧ r0.role ≠ rolePrimary ∧
    (paired 0 0 linkUp).pairOn = true ∧ (paired 0 0 linkUp).alive = true ∧ (paired 0 0 linkUp).pairState = psSolo ∧
    (healthFrame 0).proto.toNat = (paired 0 0 linkUp).activeImage.proto ∧ (healthFrame 0).cfgSum = (paired 0 0 linkUp).cfgSum ∧
    (healthFrame 0 (~~~ (paired 0 0).cfgSum)).cfgSum ≠ (paired 0 0 linkUp).cfgSum ∧ fld (2 : Word) 0 2 = roleStandby ∧
    bit (128 : Word) hwRan = true ∧ r0.sys.firstDone = false ∧ ({ r0 with sys := { firstDone := true } } : State).sys.firstDone = true ∧
    r0.devId < (healthFrame 0).devId.toNat ∧ (paired 1 4 linkUp).pairState ≠ psSolo ∧
    (let s := paired 2 1 linkUp 64 (withRegs [(pgPHT, 0x040, 1)] r0)
     s.pairState = psJoin ∧ s.phtState = stLock ∧ s.peerBit hwLocked = true ∧ s.pair.demote = false ∧ s.pairDiffers = false) ∧
    (paired 2 7 linkUp).pairState = psMismatch ∧ r0.reg pgPHT 0x050 = 0 ∧
    (struckFrame 3).frameStruck = true ∧ (struckFrame 3).struckBits (.col 0) = 3 ∧ (paired 1 4 linkUp).frameStruck = false ∧
    (paired 2 4 { linkUp with rx := some ⟨7, 2, 100, false, 0⟩ }).pair.rx = some ⟨7, 2, 100, false, 0⟩ ∧
    (let s : State := { paired 1 4 linkUp with ridge := { locked := true } }
     s.ridge.locked = true ∧ s.role = rolePrimary) ∧
    (let s := paired 1 4 { linkUp with silent := 255 }
     s.alive = true ∧ s.role = rolePrimary ∧ s.pairState ≠ psSolo ∧ s.regFld pgPAR 0x048 16 8 ≤ s.pair.silent) ∧
    ¬ ((paired 1 4 linkUp).regFld pgPAR 0x048 16 8 ≤ (paired 1 4 linkUp).pair.silent) ∧ r0.pair.advs = 0 ∧
    (paired 1 4 { linkUp with advs := 2 }).pair.advs ≠ 0 ∧
    (paired 1 0 linkUp).role = rolePrimary ∧ fld (2 : Word) 0 2 = roleStandby ∧ (paired 2 0 linkUp).role = roleStandby ∧
    fld (1 : Word) 0 2 = rolePrimary := by decide +kernel

/-- A standby in SYNC whose partner has been heard in the window of the anchor at 5, with its health word. -/
def beat (hw : Word) : State := paired 2 4 { linkUp with anchorAt := some 5, heard := true, healthAt := 5, applied := true } hw

theorem wit_PairLinkAndRoles_heartbeat :
    r0.pair.anchorAt = none ∧ (paired 2 8 { anchorAt := some 5 }).pairState = psFaulted ∧
    (∀ n ∈ [0, 0x100, 0x800, 0x400],
      (beat (word n)).pair.anchorAt = some 5 ∧ (beat (word n)).alive = true ∧ (beat (word n)).role = roleStandby ∧
      (beat (word n)).pair.applying = false ∧ (beat (word n)).healthIn 5 = true ∧ (beat (word n)).pair.up = true ∧
      (beat (word n)).pairState ≠ psFaulted ∧ (beat (word n)).peerBit hwFault = bit (word n) 8 ∧
      (beat (word n)).peerBit hwHandover = bit (word n) 11 ∧ (beat (word n)).peerBit hwLeaving = bit (word n) 10) ∧
    (let s := paired 2 4 { linkUp with anchorAt := some 5, heard := true, healthAt := 4 }
     s.healthIn 5 = false) ∧
    (let s := withRegs [(pgPAR, 0x040, 13)] (paired 2 4 { anchorAt := some 5, anchorDue := [(15, some 63)], lastRef := [(15, some 30)] })
     s.regBit pgPAR 0x040 3 = true ∧ s.pair.anchorDue ≠ [] ∧ s.guardSees = true ∧ s.healthIn 5 = false) ∧
    (let s := withRegs [(pgPAR, 0x040, 13)] (paired 2 4 { anchorAt := some 5, anchorDue := [(15, some 63)], lastRef := [(15, some 31)] })
     s.guardSees = false) := by decide +kernel

def copyOf (final : Bool) : CopyOut := ⟨5, 7, [], final⟩

theorem wit_PairCopyAndMirror :
    (let s := { paired 1 4 linkUp with scan := { cycle := some { at_ := 0, due := 1, phase := 4 } } }
     s.copyRuns = true ∧ s.pair.out = none ∧ s.scan.cycle = some { at_ := 0, due := 1, phase := 4 }) ∧ r0.scan.cycle = none ∧
    (∀ st ∈ [psResync, psSync, psLag], ∀ f ∈ [true, false],
      (paired 1 st { linkUp with out := some (copyOf f) }).pair.out = some (copyOf f) ∧
      (paired 1 st { linkUp with out := some (copyOf f) }).pairState = st) ∧
    (paired 1 4 { linkUp with wish := 2 }).pair.wish ≠ 0 ∧ (paired 1 4 linkUp 0x0C).regFld pgPAR 0x060 2 4 = psResync ∧
    (paired 1 4 linkUp).regFld pgPAR 0x060 2 4 ≠ psResync ∧ r0.regBit pgUPD 0x040 5 = false ∧ r0.copyTaken = false ∧
    (paired 2 3 linkUp).copyTaken = true ∧ (paired 2 3 linkUp).pairState = psResync ∧ (paired 2 5 linkUp).copyTaken = true ∧
    (paired 2 5 linkUp).pair.log.length + 61440 ≤ 61440 ∧ 61440 < (paired 2 5 linkUp).pair.log.length + 61441 ∧
    (paired 2 4 { linkUp with rx := some ⟨7, 2, 100, false, 0⟩ }).rxOf 7 = ⟨7, 2, 100, false, 0⟩ ∧ 16777215 < 16777216 ∧
    (paired 2 4 { linkUp with rx := some ⟨7, 2, 100, true, 0⟩ }).rxOf 7 = ⟨7, 2, 100, true, 0⟩ ∧
    (paired 2 4 { linkUp with applying := true, log := [(16777215, 1)] }).pair.applying = true ∧ r0.pair.applying = false := by decide +kernel

theorem wit_PairCopyAndMirror_archive :
    (let s := paired 1 2 linkUp
     s.alive = true ∧ s.pair.up = true ∧ s.role = rolePrimary ∧ s.pairState = psArchive ∧ s.archiveItems = []) ∧
    (let s := { paired 1 2 linkUp with loader := { archive := [(1023, tiny)] } }
     s.archiveItems = [(1023, 1, (0 : Word))] ∧ ([(1023, 1, 0)] : List (Nat × Nat × Word)).filter (fun e => !([(1023, 2, 0)] : List (Nat × Nat × Word)).contains e) ≠ []) ∧
    r0.pair.up = false ∧ (paired 2 2 linkUp).role = roleStandby ∧
    (let base := (1023 * 65536 + 1) * 65536
     wholeContainer ((blocksOf 64 0 (leBytes 8 0 ++ leBytes 4 64 ++ leBytes 20 0)).foldl
       (fun t e => Tbl.set (fun _ => []) t (base + e.1) e.2) ([] : Tbl (List Byte))) base = none ∧
     (wholeContainer ((blocksOf 64 0 (leBytes 8 0 ++ leBytes 4 64 ++ leBytes 52 0)).foldl
       (fun t e => Tbl.set (fun _ => []) t (base + e.1) e.2) ([] : Tbl (List Byte))) base).isSome = true) := by decide +kernel

theorem wit_PairCopyAndMirror_mirror :
    r0.mayWrite .supervisor pgPAR true ∧ bit (r0.getBank 0 mirResult) 9 = false ∧
    bit ((r0.setBank 0 mirResult 0x200).getBank 0 mirResult) 9 = true ∧ r0.pair.up = false ∧
    (let s := paired 1 4 linkUp
     s.pair.up = true ∧ s.pair.accepted = true ∧ s.regBit pgPAR 0x040 2 = true) ∧ r0.pair.mirror = [] ∧
    (let s := paired 1 4 { linkUp with mirror := [⟨some 515, 9, true, 0, 0, 3⟩, ⟨none, 10, true, 0, 0, 4⟩] }
     s.pair.mirror.find? (fun r => r.req = 9) = some ⟨some 515, 9, true, 0, 0, 3⟩ ∧ s.pair.mirror.find? (fun r => r.req = 11) = none ∧
     s.pair.mirror.find? (fun r => r.req = 10) = some ⟨none, 10, true, 0, 0, 4⟩ ∧ s.pair.mirror ≠ []) := by
  unfold State.mayWrite State.early; decide +kernel

def ioOn (s : State := r0) : State := withRegs [(pgDIO, 0x04C, 0xFFFFFFFF), (pgDIO, 0x074, 3)] (released s)

theorem wit_DigitalInputsAndOutputs :
    r0.intc.took = [] ∧ r0.regBit pgDIO 0x040 15 = false ∧ (withRegs [(pgDIO, 0x040, 0x8000)] r0).regBit pgDIO 0x040 15 = true ∧ r0.diFilter 15 = 0 ∧
    (withRegs [(pgDIO, 0x048, 0x70000000)] r0).diFilter 15 = 7 ∧
    Tbl.get (fun _ => none) ({ ioOn with dio := { readAt := [(15, some 0)] } } : State).dio.readAt 15 = some ioOn.tick ∧
    r0.sys.released = false ∧ ioOn.sys.released = true ∧ ioOn.regBit pgDIO 0x04C 15 = true ∧ ioOn.regBit pgDIO 0x04C 31 = true ∧
    ({ ioOn with dio := { unread := [(15, true)] } } : State).dio.unread = [(15, true)] ∧ r0.early ∧ r0.gate .supervisor pgDIO false false = some stOk ∧
    r0.doOn 7 = false ∧ (withRegs [(pgDIO, 0x060, 0xFF)] { ioOn with dio := { follows := [(0, true)] } }).doOn 7 = true ∧
    r0.mayWrite .supervisor pgDIO true ∧
    (let w : Word := 0x80001FFF &&& 0x80071FFF
     bit w 31 = true ∧ fld w 0 13 = 8191 ∧ r0.mapPoint 8191 = false ∧ (ctx1 [(8191, 0, 1)]).mapPoint 8191 = true ∧
     (ctx1 [(8191, 0, 1)]).ptKind 8191 = wkNone ∧ (ctx1 [(8191, 0, 1), (8191, 4, 1)]).ptKind 8191 ≠ wkNone ∧
     (ctx1 [(8191, 0, 1)]).comingWriter 8191 = false ∧
     ((ctx1 [(8191, 0, 1)]).setReg pgDIO (0x180 + 4 * 15) w).budgetOk = true ∧
     ((overBudget (ctx1 [(8191, 0, 1)])).setReg pgDIO (0x180 + 4 * 15) w).budgetOk = false ∧
     bit (r0.reg pgDIO (0x180 + 4 * 15)) 31 = false) ∧
    bit ((withRegs [(pgDIO, 0x1BC, 0x80001FFF)] r0).reg pgDIO (0x180 + 4 * 15)) 31 = true ∧
    word (b2n true + 2 * b2n true + 4 * b2n false) = ioOn.reg pgDIO 0x074 ∧ word (b2n true + 2 * b2n true + 4 * b2n true) ≠ ioOn.reg pgDIO 0x074
    := by
  unfold State.mayWrite State.early; decide +kernel

/-! ### Ill-formed commands, one for each check of WellFormed at the first value past its range -/

def up12 : UpFrame := ⟨0, 0, List.replicate 12 0, 0, 0, 0⟩

theorem test_illFormed0 :
    ([
    .systemReset 3 ⟨true, true, []⟩,
    .systemReset 8 ⟨true, true, []⟩, .shedStage 0, .shedStage 4, .daliSupplySetting .supervisor 4 0,
    .indirectAccess .supervisor 1024 .plain true 0, .indirectComplete 1024, .indirectTimeout 1024, .shadowCommit .supervisor 1024,
    .shadowDiscard .supervisor 1024, .snap .supervisor 1024, .pointWindowWrite .supervisor 8192 true 0, .ptTunWrite .supervisor 8192 0,
    .ptDefWrite .supervisor 8192 0, .ptForceWrite .supervisor 8192 0, .ctxDefWrite .supervisor 512 0, .ctxWinWrite .supervisor 512 0,
    .grantWrite .supervisor 2048 0, .crDefWrite .supervisor 12288 0, .entryLatchWrite .supervisor 1024 .plain 0 0,
    .entryLatchWrite .supervisor 0 .plain 16777216 0, .hwmClr .supervisor 1024 0, .evbWrite .supervisor 64 0, .lockQueueGrant 256,
    .lockHoldExpiry 256, .lockCfgWrite .supervisor 256 0, .loadBufferWrite .supervisor 0x7FF000 0, .load .supervisor 1024,
    .change .supervisor 1024 true, .switch .supervisor 1024, .abort .supervisor 1024, .unload .supervisor 1024, .restart .supervisor 1024,
    .loopSampleDone 16, .loopEnable .supervisor 1088, .loopDisable .supervisor 1088, .recover .supervisor 1088,
    .lpDefConfigure .supervisor 1088 0, .lpDefFree .supervisor 1088 0, .pidTuningWrite .supervisor 64 0 0, .pidTuningWrite .supervisor 0 5 0,
    .sosCtlWrite .supervisor 4096 0, .outLimitWrite .supervisor 1088 true 0, .sampleProcessing [], .pulseEmit 8] : List Instr).all (fun c => !c.wf) = true := by decide +kernel

theorem test_illFormed1 :
    ([
    .pulseOff 8, .chDefWrite .supervisor 52 0, .chWrapClear .supervisor 52 0, .plsCtlWrite .supervisor 8 0, .plsSrcWrite .supervisor 8 true 0,
    .headDetected 3, .linkTrained 3 (List.replicate 8 0), .linkTrained 0 [], .linkTimeLimit 3, .upFrame 3 up12, .senseSupplyTrip 3,
    .senseLinkRetry 3, .canFrameValidated 6 ⟨0, false, []⟩, .rxQueueEntry 14 8, .rxQueueEntry 0 7, .rxQueueEntry 0 16, .takeForTransmission 14,
    .transmissionEnd 14 true, .canRecover .supervisor 6, .canRecovered 6, .daliBackwardFrame 4 .none, .daliEventFrame 4 0, .daliCollision 4,
    .busFail 4, .busFailClear 4, .overvolt 4, .overvoltClear .supervisor 4, .uartMessageEnd 4 [], .osdpReply 4 0 [], .osdpReply 0 127 [],
    .osdpReplyTimeout 4, .qcfgWrite .supervisor 14 0 0, .qcfgWrite .supervisor 0 16 0, .crdAllocWrite .supervisor 512 0,
    .mapDefWrite .supervisor 10 0 0, .mapDefWrite .supervisor 0 512 0, .fltActWrite .supervisor 10 0 0, .fltActWrite .supervisor 0 256 0,
    .ofCfgWrite .supervisor 10 0 0, .ofCfgWrite .supervisor 0 64 0, .pollDefWrite .supervisor 4 0 0, .pollDefWrite .supervisor 0 16 0,
    .bitTimingWrite .supervisor 6 0 0, .bitTimingWrite .supervisor 0 3 0, .ethLinkChange 4 true true true, .portCtlWrite .supervisor 2 0,
    .sfpCacheRefresh [], .t1sCollision 2 true, .plcaWrite .supervisor 2 true 0, .reorderTimeout 0, .reorderTimeout 512, .sessionIdle 0] : List Instr).all (fun c => !c.wf) = true := by decide +kernel

theorem test_illFormed2 :
    ([
    .sessionIdle 512, .sesDefWrite .supervisor 0 0, .sesDefWrite .supervisor 512 0, .sesCtlClose .supervisor 0, .sesCtlClose .supervisor 512,
    .fabricRequest 16 1 0, .fabricRequest 0 0 0, .fabricRequest 0 9 0, .starvation 16, .sidebandAssert 16 true, .bankPwrWrite .supervisor 2 0,
    .bankStateReached 32, .routeWrite .supervisor 128 0, .timeRegisterWrite .supervisor 67 0, .timeRegisterWrite .supervisor 97 0,
    .timeRead .supervisor 63, .timeRead .supervisor 96, .alarmCtlWrite .supervisor 2 0, .quotaWrite .supervisor 512 0,
    .fuseBlow .supervisor 63 0, .fuseBlow .supervisor 97 0, .manifestChunk .supervisor 8192 true,
    .chunk .supervisor 8192 true, .colLinkTrained [], .diEdge 16 true 0, .diStampRead .supervisor 16, .diMapWrite .supervisor 16 0,
    .doMapWrite .supervisor 8 0, .doTrip 8, .openLoad 8, .cablePresenceChange 4 true true, .daliSupplyCutoff 4, .headIdleSymbols 3,
    .canIntegrated 6, .canBusError 6 0 0, .plcaStatusChange 2 true, .ethFrameReceived 4 0 true, 
    .canFrameValidated 0 ⟨0, false, List.replicate 65 0⟩, .upFrame 0 { up12 with samples := [] }, .fenceWrite (.tunnel 0),
    .fenceWrite (.tunnel 512), .fenceWrite (.lane 8), .credLookup 8, .laneHalt .supervisor 8, .laneHalt (.lane 8) 0, .laneStep .supervisor 8,
    .tunnelDatagram ⟨4, [], 0, 0⟩,
    .anchorOccurrence (.loopGroup 16), .anchorOccurrence (.classRef 8), .anchorOccurrence (.daliSlot 4), .anchorOccurrence (.osdpSlot 4)] : List Instr).all (fun c => !c.wf) = true := by decide +kernel

theorem test_wellFormed :
    [Instr.fenceWrite (.tunnel 511), .fenceWrite (.tunnel 1), .fenceWrite (.lane 7), .credLookup 7, .anchorOccurrence (.classRef 7),
      .systemReset 4 ⟨true, true, []⟩, .systemReset 7 ⟨true, true, []⟩, .crDefWrite .mirror 12287 0].all (·.wf) = true := by decide

/-! ### Words: the table gives no bits -/

theorem test_decodeTableWord (n w : Nat) : decodeTableWord n w = none := rfl
theorem test_withFetchWord (n w : Nat) : r0.withFetchWord n w = r0 := rfl

/-! ### Results worked out by hand, or in the spec's worked examples -/

/-- The state after a command. -/
def after (c : Instr) (s : State) : Option State := match exec c s with | .next t => some t | _ => none
def gAfter (c : Instr) (s : State) (r : BitVec 5) : Option Dword := (after c s).map fun t => (t.lane 0).getG r

/-- FIPS 180-4 and FIPS 197: the digest of "abc", and block 0 of AES-256 under the key 00 to 1f (Appendix C.3). -/
theorem test_sha256 : beNat (sha256 (ascii "abc")) = 0xba7816bf8f01cfea414140de5dae2223b00361a396177a9cb410ff61f20015ad := by decide +kernel
theorem test_aes256 :
    aesEncrypt (aesKeys (List.range 32 |>.map (BitVec.ofNat 8))) 0x00112233445566778899aabbccddeeff = 0x8ea2b7ca516745bfeafc49904b496089 := by
  decide +kernel

/-- R237: −7 / 2 = −3 with remainder −1; the extreme quotient keeps its operand. -/
theorem test_divs : gAfter (.divs 0 (fl 3 1 2)) (twoG (-7) 2) 3 = some (-3) := by decide +kernel
theorem test_rems : gAfter (.rems 0 (fl 3 1 2)) (twoG (-7) 2) 3 = some (-1) := by decide +kernel
theorem test_divs_extreme : gAfter (.divs 0 (fl 3 1 2)) (twoG 0x8000000000000000 (-1)) 3 = some 0x8000000000000000 := by decide +kernel
theorem test_mulhs : gAfter (.mulhs 0 (fl 3 1 2)) (twoG (-1) 2) 3 = some (-1) := by decide +kernel
theorem test_addsat : gAfter (.addsat 0 (fl 3 1 2)) (twoG 0x7FFFFFFFFFFFFFFF 1) 3 = some 0x7FFFFFFFFFFFFFFF := by decide +kernel
theorem test_shl_takes_b_mod_64 : gAfter (.shl 0 (fl 3 1 2)) (twoG 1 65) 3 = some 2 := by decide +kernel
theorem test_sar : gAfter (.sar 0 (fl 3 1 2)) (twoG (-8) 1) 3 = some (-4) := by decide +kernel
theorem test_g0_discards : gAfter (.add 0 (fl 0 1 2)) (twoG 1 2) 0 = some 0 := by decide +kernel
theorem test_source_is_destination : gAfter (.sub 0 (fl 1 1 2)) (twoG 5 7) 1 = some (-2) := by decide +kernel
theorem test_ldi_extends : gAfter (.ldi 0 (fl 3 0 0 0x80000000 true)) (twoG 0 0) 3 = some 0xFFFFFFFF80000000 := by decide +kernel
/-- R233, R238: 1.0 + 2.0 = 3.0; FMIN of a NaN and 2.0 is 2.0; 1.0 / 0.0 is infinite; CVTFI truncates −2.5. -/
theorem test_fadd : gAfter (.fadd 0 (fl 3 1 2)) (twoG 0x3FF0000000000000 0x4000000000000000) 3 = some 0x4008000000000000 := by
  decide +kernel
theorem test_fmin_of_nan : gAfter (.fmin 0 (fl 3 1 2)) (twoG 0x7FF8000000000000 0x4000000000000000) 3 = some 0x4000000000000000 := by
  decide +kernel
theorem test_fdiv_by_zero : gAfter (.fdiv 0 (fl 3 1 2)) (twoG 0x3FF0000000000000 0) 3 = some 0x7FF0000000000000 := by decide +kernel
theorem test_cvtfi_truncates : gAfter (.cvtfi 0 (fl 3 1 0)) (twoG 0xC004000000000000 0) 3 = some (-2) := by decide +kernel

/-- The worked example of Table ISA-12: its words, its bounds on lanes 2 and 7, and the span of its lock. -/
def ins (op d a b i x imm : Nat) : BitVec 64 :=
  BitVec.ofNat 64 (op * 2 ^ 56 + d * 2 ^ 51 + a * 2 ^ 46 + b * 2 ^ 41 + i * 2 ^ 40 + x * 2 ^ 32 + imm)
def isa12 : List (BitVec 64) :=
  [ins 0x43 1 0 0 0 0 0xA0030, ins 0x61 3 1 0 0 0 0x300040, ins 0x2E 3 3 0 0 0 0, ins 0x0C 4 1 0 1 0 3, ins 0x50 5 4 0 0 1 0,
   ins 0x21 6 3 5 0 0 0, ins 0x2A 7 6 0 0 0 0, ins 0x42 0 7 0 0 0 2, ins 0x51 0 4 6 0 2 0, ins 0x2F 6 6 0 0 0 0,
   ins 0x63 0 1 6 0 0 0x300100, ins 0x70 0 0 0 0 0 40, ins 0x50 9 0 0 0 1 0x180, ins 0x01 9 9 0 1 0 1, ins 0x51 0 0 9 0 1 0x180,
   ins 0x70 0 0 0 0 1 40, ins 0x72 10 0 0 0 0 0x1C044, ins 0x50 12 0 0 0 3 0, ins 0x77 11 12 13 0 0 0, ins 0x76 0 11 10 0 0 0x201,
   ins 0x47 0 0 0 0 0 0]
def isa12Charges (f : Nat) : Charges := ⟨f, 8, false, (List.range 256).map fun i => if i = 40 then 2000 else 0⟩
theorem test_isa12_words :
    isa12[0]? = some 0x43080000000A0030 ∧ isa12[1]? = some 0x6118400000300040 ∧ isa12[4]? = some 0x5029000100000000 ∧
    opOf 0x5029000100000000 = 0x50 ∧ fieldsOf 0x5029000100000000 = fl 5 4 0 0 false 1 := by decide +kernel
theorem test_isa12_accepted : verifyCode (isa12Charges 82) 4 [0] isa12 = none := by decide +kernel
theorem test_isa12_bounds :
    provenBound (isa12Charges 82) isa12 false = 24731 ∧ provenBound (isa12Charges 132) isa12 false = 29681 ∧
    (r0.charges 2).f = 82 ∧ (r0.charges 7).f = 132 := by decide +kernel
theorem test_isa12_span : spansOf (isa12Charges 82) isa12 (funcSpans [0] isa12.length) = [(11, 40, some 166)] := by decide +kernel

/-- The worked example of the filtered PI cascade, and the constants of Table LPE-7. -/
theorem test_sections :
    q31 0x3E4CCCCD = 429496736 ∧ sosStep [21474836, 0, 0, -858993459, 343597384] 0 429496736 0 0 0 0 = 17179869 ∧
    sosStep [434865439, -429496730, 0, -536870912, 0] 0 17179869 0 0 0 0 = 13915694 := by decide +kernel
theorem test_sample_time :
    tsOf 16 false = 0x3BA3D70A ∧ fmul f32 0x3F480000 (tsOf 16 false) = 0x3B800000 ∧ fmul f32 0x41C80000 (tsOf 16 false) = 0x3E000000 := by
  decide +kernel

/-- The worked example of an outage at 50 Hz: the rates of Table PHT-4 in units of 2^-32 per ft, to three decimals. -/
def slewing : State := withRegs [(pgPHT, 0x040, 3)] { r0 with ridge := { tm := ⟨8000000, 1⟩ } }
theorem test_rates :
    slewing.slewRate (-529998964) * 1000000 / 2 ^ 32 = 534199912 ∧ slewing.slewRate (-17167219) * 1000000 / 2 ^ 32 = 534725009 ∧
    slewing.lockRate 0 * 1000000 / 2 ^ 32 = 536870912 ∧ slewing.lockTh = 2 ^ 18 ∧ slewing.slewTh = 2 ^ 20 := by decide +kernel

/-- The worked example of a 60 Hz class layout (Table SCN-5). -/
def layout60 : State :=
  withRegs [(pgSCN, 0x048, 6100), (pgSCN, 0x060, 0x101), (pgSCN, 0x064, 0x10000000), (pgSCN, 0x068, 0x106), (pgSCN, 0x06C, 0x10000000),
    (pgSCN, 0x070, 0x13C), (pgSCN, 0x074, 0x90000000), (pgSCN, 0x078, 0x1F0), (pgSCN, 0x07C, 0x10000000)] r0
theorem test_layout60 :
    layout60.designTurn = 6524590 ∧ layout60.designHalf = 3262295 ∧ layout60.classesOk = true ∧ layout60.baseClass = some 0 ∧
    layout60.meet 1 2 = false ∧ layout60.meet 2 3 = false ∧ layout60.sets.contains [0, 1, 3] = true ∧ layout60.sets.contains [0, 2] = true ∧
    layout60.sets.all (fun x => x.length ≤ 3) = true := by decide +kernel

/-- The worked example of a tenant window (Table PTM-10). -/
def tenant17 : State :=
  withInds [(pgPTM, 0x040110, 0x00801F80), (pgPTM, 0x040114, 1), (pgPTM, 32 * 0x12, 6), (pgPTM, 32 * 0x1F85, 0x116),
    (pgPTM, 0x0501C8, 0x80000012), (pgPTM, 0x0501CC, 0x00820011)] r0
theorem test_window_clamp : winClamp 8192 0x00C81F80 = 0x00801F80 := by decide +kernel
theorem test_tenant17 :
    tenant17.resolve 17 5 = some (0x1F85, false) ∧ tenant17.resolve 17 130 = some (0x12, true) ∧ tenant17.resolve 17 129 = none ∧
    tenant17.winBreaks 17 0x00C81F00 = false ∧ tenant17.winCovers 17 0x00C81F00 = true ∧ tenant17.winCovers 17 0x00831F80 = true := by
  decide +kernel

/-- The worked example of a blocked scan lane (Table FAB-4), from ft 102 with both requests waiting, and from ft 105. -/
def fab4 : State :=
  fab { queue := [⟨0, 4, 0x600020, 102, [], false⟩, ⟨6, 1, 0x600000, 101, [], false⟩], upTo := 103,
        d0 := ⟨15, true, false, 101, 6, 2, 0x600040⟩, d1 := ⟨3, true, false, 98, 3, 5, 0x4000A0⟩ } { r0 with tick := 102 }
theorem test_hints : fab4.fabHint 0 = 0x50001 ∧ fab4.fabHint 6 = 0xF0002 := by decide +kernel
theorem test_pathGrant :
    ((after .pathGrant fab4).map fun t => (t.tick, t.fabric.d1.owner, t.fabric.d1.start, t.fabric.queue.map (·.m))) = some (105, 0, 106, [6])
    := by decide +kernel

/-- The worked example of a clock set past its alarms: the commit at 07:05:00 (Table RTC-1, step 2). -/
def rtc0605 : State :=
  withRegs [(pgRTC, 0x048, 0x15), (pgRTC, 0x04C, 6), (pgRTC, 0x050, 5), (pgRTC, 0x054, 0x14), (pgRTC, 0x058, 3), (pgRTC, 0x05C, 0x31),
    (pgRTC, 0x060, 0x20), (pgRTC, 0x140, 0x063000), (pgRTC, 0x148, 0x12), (pgRTC, 0x150, 0x070000), (pgRTC, 0x154, 0x20310314),
    (pgRTC, 0x158, 0x11)] r0
def rtcMoved : State :=
  let next := [(0, some (secondsOf 2031 3 14 6 30 0)), (1, some (secondsOf 2031 3 14 7 0 0))]
  let shadows := (shadowOfs pgRTC).map fun o => if o = 0x048 then 5 else if o = 0x04C then 7 else rtc0605.reg pgRTC o
  { rtc0605 with rtc := { next := next, commit := some shadows } }
theorem test_alarms_skipped :
    ((after .rtcCommitInstant rtcMoved).map fun t =>
      (t.reg pgRTC 0x14C, t.reg pgRTC 0x15C, t.alNext 0, t.alNext 1)) = some (3, 7, some (secondsOf 2031 3 15 6 30 0), none) := by
  decide +kernel

/-- The worked example of a tunnel session (Table TUN-6, step 5): the missing request executes, then the held ones. -/
theorem test_tunnel_reorder :
    ((after .tunnelRequest (withInds [(pgTUN, 32 * 511 + 12, 1000)]
        (tunnel 2 { held := [(request 1001, 400000), (request 1002, 800000)] } [request 1000]))).map fun t =>
      (t.sesNext 511, (t.session 511).held.length, (t.session 511).cache.map (·.1))) = some (1003, 0, [1002, 1001, 1000]) := by
  decide +kernel

end Sys2Proof.Tests
end

/-! Proofs about the scan instructions: division (R237) and floating point (R233, R238). -/

namespace Sys2Proof.Machine

open Sys2Proof.Config

/-! ### The lanes through a context fault (R206, R207) -/

theorem State.lane_eq_of_lanes_eq {s t : State} (h : t.lanes = s.lanes) (m : Nat) : t.lane m = s.lane m := by
  rw [State.lane, State.lane, h]

@[simp] theorem State.noteLine_lanes (s : State) (pg : Nat) (was : Bool) : (s.noteLine pg was).lanes = s.lanes := by
  unfold State.noteLine
  split
  · rfl
  · split <;> rfl

@[simp] theorem State.setPend_lanes (s : State) (pg b : Nat) : (s.setPend pg b).lanes = s.lanes := by
  simp [State.setPend]

@[simp] theorem State.crnFill_lanes (s : State) (n : Nat) : (s.crnFill n).lanes = s.lanes := by
  unfold State.crnFill
  dsimp only
  split <;> simp

@[simp] theorem State.crnRefold_lanes (s : State) (r : CrnRec) : (s.crnRefold r).lanes = s.lanes := by
  unfold State.crnRefold
  split
  · rfl
  · split
    · rfl
    · split <;> simp

@[simp] theorem State.crnCharge_lanes (s : State) (r : CrnRec) (n : Nat) : (s.crnCharge r n).lanes = s.lanes := by
  unfold State.crnCharge
  split <;> rfl

@[simp] theorem State.crnAccept_lanes (s : State) (r : CrnRec) : (s.crnAccept r).lanes = s.lanes := by
  unfold State.crnAccept
  split <;> rfl

@[simp] theorem State.crnLose_lanes (s : State) (c : Nat) : (s.crnLose c).lanes = s.lanes := by
  unfold State.crnLose
  dsimp only
  split <;> simp

/-- An event that the recorder folds, accepts or loses leaves the lanes alone (R454). -/
@[simp] theorem State.crnDecide_lanes (s : State) (e : CrnRec) : (s.crnDecide e).lanes = s.lanes := by
  unfold State.crnDecide
  dsimp only
  split
  · split <;> simp
  · simp [apply_ite State.lanes]

@[simp] theorem State.markFirst_lanes (s : State) : s.markFirst.lanes = s.lanes := by
  unfold State.markFirst
  split
  · rfl
  · exact State.crnDecide_lanes s _

@[simp] theorem State.event_lanes (s : State) (pg b : Nat) (vals : List Nat) (ctx : Nat) :
    (s.event pg b vals ctx).lanes = s.lanes := by
  simp [State.event, State.record, State.present']

@[simp] theorem State.faultAction_lanes (s : State) (slot : Nat) : (s.faultAction slot).lanes = s.lanes := by
  unfold State.faultAction
  dsimp only
  split <;> rfl

@[simp] theorem State.recordFault_lanes (s : State) (l slot pc code sub : Nat) :
    (s.recordFault l slot pc code sub).lanes = s.lanes := by
  simp [State.recordFault]

@[simp] theorem State.srcDone_lanes (s : State) (n : Nat) : (s.srcDone n).lanes = s.lanes := by
  simp [State.srcDone]

@[simp] theorem State.copyRetained_lanes (s : State) (commit : Bool) (ds : List (Sect × Nat)) :
    (s.copyRetained commit ds).lanes = s.lanes := by
  induction ds generalizing s with
  | nil => rfl
  | cons x ds ih =>
    rw [State.copyRetained, ih]
    split
    · split <;> rfl
    · rfl

@[simp] theorem State.setLock_lanes (s : State) (n : Nat) (k : LockSt) : (s.setLock n k).lanes = s.lanes := rfl
@[simp] theorem State.setLock_lane_read (s : State) (n : Nat) (k : LockSt) (m : Nat) : (s.setLock n k).lane m = s.lane m := rfl

@[simp] theorem State.breakLock_lanes (s : State) (n : Nat) : (s.breakLock n).lanes = s.lanes := by
  simp [State.breakLock]

@[simp] theorem State.breakLocks_lanes (s : State) (ns : List Nat) : (s.breakLocks ns).lanes = s.lanes := by
  induction ns generalizing s with
  | nil => rfl
  | cons n ns ih => rw [State.breakLocks, ih, State.breakLock_lanes]

/-- Leaving a lock's queue ends the lane's wait and nothing else of the lane. -/
theorem State.leaveQueue_lane (s : State) (l : Nat) : (s.leaveQueue l).lane l = { s.lane l with wait := none } := by
  unfold State.leaveQueue
  split
  · rename_i h
    rw [← h]
  · simp

theorem State.leaveQueue_g (s : State) (l : Nat) : ((s.leaveQueue l).lane l).g = (s.lane l).g := by
  rw [State.leaveQueue_lane]

theorem State.checkWork_lane (s : State) (l : Nat) : (s.checkWork l).lane l = { s.lane l with work := s.dueWork l } := by
  simp [State.checkWork]

/-- A context fault ends the run of its lane and leaves the lane's registers as they were (R206, R259). -/
theorem State.contextFaultAt_g (s : State) (l pc code sub : Nat) : ((s.contextFaultAt l pc code sub).lane l).g = (s.lane l).g := by
  have recorded : ∀ (u : State) (slot : Nat),
      ((((u.discardCopies slot).breakHolder 1 slot).recordFault l slot pc code sub).lane l) = u.lane l := fun u slot =>
    State.lane_eq_of_lanes_eq (by simp [State.breakHolder, State.discardCopies]) l
  have completed : ∀ (u : State) (n : Nat), (u.srcDone n).lane l = u.lane l := fun u n =>
    State.lane_eq_of_lanes_eq (u.srcDone_lanes n) l
  simp only [State.contextFaultAt]
  split <;> split
  all_goals
    simp only [State.checkWork_lane, recorded, completed, State.lane_setLane_same]
    exact State.leaveQueue_g s l

theorem State.contextFault_g (s : State) (l code sub : Nat) : ((s.contextFault l code sub).lane l).g = (s.lane l).g :=
  State.contextFaultAt_g s l _ code sub

/-! ### Instructions of a lane that can execute -/

theorem State.atGrant_executes {s : State} {l : Nat} (h : s.executes l) : s.atGrant = s := by
  obtain ⟨_, _, open_ft⟩ := h
  exact if_neg open_ft

/-- How an instruction of lane `l` that gives `v` ends: `v` in G[D], the lane at its next instruction, nothing else changed. -/
def State.endsWith (s : State) (l : Nat) (f : Fields) (v : Dword) : Out :=
  .next (s.commit (s.ran l ((s.lane l).setG f.d v).next))

theorem access_executes {s : State} {l : Nat} (h : s.executes l) (g : State → State) : access g s = .next (s.commit (g s)) := by
  rw [access, State.atGrant_executes h]

theorem access_alu {s : State} {l : Nat} (h : s.executes l) (f : Fields) (op : Dword → Dword → Dword) :
    access (fun s => s.alu l f op) s = s.endsWith l f (op ((s.lane l).getG f.a) ((s.lane l).opB f)) := by
  have ⟨ready, clean, _⟩ := h
  rw [access_executes h, State.alu_ready f op ready clean, State.endsWith]

/-- The state that the context fault ARITH of an instruction with sub-cause `sub` leaves. -/
def State.arithFaulted (s : State) (l sub : Nat) : State :=
  ((s.setLane l { s.lane l with step := false }).contextFault l cfArith sub).bump (pgSCL l) 0x100

theorem State.arithFaulted_g (s : State) (l sub : Nat) : ((s.arithFaulted l sub).lane l).g = (s.lane l).g := by
  rw [State.arithFaulted, State.addKey_lane_read, State.contextFault_g, State.lane_setLane_same]

/-- What an instruction of a and b that may fault does on a lane that can execute. -/
theorem access_aluFault {s : State} {l : Nat} (h : s.executes l) (f : Fields) (op : Dword → Dword → Option Dword) (sub : Nat) :
    access (fun s => s.aluFault l f op sub) s =
      match op ((s.lane l).getG f.a) ((s.lane l).opB f) with
      | some v => s.endsWith l f v
      | none => .next (s.commit (s.arithFaulted l sub)) := by
  have op_step : op (({ s.lane l with step := false } : Lane).getG f.a) (({ s.lane l with step := false } : Lane).opB f) =
      op ((s.lane l).getG f.a) ((s.lane l).opB f) := rfl
  have ⟨ready, clean, _⟩ := h
  rw [access_executes h, State.aluFault, State.insn_ready _ ready clean]
  simp only [State.lane_setLane_same, op_step]
  cases op ((s.lane l).getG f.a) ((s.lane l).opB f) with
  | none => rfl
  | some v => simp [State.endsWith, State.ran, Lane.setG_step, Lane.next_step]

/-! ### Division (R237) -/

theorem ofInt_tmod (a b : Dword) :
    BitVec.ofInt 64 (a.toInt.tmod b.toInt) = a - b * BitVec.ofInt 64 (a.toInt.tdiv b.toInt) := by
  have split_a : a = BitVec.ofInt 64 (b.toInt * a.toInt.tdiv b.toInt + a.toInt.tmod b.toInt) := by
    rw [Int.mul_tdiv_add_tmod, BitVec.ofInt_toInt]
  rw [BitVec.ofInt_add, BitVec.ofInt_mul, BitVec.ofInt_toInt] at split_a
  rw [BitVec.eq_sub_iff_add_eq, BitVec.add_comm]
  exact split_a.symm

theorem umod_eq_sub (a b : Dword) : a % b = a - b * BitVec.ofNat 64 (a.toNat / b.toNat) := by
  rw [← BitVec.udiv_def, BitVec.eq_sub_iff_add_eq]
  exact BitVec.eq_of_toNat_eq (by simpa [BitVec.toNat_add, BitVec.toNat_mul, Nat.mod_add_div] using a.isLt)

section
variable {s : State} {l : Nat} (h : s.executes l) (f : Fields)
include h

/-- A division instruction whose second operand is not 0: `q` of the operands in G[D]. -/
theorem access_division_nonzero (q : Dword → Dword → Dword) (hb : (s.lane l).opB f ≠ 0) :
    access (fun s => s.aluFault l f (fun a b => if b = 0 then none else some (q a b)) subDiv) s =
      s.endsWith l f (q ((s.lane l).getG f.a) ((s.lane l).opB f)) := by
  rw [access_aluFault h, if_neg hb]

/-- A division instruction by 0: the context fault ARITH with sub-cause DIV_ZERO. -/
theorem access_division_zero (q : Dword → Dword → Dword) (hb : (s.lane l).opB f = 0) :
    access (fun s => s.aluFault l f (fun a b => if b = 0 then none else some (q a b)) subDiv) s =
      .next (s.commit (s.arithFaulted l subDiv)) := by
  rw [access_aluFault h, if_pos hb]

theorem exec_divs_nonzero (hb : (s.lane l).opB f ≠ 0) : exec (.divs l f) s =
    s.endsWith l f (BitVec.ofInt 64 (((s.lane l).getG f.a).toInt.tdiv ((s.lane l).opB f).toInt)) :=
  access_division_nonzero h f (fun a b => BitVec.ofInt 64 (a.toInt.tdiv b.toInt)) hb

theorem exec_divu_nonzero (hb : (s.lane l).opB f ≠ 0) : exec (.divu l f) s =
    s.endsWith l f (BitVec.ofNat 64 (((s.lane l).getG f.a).toNat / ((s.lane l).opB f).toNat)) := by
  rw [← BitVec.udiv_def]
  exact access_division_nonzero h f (fun a b => a / b) hb

theorem exec_rems_nonzero (hb : (s.lane l).opB f ≠ 0) : exec (.rems l f) s =
    s.endsWith l f ((s.lane l).getG f.a -
      (s.lane l).opB f * BitVec.ofInt 64 (((s.lane l).getG f.a).toInt.tdiv ((s.lane l).opB f).toInt)) := by
  rw [← ofInt_tmod]
  exact access_division_nonzero h f (fun a b => BitVec.ofInt 64 (a.toInt.tmod b.toInt)) hb

theorem exec_remu_nonzero (hb : (s.lane l).opB f ≠ 0) : exec (.remu l f) s =
    s.endsWith l f ((s.lane l).getG f.a -
      (s.lane l).opB f * BitVec.ofNat 64 (((s.lane l).getG f.a).toNat / ((s.lane l).opB f).toNat)) := by
  rw [← umod_eq_sub]
  exact access_division_nonzero h f (fun a b => a % b) hb

/-- Each of the four division instructions by 0 (R237). -/
theorem exec_division_zero (hb : (s.lane l).opB f = 0) {c : Instr}
    (hc : c ∈ [Instr.divs l f, .divu l f, .rems l f, .remu l f]) : exec c s = .next (s.commit (s.arithFaulted l subDiv)) := by
  simp only [List.mem_cons, List.not_mem_nil, or_false] at hc
  rcases hc with rfl | rfl | rfl | rfl
  · exact access_division_zero h f (fun a b => BitVec.ofInt 64 (a.toInt.tdiv b.toInt)) hb
  · exact access_division_zero h f (fun a b => a / b) hb
  · exact access_division_zero h f (fun a b => BitVec.ofInt 64 (a.toInt.tmod b.toInt)) hb
  · exact access_division_zero h f (fun a b => a % b) hb

end

/-- The quotient of the least integer by −1 is out of range and wraps to the least integer again. -/
theorem tdiv_intMin_neg_one :
    BitVec.ofInt 64 ((0x8000000000000000 : Dword).toInt.tdiv (-1 : Dword).toInt) = 0x8000000000000000 := by decide

/-- Settles O8: a division instruction is `State.aluFault` of a partial operation, so it ends with the quotient or the remainder
or, by 0, with the context fault, which leaves the lane's registers alone. -/
theorem divisionResults : Obligations.DivisionResults := by
  unfold Obligations.DivisionResults
  intro l f s h ln a b ends
  refine ⟨fun hb => ⟨exec_divs_nonzero h f hb, exec_divu_nonzero h f hb, exec_rems_nonzero h f hb, exec_remu_nonzero h f hb⟩,
    fun ha hb => ?_, fun hb c hc => ⟨s.arithFaulted l subDiv, exec_division_zero h f hb hc, rfl, s.arithFaulted_g l subDiv⟩⟩
  have hb0 : b ≠ 0 := by rw [hb]; decide
  have quotient : BitVec.ofInt 64 (a.toInt.tdiv b.toInt) = 0x8000000000000000 := by rw [ha, hb, tdiv_intMin_neg_one]
  have remainder : a - b * BitVec.ofInt 64 (a.toInt.tdiv b.toInt) = 0 := by rw [quotient, ha, hb]; decide
  exact ⟨(exec_divs_nonzero h f hb0).trans (congrArg ends quotient), (exec_rems_nonzero h f hb0).trans (congrArg ends remainder)⟩

/-! ### NaNs, infinities and zeros of binary64 (R233) -/

/-- Decoding of a binary64 pattern with its widths in numbers. -/
theorem fdec_f64 (n : Nat) : fdec f64 n =
    if n / 2 ^ 52 % 2048 = 2047 then (if n % 2 ^ 52 = 0 then .inf (n / 2 ^ 63 % 2 = 1) else .nan)
    else if n / 2 ^ 52 % 2048 = 0 then .fin (n / 2 ^ 63 % 2 = 1) (n % 2 ^ 52) (-1074)
    else .fin (n / 2 ^ 63 % 2 = 1) (2 ^ 52 + n % 2 ^ 52) (((n / 2 ^ 52 % 2048 : Nat) : Int) - 1023 - 52) := rfl

theorem fnan_f64_iff (n : Nat) : fnan f64 n = true ↔ 0x7FF0000000000000 < n % 2 ^ 63 := by
  rw [decide_eq_true_iff, fdec_f64]
  split
  · split <;> simp <;> omega
  · split <;> simp <;> omega

theorem fdec_of_fnan {f : Fmt} {n : Nat} (h : fnan f n = true) : fdec f n = .nan := of_decide_eq_true h

theorem vadd_nan_right (x : FVal) : vadd x .nan = .nan := by cases x <;> rfl
theorem vmul_nan_right (x : FVal) : vmul x .nan = .nan := by cases x <;> rfl
theorem vdiv_nan_right (f : Fmt) (x : FVal) : vdiv f x .nan = .nan := by cases x <;> rfl

section
variable {f : Fmt} {a b : Nat} (h : fnan f a = true ∨ fnan f b = true)
include h

theorem fadd_of_fnan : fadd f a b = nanBits f := by
  rcases h with h | h
  · rw [fadd, fdec_of_fnan h]; rfl
  · rw [fadd, fdec_of_fnan h, vadd_nan_right]; rfl

theorem fsub_of_fnan : fsub f a b = nanBits f := by
  rcases h with h | h
  · rw [fsub, fdec_of_fnan h]; rfl
  · rw [fsub, fdec_of_fnan h, vneg, vadd_nan_right]; rfl

theorem fmul_of_fnan : fmul f a b = nanBits f := by
  rcases h with h | h
  · rw [fmul, fdec_of_fnan h]; rfl
  · rw [fmul, fdec_of_fnan h, vmul_nan_right]; rfl

theorem fdiv_of_fnan : fdiv f a b = nanBits f := by
  rcases h with h | h
  · rw [fdiv, fdec_of_fnan h]; rfl
  · rw [fdiv, fdec_of_fnan h, vdiv_nan_right]; rfl

theorem feq_of_fnan : feq f a b = false := by
  rcases h with h | h <;> simp [feq, h]

theorem flt_of_fnan : flt f a b = false := by
  rcases h with h | h <;> simp [flt, h]

theorem fle_of_fnan : fle f a b = false := by
  rcases h with h | h <;> simp [fle, h]

end

section
variable {f : Fmt} {a : Nat} (h : fnan f a = true)
include h

theorem fsqrt_of_fnan : fsqrt f a = nanBits f := by rw [fsqrt, fdec_of_fnan h]; rfl
theorem fconv_of_fnan (g : Fmt) : fconv f g a = nanBits g := by rw [fconv, fdec_of_fnan h]; rfl
theorem ftoInt_of_fnan (lo hi : Int) : ftoInt f lo hi a = 0 := by rw [ftoInt, fdec_of_fnan h]

end

theorem fabsOf_of_fnan {a : Nat} (h : fnan f64 a = true) : fabsOf a = nanBits f64 := if_pos h
theorem fnegOf_of_fnan {a : Nat} (h : fnan f64 a = true) : fnegOf a = nanBits f64 := if_pos h

/-- FABS of a number clears the sign bit. -/
theorem fabsOf_eq_and {a : Dword} (h : ¬ fnan f64 a.toNat = true) :
    BitVec.ofNat 64 (fabsOf a.toNat) = a &&& 0x7FFFFFFFFFFFFFFF := by
  rw [fabsOf, if_neg h]
  refine BitVec.eq_of_toNat_eq ?_
  have low_bits : a.toNat &&& 0x7FFFFFFFFFFFFFFF = a.toNat % 2 ^ 63 := Nat.and_two_pow_sub_one_eq_mod a.toNat 63
  rw [BitVec.toNat_and, BitVec.toNat_ofNat]
  exact (Nat.mod_eq_of_lt (by omega)).trans low_bits.symm

theorem xor_two_pow_63 {n : Nat} (h : n < 2 ^ 64) : n ^^^ 2 ^ 63 = (n + 2 ^ 63) % 2 ^ 64 := by
  have high : (n ^^^ 2 ^ 63) / 2 ^ 63 = n / 2 ^ 63 ^^^ 1 := Nat.xor_div_two_pow
  have low : (n ^^^ 2 ^ 63) % 2 ^ 63 = n % 2 ^ 63 := by rw [Nat.xor_mod_two_pow, Nat.mod_self, Nat.xor_zero]
  have sign : n / 2 ^ 63 = 0 ∨ n / 2 ^ 63 = 1 := by omega
  rcases sign with hs | hs
  · rw [hs, Nat.zero_xor] at high
    omega
  · rw [hs, Nat.xor_self] at high
    omega

/-- FNEG of a number inverts the sign bit: it adds 2^63 to the pattern, without the carry out. -/
theorem fnegOf_eq_xor {a : Dword} (h : ¬ fnan f64 a.toNat = true) :
    BitVec.ofNat 64 (fnegOf a.toNat) = a ^^^ 0x8000000000000000 := by
  rw [fnegOf, if_neg h]
  refine BitVec.eq_of_toNat_eq ?_
  rw [BitVec.toNat_xor, BitVec.toNat_ofNat, Nat.mod_mod]
  exact (xor_two_pow_63 a.isLt).symm

/-! ### FMIN and FMAX (R238) -/

section
variable {a b : Nat}

theorem fminOf_both_fnan (ha : fnan f64 a = true) (hb : fnan f64 b = true) : fminOf a b = nanBits f64 := by
  simp [fminOf, ha, hb]
theorem fmaxOf_both_fnan (ha : fnan f64 a = true) (hb : fnan f64 b = true) : fmaxOf a b = nanBits f64 := by
  simp [fmaxOf, ha, hb]
theorem fminOf_left_fnan (ha : fnan f64 a = true) (hb : ¬ fnan f64 b = true) : fminOf a b = b := by
  simp [fminOf, ha, hb]
theorem fmaxOf_left_fnan (ha : fnan f64 a = true) (hb : ¬ fnan f64 b = true) : fmaxOf a b = b := by
  simp [fmaxOf, ha, hb]
theorem fminOf_right_fnan (ha : ¬ fnan f64 a = true) (hb : fnan f64 b = true) : fminOf a b = a := by
  simp [fminOf, ha, hb]
theorem fmaxOf_right_fnan (ha : ¬ fnan f64 a = true) (hb : fnan f64 b = true) : fmaxOf a b = a := by
  simp [fmaxOf, ha, hb]

end

section
variable {a b : Dword}

/-- −0 is below +0 for FMIN and FMAX, in either order of the operands. -/
theorem fmin_fmax_negZero_posZero (ha : a = 0x8000000000000000) (hb : b = 0) :
    BitVec.ofNat 64 (fminOf a.toNat b.toNat) = a ∧ BitVec.ofNat 64 (fmaxOf a.toNat b.toNat) = b := by
  subst ha hb; decide
theorem fmin_fmax_posZero_negZero (ha : a = 0) (hb : b = 0x8000000000000000) :
    BitVec.ofNat 64 (fminOf a.toNat b.toNat) = b ∧ BitVec.ofNat 64 (fmaxOf a.toNat b.toNat) = a := by
  subst ha hb; decide

/-- The comparisons hold −0 and +0 equal. -/
theorem compare_negZero_posZero (ha : a = 0x8000000000000000) (hb : b = 0) :
    truth (feq f64 a.toNat b.toNat) = 1 ∧ truth (flt f64 a.toNat b.toNat) = 0 ∧ truth (fle f64 a.toNat b.toNat) = 1 := by
  subst ha hb; decide

end

/-! ### CVTFI of values outside the INT64 range (R238) -/

/-- A pattern from 2^63 to infinity, but for its sign, is an infinity or a number of at least 2^52 · 2^11. -/
theorem fdec_f64_large {n : Nat} (hlo : 0x43E0000000000000 ≤ n % 2 ^ 63) (hhi : n % 2 ^ 63 ≤ 0x7FF0000000000000) :
    fdec f64 n = .inf (n / 2 ^ 63 % 2 = 1) ∨
      ∃ m e, fdec f64 n = .fin (n / 2 ^ 63 % 2 = 1) m e ∧ 2 ^ 52 ≤ m ∧ 11 ≤ e := by
  rw [fdec_f64]
  by_cases hinf : n / 2 ^ 52 % 2048 = 2047
  · rw [if_pos hinf, if_pos (by omega)]
    exact .inl rfl
  · rw [if_neg hinf, if_neg (by omega)]
    exact .inr ⟨_, _, rfl, by omega, by omega⟩

theorem le_ftrunc {m : Nat} {e : Int} (hm : 2 ^ 52 ≤ m) (he : 11 ≤ e) : 2 ^ 63 ≤ ftrunc m e := by
  rw [ftrunc, if_pos (by omega)]
  calc 2 ^ 63 = 2 ^ 52 * 2 ^ 11 := by decide
    _ ≤ m * 2 ^ (min e.toNat 2048) := Nat.mul_le_mul hm (Nat.pow_le_pow_right (by decide) (by omega))

/-- CVTFI holds a value outside the INT64 range at the bound on its side. -/
theorem ftoInt_f64_saturates {n : Nat} (hlo : 0x43E0000000000000 ≤ n % 2 ^ 63) (hhi : n % 2 ^ 63 ≤ 0x7FF0000000000000) :
    ftoInt f64 (-2 ^ 63) (2 ^ 63 - 1) n = if n / 2 ^ 63 % 2 = 1 then -2 ^ 63 else 2 ^ 63 - 1 := by
  rcases fdec_f64_large hlo hhi with hinf | ⟨m, e, hfin, hm, he⟩
  · simp [ftoInt, hinf]
  · have big := le_ftrunc hm he
    simp only [ftoInt, hfin, fsigned, clampInt, decide_eq_true_eq]
    split <;> omega

theorem cvtfi_above {a : Dword} (hlo : 0x43E0000000000000 ≤ a.toNat) (hhi : a.toNat ≤ 0x7FF0000000000000) :
    BitVec.ofInt 64 (ftoInt f64 (-2 ^ 63) (2 ^ 63 - 1) a.toNat) = 0x7FFFFFFFFFFFFFFF := by
  rw [ftoInt_f64_saturates (by omega) (by omega), if_neg (by omega)]
  decide

theorem cvtfi_below {a : Dword} (hlo : 0xC3E0000000000000 ≤ a.toNat) (hhi : a.toNat ≤ 0xFFF0000000000000) :
    BitVec.ofInt 64 (ftoInt f64 (-2 ^ 63) (2 ^ 63 - 1) a.toNat) = 0x8000000000000000 := by
  rw [ftoInt_f64_saturates (by omega) (by omega), if_pos (by omega)]
  decide

/-! ### The floating-point instructions on a lane that can execute (Table ISA-4) -/

section
variable {s : State} {l : Nat} (h : s.executes l) (f : Fields)
include h

theorem exec_fadd : exec (.fadd l f) s =
    s.endsWith l f (BitVec.ofNat 64 (fadd f64 ((s.lane l).getG f.a).toNat ((s.lane l).opB f).toNat)) := access_alu h f _
theorem exec_fsub : exec (.fsub l f) s =
    s.endsWith l f (BitVec.ofNat 64 (fsub f64 ((s.lane l).getG f.a).toNat ((s.lane l).opB f).toNat)) := access_alu h f _
theorem exec_fmul : exec (.fmul l f) s =
    s.endsWith l f (BitVec.ofNat 64 (fmul f64 ((s.lane l).getG f.a).toNat ((s.lane l).opB f).toNat)) := access_alu h f _
theorem exec_fdiv : exec (.fdiv l f) s =
    s.endsWith l f (BitVec.ofNat 64 (fdiv f64 ((s.lane l).getG f.a).toNat ((s.lane l).opB f).toNat)) := access_alu h f _
theorem exec_fsqrt : exec (.fsqrt l f) s =
    s.endsWith l f (BitVec.ofNat 64 (fsqrt f64 ((s.lane l).getG f.a).toNat)) := access_alu h f _
theorem exec_fmin : exec (.fmin l f) s =
    s.endsWith l f (BitVec.ofNat 64 (fminOf ((s.lane l).getG f.a).toNat ((s.lane l).opB f).toNat)) := access_alu h f _
theorem exec_fmax : exec (.fmax l f) s =
    s.endsWith l f (BitVec.ofNat 64 (fmaxOf ((s.lane l).getG f.a).toNat ((s.lane l).opB f).toNat)) := access_alu h f _
theorem exec_fabs : exec (.fabs l f) s =
    s.endsWith l f (BitVec.ofNat 64 (fabsOf ((s.lane l).getG f.a).toNat)) := access_alu h f _
theorem exec_fneg : exec (.fneg l f) s =
    s.endsWith l f (BitVec.ofNat 64 (fnegOf ((s.lane l).getG f.a).toNat)) := access_alu h f _
theorem exec_fceq : exec (.fceq l f) s =
    s.endsWith l f (truth (feq f64 ((s.lane l).getG f.a).toNat ((s.lane l).opB f).toNat)) := access_alu h f _
theorem exec_fclt : exec (.fclt l f) s =
    s.endsWith l f (truth (flt f64 ((s.lane l).getG f.a).toNat ((s.lane l).opB f).toNat)) := access_alu h f _
theorem exec_fcle : exec (.fcle l f) s =
    s.endsWith l f (truth (fle f64 ((s.lane l).getG f.a).toNat ((s.lane l).opB f).toNat)) := access_alu h f _
theorem exec_cvtfi : exec (.cvtfi l f) s =
    s.endsWith l f (BitVec.ofInt 64 (ftoInt f64 (-2 ^ 63) (2 ^ 63 - 1) ((s.lane l).getG f.a).toNat)) := access_alu h f _
theorem exec_cvtif : exec (.cvtif l f) s =
    s.endsWith l f (BitVec.ofNat 64 (fofInt f64 ((s.lane l).getG f.a).toInt)) := access_alu h f _
theorem exec_cvtsd : exec (.cvtsd l f) s =
    s.endsWith l f (BitVec.ofNat 64 (fconv f32 f64 (((s.lane l).getG f.a).toNat % 2 ^ 32))) := access_alu h f _
theorem exec_cvtds : exec (.cvtds l f) s =
    s.endsWith l f (BitVec.ofNat 64 (fconv f64 f32 ((s.lane l).getG f.a).toNat)) := access_alu h f _

end

theorem ofNat_eq_qnan {n : Nat} (h : n = nanBits f64) : BitVec.ofNat 64 n = 0x7FF8000000000000 := by rw [h]; decide

theorem truth_eq_zero {c : Bool} (h : c = false) : truth c = 0 := by rw [h]; rfl

theorem ofNat_eq_of_toNat {n : Nat} {x : Dword} (h : n = x.toNat) : BitVec.ofNat 64 n = x := by
  rw [h, BitVec.ofNat_toNat, BitVec.setWidth_eq]

/-- Settles O9: each instruction writes what Machine/SoftFloat.lean computes from its operands, and what R233 and R238 say of NaNs,
zeros and values out of range holds of those functions. -/
theorem floatResults : Obligations.FloatResults := by
  unfold Obligations.FloatResults
  intro l f s h ln a b nan qnan ends
  have isNan {x : Dword} (hx : nan x) : fnan f64 x.toNat = true := (fnan_f64_iff x.toNat).2 hx
  have noNan {x : Dword} (hx : ¬ nan x) : ¬ fnan f64 x.toNat = true := fun hn => hx ((fnan_f64_iff x.toNat).1 hn)
  have gives {c : Instr} {v w : Dword} (hc : exec c s = s.endsWith l f v) (hv : v = w) : exec c s = ends w := hv ▸ hc
  refine ⟨⟨exec_fadd h f, exec_fsub h f, exec_fmul h f, exec_fdiv h f, exec_fsqrt h f, exec_fmin h f, exec_fmax h f,
    exec_fceq h f, exec_fclt h f, exec_fcle h f, exec_cvtfi h f, exec_cvtif h f, exec_cvtsd h f, exec_cvtds h f⟩,
    fun hn => ?oneNan, fun ha => ?unaryNan, fun ha => ?sign, fun ha hb => ?bothNan, fun ha hb => ?leftNan, fun ha hb => ?rightNan,
    fun ha hb => ?negZero, fun ha hb => ?posZero, fun hlo hhi => ?above, fun hlo hhi => ?below⟩
  case oneNan =>
    have hn := hn.imp isNan isNan
    exact ⟨gives (exec_fadd h f) (ofNat_eq_qnan (fadd_of_fnan hn)), gives (exec_fsub h f) (ofNat_eq_qnan (fsub_of_fnan hn)),
      gives (exec_fmul h f) (ofNat_eq_qnan (fmul_of_fnan hn)), gives (exec_fdiv h f) (ofNat_eq_qnan (fdiv_of_fnan hn)),
      gives (exec_fceq h f) (truth_eq_zero (feq_of_fnan hn)), gives (exec_fclt h f) (truth_eq_zero (flt_of_fnan hn)),
      gives (exec_fcle h f) (truth_eq_zero (fle_of_fnan hn))⟩
  case unaryNan =>
    have ha := isNan ha
    exact ⟨gives (exec_fsqrt h f) (ofNat_eq_qnan (fsqrt_of_fnan ha)),
      gives (exec_cvtfi h f) (congrArg (BitVec.ofInt 64) (ftoInt_of_fnan ha _ _)),
      gives (exec_cvtds h f) (congrArg (BitVec.ofNat 64) (fconv_of_fnan ha f32)),
      gives (exec_fabs h f) (ofNat_eq_qnan (fabsOf_of_fnan ha)), gives (exec_fneg h f) (ofNat_eq_qnan (fnegOf_of_fnan ha))⟩
  case sign => exact ⟨gives (exec_fabs h f) (fabsOf_eq_and (noNan ha)), gives (exec_fneg h f) (fnegOf_eq_xor (noNan ha))⟩
  case bothNan =>
    exact ⟨gives (exec_fmin h f) (ofNat_eq_qnan (fminOf_both_fnan (isNan ha) (isNan hb))),
      gives (exec_fmax h f) (ofNat_eq_qnan (fmaxOf_both_fnan (isNan ha) (isNan hb)))⟩
  case leftNan =>
    exact ⟨gives (exec_fmin h f) (ofNat_eq_of_toNat (fminOf_left_fnan (isNan ha) (noNan hb))),
      gives (exec_fmax h f) (ofNat_eq_of_toNat (fmaxOf_left_fnan (isNan ha) (noNan hb)))⟩
  case rightNan =>
    exact ⟨gives (exec_fmin h f) (ofNat_eq_of_toNat (fminOf_right_fnan (noNan ha) (isNan hb))),
      gives (exec_fmax h f) (ofNat_eq_of_toNat (fmaxOf_right_fnan (noNan ha) (isNan hb)))⟩
  case negZero =>
    obtain ⟨hmin, hmax⟩ := fmin_fmax_negZero_posZero ha hb
    obtain ⟨heq, hlt, hle⟩ := compare_negZero_posZero ha hb
    exact ⟨gives (exec_fmin h f) hmin, gives (exec_fmax h f) hmax, gives (exec_fceq h f) heq, gives (exec_fclt h f) hlt,
      gives (exec_fcle h f) hle⟩
  case posZero =>
    obtain ⟨hmin, hmax⟩ := fmin_fmax_posZero_negZero ha hb
    exact ⟨gives (exec_fmin h f) hmin, gives (exec_fmax h f) hmax⟩
  case above => exact gives (exec_cvtfi h f) (cvtfi_above hlo hhi)
  case below => exact gives (exec_cvtfi h f) (cvtfi_below hlo hhi)

end Sys2Proof.Machine

/-! Proofs about keys and the lifecycle: the lifecycle state is read from the fuses, and a step only adds blown fuses (R464, R479). -/

namespace Sys2Proof.Machine

open Sys2Proof.Config

/-! ### Operations that keep the fuses -/

/-- A change of registers, with what goes with registers, blows nothing. -/
theorem OnlyPages.fuse_eq {ps : List Nat} {s t : State} (h : OnlyPages ps s t) : t.fuse = s.fuse := by
  obtain ⟨same, _⟩ := h
  rw [same]

@[simp] theorem State.noteLine_fuse (s : State) (pg : Nat) (was : Bool) : (s.noteLine pg was).fuse = s.fuse :=
  (OnlyPages.noteLine [] s pg was).fuse_eq

@[simp] theorem State.setPend_fuse (s : State) (pg b : Nat) : (s.setPend pg b).fuse = s.fuse := by
  simp [State.setPend]

@[simp] theorem State.record_fuse (s : State) (code : Nat) (vals : List Nat) : (s.record code vals).fuse = s.fuse :=
  (OnlyPages.record (ps := [pgCRN]) s code vals 0 (List.mem_singleton_self _) (by decide)).fuse_eq

@[simp] theorem State.event_fuse (s : State) (pg b : Nat) (vals : List Nat) : (s.event pg b vals).fuse = s.fuse := by
  rw [State.event, State.record_fuse, State.setPend_fuse]

/-! ### One ft of an idle block keeps the fuses (R34, R35) -/

@[simp] theorem State.heal_fuse (s : State) (e : EccWord) : (s.heal e).fuse = s.fuse := rfl

@[simp] theorem State.corrected_fuse (s : State) (dom n master w : Nat) : (s.corrected dom n master w).fuse = s.fuse := by
  unfold State.corrected
  dsimp only
  split <;> simp

@[simp] theorem State.checkWord_fuse (s : State) (dom master w : Nat) (e : EccWord) : (s.checkWord dom master w e).1.fuse = s.fuse := by
  unfold State.checkWord
  dsimp only
  split
  · rfl
  · split
    · exact (State.corrected_fuse _ dom _ master w).trans (s.heal_fuse e)
    · simp [State.uncorrectable]

@[simp] theorem State.checkStore_fuse (s : State) (e : EccWord) : (s.checkStore e).1.fuse = s.fuse := by
  unfold State.checkStore
  split
  · rfl
  · exact State.checkWord_fuse s.draw _ _ _ e

@[simp] theorem State.suspect_fuse (s : State) (e : EccWord) (names : List Nat) : (s.suspect e names).fuse = s.fuse := by
  unfold State.suspect
  dsimp only
  split
  · rw [State.record_fuse, State.heal_fuse, State.checkStore_fuse]
  · exact s.checkStore_fuse e

@[simp] theorem State.suspects_fuse (s : State) (p : EccWord → Option (List Nat)) (ws : List (EccWord × Nat)) :
    (s.suspects p ws).fuse = s.fuse := by
  induction ws generalizing s with
  | nil => rfl
  | cons w ws ih =>
    rw [State.suspects, ih]
    split
    · exact s.suspect_fuse _ _
    · rfl

@[simp] theorem State.endWork_fuse (s : State) : s.endWork.fuse = s.fuse := rfl

@[simp] theorem State.moduleFault_fuse (s : State) (code : Nat) : (s.moduleFault code).fuse = s.fuse := by
  unfold State.moduleFault
  extract_lets ended faults draft sys coded shown stamped faulted pended
  have faulted_fuse : faulted.fuse = s.fuse := by
    rw [State.setRegFld_fuse, State.addKey_fuse, State.setKey_fuse, State.setReg64, State.setKey_fuse, State.setKey_fuse,
      State.setKey_fuse, State.endWork_fuse]
  rw [State.record_fuse]
  unfold pended
  split
  · rw [State.setPend_fuse, faulted_fuse]
  · exact faulted_fuse

@[simp] theorem State.crdCheck_fuse (s : State) : s.crdCheck.fuse = s.fuse := by
  unfold State.crdCheck
  dsimp only
  split
  · exact s.suspects_fuse _ _
  · rw [State.moduleFault_fuse, State.record_fuse, State.suspects_fuse]

@[simp] theorem State.idle_fuse (s : State) : s.idle.fuse = s.fuse := by
  rw [State.idle, State.crdCheck_fuse, State.tickOnce, State.elapse_fuse]

/-! ### What a lifecycle transition and a blow do to the fuses (R467, R479) -/

@[simp] theorem State.keyCount_fuse (s : State) (old new : Nat) : (s.keyCount old new).fuse = s.fuse := by
  unfold State.keyCount State.countUp State.countDown
  split
  · dsimp only
    split <;> rfl
  · split <;> rfl

@[simp] theorem State.keyErase_fuse (s : State) (k : Nat) : (s.keyErase k).fuse = s.fuse := by
  rw [State.keyErase, State.keyCount_fuse]; rfl

@[simp] theorem State.lcSlots_fuse (s : State) (target : Nat) (ks : List Nat) : (s.lcSlots target ks).fuse = s.fuse := by
  induction ks generalizing s with
  | nil => rfl
  | cons k ks ih =>
    rw [State.lcSlots, ih]
    split
    · exact s.keyErase_fuse k
    · rfl

@[simp] theorem State.makeRootOf_fuse (s : State) (c : Nat) (r : BitVec 256) : (s.makeRootOf c r).fuse = s.fuse := by
  unfold State.makeRootOf
  split <;> rfl

@[simp] theorem State.reseal_fuse (s old : State) : (s.reseal old).fuse = s.fuse := rfl

@[simp] theorem State.putId_fuse (s : State) (ws : List (Nat × Word)) : (s.putId ws).fuse = s.fuse := by
  induction ws generalizing s with
  | nil => rfl
  | cons w ws ih => rw [State.putId, ih, State.setKey_fuse]

@[simp] theorem State.showId_fuse (s : State) : s.showId.fuse = s.fuse := s.putId_fuse _

@[simp] theorem State.kumDone_fuse (s : State) (m : Submission) (st : Nat) : (s.kumDone m st).fuse = s.fuse := by
  rw [State.kumDone, State.event_fuse]; rfl

theorem lifecycleTransitionEnd_of_none (r : BitVec 256) {s : State} (h : s.keys.transition = none) :
    lifecycleTransitionEnd r s = s := by
  rw [lifecycleTransitionEnd, h]

/-- A transition blows the fuses of its target, in the fuses as they stood. -/
theorem lifecycleTransitionEnd_fuse (r : BitVec 256) {s : State} {target : Nat} (h : s.keys.transition = some target) :
    (lifecycleTransitionEnd r s).fuse = { blown := fusesTo s.fuse.blown target } := by
  rw [lifecycleTransitionEnd, h]
  dsimp -zeta only
  extract_lets old erased keys blown entered
  have entered_fuse : entered.fuse = { blown := fusesTo s.fuse.blown target } := by
    simp only [entered, State.event_fuse, State.showId_fuse, State.reseal_fuse, State.makeRootOf_fuse, blown, erased, State.lcSlots_fuse]
  clear_value entered
  split
  · exact (State.kumDone_fuse _ _ _).trans entered_fuse
  · exact entered_fuse

theorem fuseBlowComplete_of_none {s : State} (h : s.keys.blowing = none) : fuseBlowComplete s = s := by
  rw [fuseBlowComplete, h]

theorem fuseBlowComplete_fuse {s : State} {ofs : Nat} {bits : Word} (h : s.keys.blowing = some (ofs, bits)) :
    (fuseBlowComplete s).fuse = { blown := Tbl.set (fun _ => 0) s.fuse.blown ofs (s.fuseReg ofs ||| bits) } := by
  rw [fuseBlowComplete, h]
  exact State.event_fuse _ _ _ _

/-! ### The lifecycle state (R464) -/

/-- FUSE_LC as blown (Table FUS-1). -/
def Fuses.lcWord (f : Fuses) : Word := Tbl.get (fun _ => 0) f.blown 0x040

theorem State.fuseReg_lifecycle (s : State) : s.fuseReg 0x040 = s.fuse.lcWord := if_neg (by decide)

/-- The lifecycle state is read from the lifecycle fuses alone. -/
theorem State.lifecycle_eq (s : State) : s.lifecycle =
    if bit s.fuse.lcWord 2 then 3 else if bit s.fuse.lcWord 1 then 2 else if bit s.fuse.lcWord 0 then 1 else 0 := by
  rw [State.lifecycle, State.fuseReg_lifecycle]

/-- Every lifecycle fuse blown in `f` is blown in `g`. -/
def Fuses.lcWithin (f g : Fuses) : Prop := ∀ k, bit f.lcWord k = true → bit g.lcWord k = true

theorem Fuses.lcWithin_refl (f : Fuses) : f.lcWithin f := fun _ hk => hk

theorem Fuses.lcWithin_of_or {f g : Fuses} (bits : Word) (h : g.lcWord = f.lcWord ||| bits) : f.lcWithin g := by
  intro k hk
  rw [h, bit, BitVec.getLsbD_or, ← bit, hk, Bool.true_or]

/-- A blown lifecycle fuse puts the module at its state or past it. -/
theorem State.lt_lifecycle {s : State} {k : Nat} (hk : k < 3) (blown : bit s.fuse.lcWord k = true) : k < s.lifecycle := by
  have other {j : Nat} (unblown : ¬ bit s.fuse.lcWord j = true) : k ≠ j := fun same => unblown (same ▸ blown)
  rw [State.lifecycle_eq]
  split
  · exact hk
  · next noReturn =>
    have := other noReturn
    split
    · omega
    · next noField =>
      have := other noField
      split
      · omega
      · next noCommission =>
        have := other noCommission
        omega

/-- The highest lifecycle fuse blown stays blown, so the state is not lowered. -/
theorem State.lifecycle_mono {s t : State} (h : s.fuse.lcWithin t.fuse) : s.lifecycle ≤ t.lifecycle := by
  rw [State.lifecycle_eq s]
  split
  · next ret => exact State.lt_lifecycle (by decide) (h 2 ret)
  · split
    · next field => exact State.lt_lifecycle (by decide) (h 1 field)
    · split
      · next commission => exact State.lt_lifecycle (by decide) (h 0 commission)
      · exact Nat.zero_le _

/-! ### No step unblows a lifecycle fuse -/

/-- A transition blows one lifecycle fuse; the lock fuse that FIELD blows before it is another register's. -/
theorem lcWord_fusesTo (f : Fuses) (target : Nat) :
    ({ blown := fusesTo f.blown target } : Fuses).lcWord = f.lcWord ||| bitMask (target - 1) :=
  Tbl.get_set_same _ _ _ _

theorem lifecycleTransitionEnd_lcWithin (r : BitVec 256) (s : State) : s.fuse.lcWithin (lifecycleTransitionEnd r s).fuse := by
  cases running : s.keys.transition with
  | none => rw [lifecycleTransitionEnd_of_none r running]; exact Fuses.lcWithin_refl _
  | some target =>
    rw [lifecycleTransitionEnd_fuse r running]
    exact Fuses.lcWithin_of_or _ (lcWord_fusesTo s.fuse target)

theorem fuseBlowComplete_lcWithin (s : State) : s.fuse.lcWithin (fuseBlowComplete s).fuse := by
  cases running : s.keys.blowing with
  | none => rw [fuseBlowComplete_of_none running]; exact Fuses.lcWithin_refl _
  | some blow =>
    obtain ⟨ofs, bits⟩ := blow
    rw [fuseBlowComplete_fuse running]
    by_cases hofs : ofs = 0x040
    · rw [hofs, State.fuseReg_lifecycle]
      exact Fuses.lcWithin_of_or bits (Tbl.get_set_same _ _ _ _)
    · have other : ∀ w : Word, ({ blown := Tbl.set (fun _ => 0) s.fuse.blown ofs w } : Fuses).lcWord = s.fuse.lcWord :=
        fun w => Tbl.get_set_ne _ _ w (Ne.symm hofs)
      intro k hk
      rw [other]
      exact hk

/-- Every command but the two that blow fuses leaves the fuses as they are, and those two only add to the lifecycle fuses. -/
theorem exec_lcWithin (c : Instr) {s t : State} (h : exec c s = .next t) : s.fuse.lcWithin t.fuse := by
  rcases exec_commits c s with ⟨u, hc⟩ | ⟨u, hc⟩ | ⟨r, rfl⟩ | rfl
  · obtain rfl : s.atGrant.commit u = t := by rw [hc] at h; injection h
    rw [State.commit_fuse, State.atGrant_fuse]
    exact Fuses.lcWithin_refl _
  · obtain rfl : s.land u = t := by rw [hc] at h; injection h
    rw [State.land_fuse]
    exact Fuses.lcWithin_refl _
  · obtain rfl : { s.land (lifecycleTransitionEnd r s) with fuse := (lifecycleTransitionEnd r s).fuse } = t := by injection h
    exact lifecycleTransitionEnd_lcWithin r s
  · obtain rfl : { s.land (fuseBlowComplete s) with fuse := (fuseBlowComplete s).fuse } = t := by injection h
    exact fuseBlowComplete_lcWithin s

theorem step_lcWithin {s t : State} (h : step s = .next t) : s.fuse.lcWithin t.fuse := by
  unfold step at h
  split at h
  · obtain rfl : s.idle = t := by injection h
    rw [State.idle_fuse]
    exact Fuses.lcWithin_refl _
  · next c rest _ => exact exec_lcWithin c (s := { s with pending := rest }) h

/-- Settles O5: the state is read from the lifecycle fuses, and no step unblows one of them. -/
theorem lifecycleOnlyAdvances : Obligations.LifecycleOnlyAdvances := by
  unfold Obligations.LifecycleOnlyAdvances
  refine ⟨fun s => ?_, fun s t h => State.lifecycle_mono (step_lcWithin h)⟩
  rw [State.lifecycle_eq, State.fuseReg_lifecycle]
  generalize bit s.fuse.lcWord 2 = ret, bit s.fuse.lcWord 1 = field, bit s.fuse.lcWord 0 = commission
  revert ret field commission
  decide

end Sys2Proof.Machine
